-- ==== Sys2Proof/Word.lean ====
section
/-! DEFINITION. The plainest words of the hub's model: bytes, times on the timebase, camera ports, trigger lines, and
counters that stay at their top value. -/

namespace Sys2Proof

/-- One byte of a master record, of a drop link packet, of a line or of a page. -/
abbrev Byte := BitVec 8

/-- A value of the timebase, in microseconds since the end of the last reset (spec 00_scope, "Time"). -/
abbrev Time := Nat

/-- A camera port, 0..7 (00_scope, "Ports and masters"). -/
abbrev Port := Fin 8

/-- A trigger line, TRIG0..TRIG3. -/
abbrev LineNo := Fin 4

/-- A number of milliseconds, in the timebase's microseconds. -/
def ms (n : Nat) : Time := n * 1000

/-- The top value of the hub's 32-bit counters (R20, R154, R180, R187). -/
def countTop : Nat := 4294967295

/-- One more, staying at 4 294 967 295 once the counter gets there (R20). -/
def satInc (n : Nat) : Nat := if n < countTop then n + 1 else n

/-- The eight camera ports in port number order. -/
def allPorts : List Port := [0, 1, 2, 3, 4, 5, 6, 7]

/-- The port a port number names, if it lies in 0..7. -/
def portOf (n : Nat) : Option Port := if h : n < 8 then some ⟨n, h⟩ else none

/-- The trigger line a line number names, if it lies in 0..3. -/
def lineOf (n : Nat) : Option LineNo := if h : n < 4 then some ⟨n, h⟩ else none

/-- `n` divided by `d` and rounded up. -/
def ceilDiv (n d : Nat) : Nat := (n + d - 1) / d

end Sys2Proof
end

