-- ==== Sys2Proof/Syntax.lean ====
section
/-! DEFINITION. The commands of the hub, one constructor of `Instr` for each row of spec/opcode_table.json, with the operands
the rows' rules give them. A row that is an event of a block (a deadline, a grant, a sample) takes what the event brings with
it; a row that is a request takes the master whose request is taken and the fields of the request. -/

namespace Sys2Proof

/-- The three masters (00_scope; numbered A 0, B 1, C 2 by R202). -/
inductive Master | A | B | C
  deriving DecidableEq, Repr

/-- The two analysis masters, whose ports are fabric links and who alone have ready lists (R103, 10.2). -/
inductive Analysis | A | B
  deriving DecidableEq, Repr

/-- The rates of the up-channel: 1.25, 2.5 and 5.0 Gb/s (1.1; numbered 0, 1, 2 by R202). -/
inductive Rate | r1250 | r2500 | r5000
  deriving DecidableEq, Repr

/-- The lens axes. -/
inductive Axis | focus | iris | zoom
  deriving DecidableEq, Repr

/-- The level of a trigger line. -/
inductive Level | low | high
  deriving DecidableEq, Repr

/-- One thing for each lens axis. -/
structure PerAxis (α : Type) where
  focus : α
  iris : α
  zoom : α
  deriving DecidableEq, Repr

/-- The fields of a HELLO as the packet spells them (1.1, 11.3): a speed of 0 is an absent speed. -/
structure HelloBody where
  modelLength : Nat
  model : List Byte
  serialLength : Nat
  serial : List Byte
  rateCode : Nat
  powerClass : Nat
  present : PerAxis Bool
  speed : PerAxis Nat
  bodyLength : Nat
  deriving DecidableEq, Repr

/-- One entry of a LENS_REPORT (11.3). -/
structure ReportEntry where
  axis : Axis
  position : Nat
  settled : Bool
  deriving DecidableEq, Repr

/-- The line settings of one trigger line as a request spells them; a field may be missing (R141, R144, R185). Polarity is
its number, RISING 0 and FALLING 1. -/
structure RawLine where
  enable : Option Bool
  polarity : Option Nat
  debounce : Option Nat
  holdOff : Option Nat
  route : Option Nat
  deriving DecidableEq, Repr

/-- The fields of WRITE_PROFILE in the order of R140; a field may be missing (R144). -/
structure RawProfile where
  installedLength : Option Nat
  velocity : Option Nat
  offset : Option Nat
  allotment : Option Nat
  inrushWindow : Option Nat
  helloTimeout : Option Nat
  rateLimit : Option Nat
  degradeThreshold : Option Nat
  sweepThreshold : Option Nat
  blindCount : Option Nat
  averaging : Option Nat
  powerAtStart : Option Bool
  autoSweep : Option Bool
  autoRestore : Option Bool
  deriving DecidableEq, Repr

/-- The fields of WRITE_CELL in the order of R141; a field may be missing (R144). -/
structure RawCell where
  budget : Option Nat
  stagger : Option Nat
  line0 : RawLine
  line1 : RawLine
  line2 : RawLine
  line3 : RawLine
  deriving DecidableEq, Repr

/-- The commands of the hub. -/
inductive Instr where
  /-- POR (R72). -/
  | por
  /-- WARM_RESET (R71): assertion of the RESET pin while the hub is powered. -/
  | warmReset
  /-- CHECK_FAILED_PACKET (R1): a packet at rate `rate` failed a check; `body` is `some (k, payload)` where the header check
  passed, the kind was LINE and the body check failed. -/
  | checkFailedPacket (p : Port) (rate : Rate) (body : Option (Nat × List Byte))
  /-- MALFORMED_PACKET (R206). -/
  | malformedPacket (p : Port) (rate : Rate)
  /-- IDLE (R2). -/
  | idle (p : Port) (rate : Rate)
  /-- HELLO (R6). -/
  | hello (p : Port) (rate : Rate) (h : HelloBody)
  /-- LENS_REPORT (R133). -/
  | lensReport (p : Port) (rate : Rate) (entries : List ReportEntry)
  /-- FRAME_OPEN (R75): camera frame number, bytes per line, declared lines. -/
  | frameOpen (p : Port) (rate : Rate) (frameNo width lines : Nat)
  /-- LINE (R84): line index and payload. -/
  | line (p : Port) (rate : Rate) (k : Nat) (payload : List Byte)
  /-- FRAME_CLOSE (R90): the count of lines sent. -/
  | frameClose (p : Port) (rate : Rate) (c : Nat)
  /-- INACTIVITY_TIMEOUT (R89). -/
  | inactivityTimeout (p : Port)
  /-- DRAM_WRITE_GRANT (R88). -/
  | dramWriteGrant
  /-- FETCH_READ_GRANT (R116). -/
  | fetchReadGrant
  /-- DOWN_CHANNEL_SEND (R3). -/
  | downChannelSend (p : Port)
  /-- HELLO_TIMEOUT (R5). -/
  | helloTimeout (p : Port)
  /-- ATTEMPT_DEADLINE (R9). -/
  | attemptDeadline (p : Port)
  /-- LOCK_LOSS (R17). -/
  | lockLoss (p : Port)
  /-- ERROR_WINDOW_END (R14). -/
  | errorWindowEnd (p : Port)
  /-- CURRENT_SAMPLE (R34, R35): the current measured, mA. -/
  | currentSample (p : Port) (mA : Nat)
  /-- OVERLOAD (R35): the sample that takes an overload run to 20. -/
  | overload (p : Port) (mA : Nat)
  /-- UNDERCURRENT (R39): the sample that takes an undercurrent run to 500. -/
  | undercurrent (p : Port) (mA : Nat)
  /-- INRUSH_END (R34). -/
  | inrushEnd (p : Port)
  /-- STAGGER_GAP_END (R32). -/
  | staggerGapEnd
  /-- QUEUE_HEAD_START (R32). -/
  | queueHeadStart
  /-- SUPPLY_STATE_LOW (R42): the highest supply reading, mV, over the last `forUs` microseconds. -/
  | supplyStateLow (highestMv forUs : Nat)
  /-- SUPPLY_STATE_NORMAL (R43): the lowest supply reading, mV, over the last `forUs` microseconds. -/
  | supplyStateNormal (lowestMv forUs : Nat)
  /-- DISCHARGE_END (R53). -/
  | dischargeEnd
  /-- ACQUISITION_REPETITION (R56): the 1024 samples of one repetition, each signed, 12 bits. -/
  | acquisitionRepetition (samples : List (BitVec 12))
  /-- ACQUISITION_END (R66). -/
  | acquisitionEnd
  /-- LENS_DEADLINE (R134). -/
  | lensDeadline (p : Port) (axis : Axis)
  /-- STORE_WRITE_COMPLETE (R147): whether the read-back matched. -/
  | storeWriteComplete (matched : Bool)
  /-- SETTLE_TIMEOUT (R164). -/
  | settleTimeout (p : Port)
  /-- AWAIT_TIMEOUT (R165). -/
  | awaitTimeout (p : Port)
  /-- CLOSE_TIMEOUT (R169). -/
  | closeTimeout (p : Port)
  /-- TRIGGER_HANDOVER (R166). -/
  | triggerHandover (p : Port)
  /-- DWELL_END (R170). -/
  | dwellEnd (p : Port)
  /-- CADENCE_DEADLINE (R175). -/
  | cadenceDeadline (p : Port)
  /-- TRIGGER_LINE_SAMPLE (R181). -/
  | triggerLineSample (l : LineNo) (level : Level)
  /-- ACCEPTED_TRANSITION (R182): the sample that completes a debounce run against the accepted level. -/
  | acceptedTransition (l : LineNo) (level : Level)
  /-- FABRIC_RECORD_ARRIVAL (R189): the bytes the fabric link delivered, whether they pass the link's integrity check, and
  whether the fields of a request fit its kind (R192). -/
  | fabricRecordArrival (a : Analysis) (record : List Byte) (sound fits : Bool)
  /-- SPI_SELECT_FALL (R191). -/
  | spiSelectFall
  /-- SPI_SELECT_RISE (R190): the whole bytes shifted in, whether select rises on a byte boundary, whether every byte of the
  head item was shifted out, and whether the fields of a request fit its kind (R192). -/
  | spiSelectRise (mosi : List Byte) (onBoundary headOut fits : Bool)
  /-- OUTBOUND_SEND_START (R197). -/
  | outboundSendStart (a : Analysis)
  /-- OUTBOUND_SEND_COMPLETE (R189). -/
  | outboundSendComplete (a : Analysis)
  /-- FABRIC_LOCK_LOST (R188): how long lock has been lost, in microseconds. -/
  | fabricLockLost (a : Analysis) (forUs : Nat)
  /-- FABRIC_LOCK_RETURN (R188). -/
  | fabricLockReturn (a : Analysis)
  /-- UNKNOWN_REQUEST_KIND (R192). -/
  | unknownRequestKind (m : Master)
  /-- READ_CAMERA (R21). -/
  | readCamera (m : Master) (port : Nat)
  /-- SET_RATE_LIMIT (R22): the rate's code. -/
  | setRateLimit (m : Master) (port rate : Nat)
  /-- RETRAIN (R23). -/
  | retrain (m : Master) (port : Nat)
  /-- PORT_POWER_ON (R28). -/
  | portPowerOn (m : Master) (ports : List Nat)
  /-- PORT_POWER_OFF (R30). -/
  | portPowerOff (m : Master) (ports : List Nat)
  /-- READ_POWER (R46). -/
  | readPower (m : Master) (port : Nat)
  /-- CLEAR_PORT_FAULT (R40). -/
  | clearPortFault (m : Master) (port : Nat)
  /-- SWEEP (R50). -/
  | sweep (m : Master) (port : Nat) (averaging : Option Nat)
  /-- READ_BREAK_LOG (R70). -/
  | readBreakLog (m : Master) (port : Nat)
  /-- SUBSCRIBE (R102). -/
  | subscribe (m : Master) (port : Nat)
  /-- UNSUBSCRIBE (R102). -/
  | unsubscribe (m : Master) (port : Nat)
  /-- SET_FRAME_POLICY (R107): policy KEEP_NEWEST 0, KEEP_OLDEST 1. -/
  | setFramePolicy (m : Master) (holdLimit policy : Option Nat)
  /-- FETCH (R113). -/
  | fetch (m : Master) (frame first count : Nat)
  /-- RELEASE (R118). -/
  | release (m : Master) (frame : Nat)
  /-- LIST_FRAMES (R119). -/
  | listFrames (m : Master) (named : Option Master) (skip : Option Nat)
  /-- READ_STORE (R120). -/
  | readStore (m : Master)
  /-- TAKE_LENS (R126). -/
  | takeLens (m : Master) (port : Nat)
  /-- GIVE_LENS (R127). -/
  | giveLens (m : Master) (port : Nat)
  /-- BREAK_HOLD (R128). -/
  | breakHold (m : Master) (port : Nat)
  /-- MOVE_LENS (R130). -/
  | moveLens (m : Master) (port : Nat) (targets : PerAxis (Option Int)) (settle : Option Nat)
  /-- STOP_LENS (R132). -/
  | stopLens (m : Master) (port : Nat)
  /-- RECALL_PRESET (R136). -/
  | recallPreset (m : Master) (port preset : Nat)
  /-- READ_LENS (R137). -/
  | readLens (m : Master) (port : Nat)
  /-- WRITE_PRESET (R144): the preset record of 11.2, byte by byte. -/
  | writePreset (m : Master) (record : List Byte)
  /-- ERASE_PRESET (R144). -/
  | erasePreset (m : Master) (preset : Nat)
  /-- WRITE_PROFILE (R144). -/
  | writeProfile (m : Master) (port : Nat) (fields : RawProfile)
  /-- WRITE_CELL (R144). -/
  | writeCell (m : Master) (fields : RawCell)
  /-- LOCK_PRESET (R149): action SET 0, CLEAR 1. -/
  | lockPreset (m : Master) (preset action : Nat)
  /-- LOCK_DOWN (R150). -/
  | lockDown (m : Master)
  /-- CLEAR_STORE_ERROR (R148). -/
  | clearStoreError (m : Master)
  /-- READ_PRESET (R152). -/
  | readPreset (m : Master) (preset : Nat)
  /-- READ_PROFILE (R152). -/
  | readProfile (m : Master) (port : Nat)
  /-- READ_CELL (R152). -/
  | readCell (m : Master)
  /-- READ_STORE_STATUS (R152). -/
  | readStoreStatus (m : Master)
  /-- LOAD_SEQUENCE (R156): port, step count, two reserved bytes and the steps of 11.2, byte by byte. -/
  | loadSequence (m : Master) (body : List Byte)
  /-- START_SEQUENCE (R158): the cadence period, ms. -/
  | startSequence (m : Master) (port period : Nat)
  /-- RESUME_SEQUENCE (R161). -/
  | resumeSequence (m : Master) (port : Nat)
  /-- HALT_SEQUENCE (R171). -/
  | haltSequence (m : Master) (port : Nat)
  /-- READ_SEQUENCE (R178). -/
  | readSequence (m : Master) (port : Nat)
  /-- FIRE (R184): the exposure, µs. -/
  | fire (m : Master) (port : Nat) (exposure : Option Nat)
  /-- SET_TRIGGER_LINE (R185). -/
  | setTriggerLine (m : Master) (line : Nat) (settings : RawLine)
  /-- READ_TRIGGERS (R186). -/
  | readTriggers (m : Master)
  /-- SET_NOTICE_MASK (R198): the numbers of the notice kinds enabled, every other kind disabled; the watermark. -/
  | setNoticeMask (m : Master) (enabled : Option (List Nat)) (watermark : Option Nat)
  /-- DETACH (R200). -/
  | detach (m : Master)
  /-- READ_PART (R201). -/
  | readPart (m : Master)
  deriving DecidableEq, Repr

end Sys2Proof
end

