-- ==== Sys2Proof/Decode.lean ====
section
/-! DEFINITION. The commands that words spell. The table gives none of its rows any bits: its commands are events of the
hub's blocks and requests whose record layout the manual gives as bytes (Machine/Layouts.lean), so no word spells one. -/

namespace Sys2Proof

/-- No row of spec/opcode_table.json has bits, so no word spells a command. -/
def decodeTableWord (_nbits _w : Nat) : Option Instr := none

end Sys2Proof
end

