-- ==== Sys2Proof/Config.lean ====
section
/-! DEFINITION. What the hub's design fixes (capacities, windows, limits), each with the rule that states it, and the one
value the manual leaves open, which has no body here and of which nothing can be proved. -/

namespace Sys2Proof.Config

/-- Bytes of a page (R98). -/
def pageBytes : Nat := 65536
/-- Pages of the frame store (R98). -/
def pageCount : Nat := 4096
/-- Frame records of the frame table (R99). -/
def recordCount : Nat := 512
/-- The frame limit of 1024 pages, 64 MiB (R81, R156). -/
def frameBytes : Nat := 67108864
/-- Down-channel packets that may wait on a port (R3). -/
def downWaiting : Nat := 16
/-- Requests a master's request queue holds (R187). -/
def requestEntries : Nat := 8
/-- Notices a master's notice queue holds (R187). -/
def noticeEntries : Nat := 32
/-- Fetches an analysis master's fetch queue holds (R114). -/
def fetchEntries : Nat := 4
/-- Records of a break log (R65). -/
def breakLogEntries : Nat := 4
/-- Samples of an echo trace (R56). -/
def traceSamples : Nat := 1024
/-- The device constant of the distance computation, in micrometres for each sixteenth of a sample (R61). -/
def deviceConstant : Nat := 4684
/-- The hard current limit, mA (2.5, R34, R35). -/
def hardLimit : Nat := 2500
/-- The undercurrent level, mA (2.5, R35). -/
def underLevel : Nat := 15
/-- Samples of an overload run that trip the port (R35). -/
def overloadSamples : Nat := 20
/-- Samples of an undercurrent run (R35, R39). -/
def underSamples : Nat := 500
/-- The tolerance within which an axis settles, in counts (R133). -/
def settleTolerance : Nat := 8
/-- The longest record on the SPI port (R190, R205). -/
def spiRecordBytes : Nat := 256
/-- Line buffers of a port's intake (R87). -/
def lineBuffers : Nat := 2

/-- FREE VALUE. The number of bytes that the returned fields of a reply of this request kind take, apart from the entries of
its list. The manual gives the byte layout of the listed records (11.2) and not that of the other returned fields; the one
figure it states, 12 for LIST_FRAMES (R205's example), is used where it is stated and this is not consulted. -/
opaque fixedReplyBytes : Nat → Nat

end Sys2Proof.Config
end

