-- ==== Sys2Proof/Machine/State.lean ====
section
/-! DEFINITION. Everything the manual says the hub holds, as plain data, block by block, each with its value after reset, and
the machine's state with `State.reset`. Each structure cites the rule whose table it follows. Values named in capitals in the
manual are constructors here, in the manual's order. -/

namespace Sys2Proof.Machine

/-! ## Reasons a command stops -/

/-- No command of this hub ends in a fault: the manual gives every event and every request an effect or a result code, and
the hub has no address that a command could name and that does not exist. -/
inductive Fault
  deriving DecidableEq, Repr

/-- Why a command has no meaning. -/
inductive Refusal
  /-- Raised by `exec` alone, for a row of the table whose meaning is not written yet; safe, since nothing follows from it.
  No row is left so. -/
  | notModelled (mnemonic : String)
  deriving DecidableEq, Repr

/-! ## Result codes (R193) -/

/-- The result codes, in the order of the table of R193 (DONE is 0, R202). -/
inductive Result
  | done | accepted | badRequest | notPermitted | noSuch | badRange | overBudget | overCommitted | supplyLow
  | portLockedOut | portTesting | portTripped | portPowered | cameraUnavailable | cameraBusy | lensHeld | notHolder
  | storeBusy | storeFault | presetLocked | lockedDown | sequenceInvalid | sequenceActive | notRunning | notHeld | noSpace
  | notReader | fetchQueueFull
  deriving DecidableEq, Repr

/-! ## Camera links (chapter 1) -/

/-- Link states, in the order of R4. -/
inductive LinkState | down | awaitHello | training | up | retraining | lost | testing
  deriving DecidableEq, Repr

/-- Why the link last entered LOST or DOWN (R4). -/
inductive LinkCause | helloTimeout | trainFailed | lockLost | classOverAllotment | powerOff | sweepEnd
  deriving DecidableEq, Repr

/-- The identity record: the fields of the last accepted HELLO; an axis has a speed exactly when it is present (R4, R6). -/
structure Identity where
  model : List Byte
  serial : List Byte
  maxRate : Rate
  powerClass : Nat
  speeds : PerAxis (Option Nat)
  deriving DecidableEq, Repr

/-- The attempt record (R9). `heard` is the model's own mark that a packet has been received in this attempt, which R17's
watch starts from. -/
structure Attempt where
  start : Time
  deadline : Time
  cleanStart : Option Time
  heard : Bool
  deriving DecidableEq, Repr

/-- The error window in progress (R14). -/
structure Window where
  start : Time
  count : Nat
  deriving DecidableEq, Repr

/-- The link part of a port record (R4). -/
structure LinkRec where
  state : LinkState
  listen : Rate
  current : Option Rate
  identity : Option Identity
  lastSerial : Option (List Byte)
  helloDeadline : Option Time
  attempt : Option Attempt
  lastPacket : Option Time
  window : Option Window
  degraded : Bool
  changed : Bool
  lastCause : Option LinkCause
  deriving DecidableEq, Repr

/-- The last column of R4. -/
def LinkRec.reset : LinkRec :=
  { state := .down, listen := .r1250, current := none, identity := none, lastSerial := none, helloDeadline := none,
    attempt := none, lastPacket := none, window := none, degraded := false, changed := false, lastCause := none }

/-- The five port counters (R20). -/
structure Counters where
  checkFailed : Nat
  stray : Nat
  triggersNotSent : Nat
  earlyEdges : Nat
  framesRefused : Nat
  deriving DecidableEq, Repr

/-- R20: both resets set all five to 0. -/
def Counters.reset : Counters := ⟨0, 0, 0, 0, 0⟩

/-- Down-channel packets (1.1). -/
inductive DownPacket
  | idle
  | welcome (r : Rate)
  | rateSet (r : Rate)
  | trigger (exposure : Option Nat)
  | lensGoto (targets : PerAxis (Option Nat))
  | lensStop
  deriving DecidableEq, Repr

/-! ## Port power (chapter 2) -/

/-- Power states, in the order of R24. -/
inductive PowerState | off | queued | inrush | on | tripped
  deriving DecidableEq, Repr

/-- Causes of an entry into TRIPPED (R24). -/
inductive TripCause | inrushOver | overload | short
  deriving DecidableEq, Repr

/-- Causes of an entry into OFF (R24). -/
inductive OffCause | request | classOverAllotment | linkLost | undercurrent | supply | cleared
  deriving DecidableEq, Repr

/-- The power part of a port record (R24). `inrush` is the inrush start and the inrush end. -/
structure PowerRec where
  state : PowerState
  allotment : Option Nat
  inrush : Option (Time × Time)
  sample : Option Nat
  peak : Option Nat
  overloadRun : Nat
  underRun : Nat
  openSuspect : Bool
  lastTrip : Option TripCause
  lastOff : Option OffCause
  deenergized : Time
  deriving DecidableEq, Repr

/-- The last column of R24. -/
def PowerRec.reset : PowerRec :=
  { state := .off, allotment := none, inrush := none, sample := none, peak := none, overloadRun := 0, underRun := 0,
    openSuspect := false, lastTrip := none, lastOff := none, deenergized := 0 }

/-- The supply state (R25, R41). -/
inductive SupplyState | normal | low
  deriving DecidableEq, Repr

/-- The origins of an automatic admission (R29). -/
inductive AdmitOrigin | start | restore | sweepRestore
  deriving DecidableEq, Repr

/-- The power manager (R25); `budget` and `stagger` are the live values. The restore set is kept in port number order. -/
structure PowerMgr where
  budget : Nat
  stagger : Nat
  committed : Nat
  startQueue : List Port
  lastInrushEnd : Option Time
  supply : SupplyState
  restoreSet : List Port
  startUpPending : Bool
  deriving DecidableEq, Repr

/-- R25, with the budget and the stagger gap that the cell record gives at the load. -/
def PowerMgr.afterReset (budget stagger : Nat) : PowerMgr :=
  { budget := budget, stagger := stagger, committed := 0, startQueue := [], lastInrushEnd := none, supply := .low,
    restoreSet := [], startUpPending := true }

/-! ## Break finding (chapter 3) -/

/-- The break finder's marks on a port (R47). -/
structure Marks where
  sweepPending : Bool
  testing : Bool
  lockout : Bool
  deriving DecidableEq, Repr

/-- Why a sweep was queued (R49, R64). -/
inductive SweepCause | request | linkLost | undercurrent | shortTrip
  deriving DecidableEq, Repr

/-- The kinds of a sweep's result (R64). -/
inductive BreakKind | short | open | cameraShort | cameraEnd | openUnplaced | clear
  deriving DecidableEq, Repr

/-- The parameters of a sweep, fixed when the engine enters ACQUIRING (R53): N, S, V, O, P and B. -/
structure SweepParams where
  averaging : Nat
  installed : Nat
  velocity : Nat
  offset : Nat
  threshold : Nat
  blind : Nat
  deriving DecidableEq, Repr

/-- An entry of the sweep queue (R49). -/
structure SweepEntry where
  port : Port
  cause : SweepCause
  requester : Option Master
  averaging : Option Nat
  deriving DecidableEq, Repr

/-- A break record (R64). -/
structure BreakRecord where
  endTime : Time
  cause : SweepCause
  kind : BreakKind
  distance : Nat
  crossing : Option Nat
  position : Option Nat
  launch : Int
  threshold : Option Nat
  peak : Option Nat
  averaging : Nat
  velocity : Nat
  offset : Nat
  installed : Nat
  lengthDiffers : Bool
  deriving DecidableEq, Repr

/-- Engine states (R48). -/
inductive EngineState | idle | dischargeWait | acquiring
  deriving DecidableEq, Repr

/-- The break finder's shared engine (R48); the fixed parameters of the current entry stand beside it (R53). -/
structure BreakEngine where
  queue : List SweepEntry
  state : EngineState
  current : Option SweepEntry
  params : Option SweepParams
  dischargeEnd : Option Time
  acquisitionEnd : Option Time
  buffer : List Int
  repetitions : Nat
  deriving DecidableEq, Repr

/-- R48, both resets. -/
def BreakEngine.reset : BreakEngine :=
  { queue := [], state := .idle, current := none, params := none, dischargeEnd := none, acquisitionEnd := none,
    buffer := List.replicate Config.traceSamples 0, repetitions := 0 }

/-! ## Frame intake and frame store (chapters 4 and 5) -/

/-- Intake states (R73). -/
inductive IntakeState | idle | filling | discarding
  deriving DecidableEq, Repr

/-- Why the intake is DISCARDING (R73). -/
inductive DiscardCause | refused | noReaders | discardStep | widthMismatch
  deriving DecidableEq, Repr

/-- The counts kept while a bound frame is discarded (R73, R83). -/
structure DiscardCounts where
  received : Nat
  missing : Nat
  damaged : Nat
  deriving DecidableEq, Repr

/-- Why an unsequenced frame was exposed (R74). -/
inductive PendingOrigin | triggerLine (n : LineNo) | softFire (m : Master)
  deriving DecidableEq, Repr

/-- A line in a line buffer, with its frame and index (R87). -/
structure BufferedLine where
  frame : Nat
  index : Nat
  bytes : List Byte
  deriving DecidableEq, Repr

/-- The step a frame is bound to (R73, R76): its index, and its LENIENT flag, which the frame keeps (R96). -/
structure BoundStep where
  index : Nat
  lenient : Bool
  deriving DecidableEq, Repr

/-- The intake record (R73). `buffers` holds the lines not yet written, oldest first, at most two. -/
structure IntakeRec where
  state : IntakeState
  openFrame : Option Nat
  bound : Option BoundStep
  width : Option Nat
  declaredWidth : Option Nat
  lines : Option Nat
  capacity : Option Nat
  highest : Option Nat
  cutOff : Bool
  cause : Option DiscardCause
  counts : Option DiscardCounts
  lastActivity : Option Time
  pendingOrigin : Option PendingOrigin
  buffers : List BufferedLine
  deriving DecidableEq, Repr

/-- The last column of R73. -/
def IntakeRec.reset : IntakeRec :=
  { state := .idle, openFrame := none, bound := none, width := none, declaredWidth := none, lines := none,
    capacity := none, highest := none, cutOff := false, cause := none, counts := none, lastActivity := none,
    pendingOrigin := none, buffers := [] }

/-- The origin of a frame (R99). -/
inductive Origin
  | sequence (m : Master) (step : Nat) | triggerLine (n : LineNo) | softFire (m : Master) | freeRun
  deriving DecidableEq, Repr

/-- The tag set of a frame (table of 4.3; bits of 11.2). -/
structure Tags where
  isPartial : Bool
  missingClose : Bool
  shapeFitted : Bool
  gaps : Bool
  truncated : Bool
  damaged : Bool
  overrun : Bool
  cutOff : Bool
  padded : Bool
  lensMoving : Bool
  deriving DecidableEq, Repr

/-- A subset of {A, B}, or one thing for each analysis master. -/
structure PerAnalysis (α : Type) where
  a : α
  b : α
  deriving DecidableEq, Repr

/-- FILLING or READY (R99). -/
inductive FrameState | filling | ready
  deriving DecidableEq, Repr

/-- A frame record in use (R99), with the pages of the frame's step reservation (R80, R108; 0 for an unsequenced frame). -/
structure FrameRec where
  id : Nat
  port : Port
  origin : Origin
  state : FrameState
  openTime : Time
  closeTime : Option Time
  width : Nat
  lines : Nat
  stored : Nat
  cameraNo : Nat
  cameraLines : Nat
  missing : Nat
  damaged : Nat
  firstDamaged : Option Nat
  tags : Tags
  snapshot : PerAxis (Option Nat)
  pages : List Nat
  readers : PerAnalysis Bool
  pins : PerAnalysis Nat
  readyTime : Option Time
  handover : Option Nat
  stepReserved : Nat
  deriving DecidableEq, Repr

/-- What an analysis master does with a frame at a full list (R103). -/
inductive Policy | keepNewest | keepOldest
  deriving DecidableEq, Repr

/-- A fetch (R114). -/
structure Fetch where
  tag : Nat
  frame : Nat
  first : Nat
  count : Nat
  next : Nat
  sent : Nat
  deriving DecidableEq, Repr

/-- What the store keeps for one analysis master (R103). -/
structure ReaderRec where
  ready : List Nat
  holdLimit : Nat
  policy : Policy
  fetches : List Fetch
  deriving DecidableEq, Repr

/-- R103: after POR, warm reset or teardown of the master. -/
def ReaderRec.reset : ReaderRec := { ready := [], holdLimit := 64, policy := .keepNewest, fetches := [] }

/-- The stacked DRAM: the bytes that differ from what an unlisted address reads as, addresses strictly rising. Address
`page * 65536 + offset`. -/
abbrev Memory := List Host.Cell

/-- The frame store manager (R98 to R103, R108) and its arbiter's memory of whom it served last (R88, R116). `frames` holds
the records in use; the other records of the 512 are free. -/
structure Store where
  freeList : List Nat
  frames : List FrameRec
  nextId : Nat
  handovers : Nat
  reservedPages : Nat
  reservedRecords : Nat
  readers : PerAnalysis ReaderRec
  lastFetch : Analysis
  lastPort : Port
  dram : Memory
  deriving DecidableEq, Repr

/-- R98: all pages free, in page number order. -/
def fullFreeList : List Nat := List.range Config.pageCount

/-- R122 and R88, over the DRAM contents, which no reset clears. -/
def Store.afterReset (dram : Memory) : Store :=
  { freeList := fullFreeList, frames := [], nextId := 1, handovers := 0, reservedPages := 0, reservedRecords := 0,
    readers := ⟨ReaderRec.reset, ReaderRec.reset⟩, lastFetch := .B, lastPort := 7, dram := dram }

/-! ## Lens control (chapter 6) -/

/-- What an axis is doing (R123). -/
inductive Motion | idle | moving | stalled
  deriving DecidableEq, Repr

/-- An axis entry of a lens record (R123); a position of `none` is UNKNOWN. -/
structure AxisRec where
  speed : Nat
  position : Option Nat
  target : Option Nat
  motion : Motion
  deadline : Option Time
  deriving DecidableEq, Repr

/-- The lens record of a port (R123); an axis outside the axis set has no entry. -/
structure LensRec where
  axes : PerAxis (Option AxisRec)
  holder : Option Master
  implicit : Bool
  mover : Option Master
  deriving DecidableEq, Repr

/-- R123, both resets. -/
def LensRec.reset : LensRec := { axes := ⟨none, none, none⟩, holder := none, implicit := false, mover := none }

/-! ## Preset store (chapter 7) -/

/-- A preset (R139); a port of `none` is ANY. -/
structure Preset where
  port : Option Port
  name : List Byte
  targets : PerAxis (Option Nat)
  settle : Nat
  locked : Bool
  deriving DecidableEq, Repr

/-- A port profile (R140). -/
structure Profile where
  installedLength : Nat
  velocity : Nat
  offset : Nat
  allotment : Nat
  inrushWindow : Nat
  helloTimeout : Nat
  rateLimit : Rate
  degradeThreshold : Nat
  sweepThreshold : Nat
  blindCount : Nat
  averaging : Nat
  powerAtStart : Bool
  autoSweep : Bool
  autoRestore : Bool
  deriving DecidableEq, Repr

/-- The defaults of R140. -/
def Profile.default : Profile :=
  { installedLength := 0, velocity := 660, offset := 0, allotment := 500, inrushWindow := 50, helloTimeout := 2000,
    rateLimit := .r5000, degradeThreshold := 32, sweepThreshold := 200, blindCount := 16, averaging := 16,
    powerAtStart := false, autoSweep := true, autoRestore := true }

/-- The polarity of a trigger line (R141). -/
inductive Polarity | rising | falling
  deriving DecidableEq, Repr

/-- The settings of a trigger line (R141); bit n of the route mask is camera port n. -/
structure LineSettings where
  enable : Bool
  polarity : Polarity
  debounce : Nat
  holdOff : Nat
  route : BitVec 8
  deriving DecidableEq, Repr

/-- The defaults of R141 for a line. -/
def LineSettings.default : LineSettings :=
  { enable := false, polarity := .rising, debounce := 5, holdOff := 0, route := 0 }

/-- The cell record's content (R141). -/
structure Cell where
  budget : Nat
  stagger : Nat
  lines : Vector LineSettings 4
  deriving DecidableEq, Repr

/-- The defaults of R141. -/
def Cell.default : Cell := { budget := 4000, stagger := 10, lines := Vector.replicate 4 LineSettings.default }

/-- A record of the store: its validity mark and its stored content (R142). -/
structure Record (α : Type) where
  valid : Bool
  content : α
  deriving DecidableEq, Repr

/-- The names of the store's records. -/
inductive RecordName | preset (n : Fin 64) | profile (p : Port) | cell
  deriving DecidableEq, Repr

/-- The five write requests (R144). -/
inductive WriteKind | writePreset | erasePreset | writeProfile | writeCell | lockPreset
  deriving DecidableEq, Repr

/-- The content being written; a preset content of `none` is EMPTY. -/
inductive NewContent | preset (c : Option Preset) | profile (c : Profile) | cell (c : Cell)
  deriving DecidableEq, Repr

/-- The write in progress (R143). -/
structure Write where
  record : RecordName
  kind : WriteKind
  writer : Master
  content : NewContent
  start : Time
  deriving DecidableEq, Repr

/-- The preset store (R139 to R143). The write engine is WRITING exactly while `write` is present. -/
structure PresetStore where
  presets : Vector (Record (Option Preset)) 64
  profiles : Vector (Record Profile) 8
  cell : Record Cell
  write : Option Write
  fault : Bool
  lockDown : Bool
  loadReport : List RecordName
  deriving DecidableEq, Repr

/-- A new part (R142): every mark valid, every preset EMPTY, profiles and cell record at their defaults. -/
def PresetStore.newPart : PresetStore :=
  { presets := Vector.replicate 64 ⟨true, none⟩, profiles := Vector.replicate 8 ⟨true, Profile.default⟩,
    cell := ⟨true, Cell.default⟩, write := none, fault := false, lockDown := false, loadReport := [] }

/-! ## Capture sequences (chapter 8) -/

/-- A step's kind with its parameters (R155, 11.2). -/
inductive StepKind
  | lens (preset : Option Nat) (targets : PerAxis (Option Nat)) (settle : Option Nat)
  | settle (timeout : Nat)
  | await (line timeout : Nat)
  | trigger (exposure : Option Nat) (lines width : Nat) (closeTimeout : Option Nat)
  | dwell (time : Nat)
  deriving DecidableEq, Repr

/-- A step with its flags (R155). -/
structure Step where
  kind : StepKind
  chain : Bool
  hold : Bool
  note : Bool
  lenient : Bool
  discard : Bool
  deriving DecidableEq, Repr

/-- Context states (R154). -/
inductive SeqState | empty | ready | running | held
  deriving DecidableEq, Repr

/-- Step phases (R160). -/
inductive Phase | before | storeWait | settling | awaiting | intakeWait | openWait | frameWait | dwelling
  deriving DecidableEq, Repr

/-- The end statuses of a run (R172). -/
inductive EndStatus
  | normal | halted | lengthMismatch | lensStalled | awaitTimeout | frameTimeout | cameraLost | holdLapsed | presetMissing
  deriving DecidableEq, Repr

/-- The frame bound to the current TRIGGER step (R154). -/
inductive BoundFrame | frame (id : Nat) | discarded
  deriving DecidableEq, Repr

/-- A sequence context (R154). -/
structure SeqCtx where
  state : SeqState
  owner : Option Master
  steps : Option (List Step)
  pageCount : Nat
  recordCount : Nat
  starter : Option Master
  index : Option Nat
  phase : Option Phase
  deadline : Option Time
  bound : Option BoundFrame
  reservedPages : Nat
  reservedRecords : Nat
  tookHold : Bool
  ended : Option (EndStatus × Nat)
  lastEdge : Option Time
  period : Nat
  cadence : Option Time
  runs : Nat
  overruns : Nat
  skips : Nat
  deriving DecidableEq, Repr

/-- The last column of R154. -/
def SeqCtx.reset : SeqCtx :=
  { state := .empty, owner := none, steps := none, pageCount := 0, recordCount := 0, starter := none, index := none,
    phase := none, deadline := none, bound := none, reservedPages := 0, reservedRecords := 0, tookHold := false,
    ended := none, lastEdge := none, period := 0, cadence := none, runs := 0, overruns := 0, skips := 0 }

/-! ## Trigger lines (chapter 9) -/

/-- The record of one trigger line (R180). -/
structure LineRec where
  settings : LineSettings
  sampled : Level
  accepted : Option Level
  runLevel : Option Level
  runCount : Nat
  lastEdge : Option Time
  acceptedCount : Nat
  ignoredCount : Nat
  deriving DecidableEq, Repr

/-- The last column of R180, with the settings the cell record gives at the load. The sampled level's entry there is the first
sample after the reset; DESIGN CHOICE (log entry 47): until that sample is taken it is LOW. -/
def LineRec.afterReset (settings : LineSettings) : LineRec :=
  { settings := settings, sampled := .low, accepted := none, runLevel := none, runCount := 0, lastEdge := none,
    acceptedCount := 0, ignoredCount := 0 }

/-! ## The port record -/

/-- Everything the hub keeps once for each camera port. `lastSent` is the packet the down-channel sent last, the model's view
of the channel. -/
structure PortRec where
  link : LinkRec
  counters : Counters
  waiting : List DownPacket
  lastSent : Option DownPacket
  power : PowerRec
  marks : Marks
  breakLog : List BreakRecord
  profile : Profile
  intake : IntakeRec
  subscribers : PerAnalysis Bool
  lens : LensRec
  seq : SeqCtx
  deriving DecidableEq, Repr

/-- The port record after a reset, with the live profile of the load and what the reset keeps: LOCKOUT and the break log
(R4, R24, R47, R65, R73, R122, R123, R154). DESIGN CHOICE (log entry 9): the packets waiting in the down-channel, to which neither
R3 nor R4's table gives a reset value, are gone. -/
def PortRec.afterReset (profile : Profile) (lockout : Bool) (log : List BreakRecord) : PortRec :=
  { link := LinkRec.reset, counters := Counters.reset, waiting := [], lastSent := none, power := PowerRec.reset,
    marks := ⟨false, false, lockout⟩, breakLog := log, profile := profile, intake := IntakeRec.reset,
    subscribers := ⟨false, false⟩, lens := LensRec.reset, seq := SeqCtx.reset }

/-! ## Master ports and messages (chapter 10) -/

/-- Notice kinds, in the order of the notice table (FRAME_READY is 1, HOLD_LAPSED 10, R202). -/
inductive NoticeKind
  | frameReady | frameDropped | frameSummary | powerEvent | linkEvent | sweepDone | lensEvent | sequenceEvent | storeDone
  | holdLapsed
  deriving DecidableEq, Repr

/-- Why a frame was dropped (R106). -/
inductive DropReason | holdLimit | reclaimed
  deriving DecidableEq, Repr

/-- The cause of a POWER_EVENT (R45). -/
inductive PowerCause | off (c : OffCause) | trip (c : TripCause) | undercurrent | supply
  deriving DecidableEq, Repr

/-- The cause of a LENS_EVENT (R135). -/
inductive LensCause | settled | stalled (axis : Axis)
  deriving DecidableEq, Repr

/-- The cause of a HOLD_LAPSED notice (R128 names this one). -/
inductive HoldCause | breakHold
  deriving DecidableEq, Repr

/-- A frame list entry, which LIST_FRAMES and FRAME_READY carry (R119, R106, 11.2): what a master sees of a READY frame, and the
pin count of the master concerned. -/
structure ListEntry where
  id : Nat
  port : Port
  origin : Origin
  cameraNo : Nat
  cameraLines : Nat
  openTime : Time
  readyTime : Time
  width : Nat
  lines : Nat
  stored : Nat
  missing : Nat
  damaged : Nat
  firstDamaged : Option Nat
  tags : Tags
  snapshot : PerAxis (Option Nat)
  readers : PerAnalysis Bool
  pins : Nat
  deriving DecidableEq, Repr

/-- What a LENS_EVENT carries of an axis (R135). -/
structure AxisStanding where
  position : Option Nat
  target : Option Nat
  motion : Motion
  deriving DecidableEq, Repr

/-- What a POWER_EVENT carries (R45). -/
structure PowerEvent where
  port : Option Port
  change : Option (PowerState × PowerState)
  cause : Option PowerCause
  sample : Option Nat
  refusal : Option (AdmitOrigin × Result)
  sweepQueued : Option Bool
  openSuspect : Option Bool
  restoreSet : Option (List Port)
  notRestored : Option (List Port)
  committed : Nat
  deriving DecidableEq, Repr

/-- What a LINK_EVENT carries (R13). -/
structure LinkEvent where
  port : Port
  previous : LinkState
  new : LinkState
  rate : Option Rate
  cause : Option LinkCause
  degraded : Bool
  changed : Bool
  windowCount : Option Nat
  deriving DecidableEq, Repr

/-- The further fields of a SEQUENCE_EVENT with cause ENDED (R177). -/
structure EndFacts where
  status : EndStatus
  holdFreed : Bool
  frame : Option Nat
  lengths : Option (Nat × Nat)
  axis : Option Axis
  preset : Option Nat
  deriving DecidableEq, Repr

/-- The causes of a SEQUENCE_EVENT with their further fields (R177). -/
inductive SeqCause
  | held | note | ended (f : EndFacts) | overrun (count : Nat) | skipped (why : Result) (count : Nat)
  deriving DecidableEq, Repr

/-- The fields of a notice (R106, R94, R45, R13, R67, R135, R177, R147, R128). -/
inductive NoticeBody
  | frameReady (entry : ListEntry) (listLength : Nat)
  | frameDropped (id : Nat) (port : Port) (why : DropReason) (hadReady : Bool)
  | frameSummary (port : Port) (counts : DiscardCounts)
  | powerEvent (e : PowerEvent)
  | linkEvent (e : LinkEvent)
  | sweepDone (port : Port) (requester : Option Master) (record : BreakRecord) (lockout restores : Bool)
  | lensEvent (port : Port) (cause : LensCause) (axes : PerAxis (Option AxisStanding)) (holder : Option Master) (implicit : Bool)
  | sequenceEvent (port : Port) (cause : SeqCause) (runs : Nat) (step : Option Nat)
  | storeDone (record : RecordName) (kind : WriteKind) (ok fault : Bool)
  | holdLapsed (port : Port) (cause : HoldCause) (sequenceEnded : Bool)
  deriving DecidableEq, Repr

/-- A notice: its class, its timestamp and its fields (10.5). -/
structure Notice where
  urgent : Bool
  stamp : Time
  body : NoticeBody
  deriving DecidableEq, Repr

/-- One enable for each notice kind (R187). -/
structure NoticeMask where
  frameReady : Bool
  frameDropped : Bool
  frameSummary : Bool
  powerEvent : Bool
  linkEvent : Bool
  sweepDone : Bool
  lensEvent : Bool
  sequenceEvent : Bool
  storeDone : Bool
  holdLapsed : Bool
  deriving DecidableEq, Repr

/-- Every kind enabled. -/
def NoticeMask.all : NoticeMask := ⟨true, true, true, true, true, true, true, true, true, true⟩

/-- The returned fields of READ_CAMERA (R21). -/
structure CameraReport where
  state : LinkState
  current : Option Rate
  rateLimit : Rate
  identity : Option Identity
  degraded : Bool
  changed : Bool
  lastCause : Option LinkCause
  windowCount : Option Nat
  counters : Counters
  deriving DecidableEq, Repr

/-- The returned fields of READ_POWER (R46). -/
structure PowerReport where
  state : PowerState
  position : Option Nat
  sample : Option Nat
  peak : Option Nat
  committed : Option Nat
  liveAllotment : Nat
  marks : Marks
  openSuspect : Bool
  lastTrip : Option TripCause
  lastOff : Option OffCause
  deenergized : Time
  supply : SupplyState
  budget : Nat
  committedSum : Nat
  startQueue : List Port
  deriving DecidableEq, Repr

/-- The returned fields of READ_BREAK_LOG (R70), the records newest first. -/
structure BreakLogReport where
  records : List BreakRecord
  marks : Marks
  position : Option Nat
  engine : EngineState
  current : Option Port
  acquisitionEnd : Option Time
  deriving DecidableEq, Repr

/-- The figures of one analysis master's list (R119, R120). -/
structure ListFigures where
  length : Nat
  holdLimit : Nat
  policy : Policy
  fetches : Nat
  deriving DecidableEq, Repr

/-- The returned fields of READ_STORE (R120). -/
structure StoreReport where
  freePages : Nat
  reservedPages : Nat
  freeRecords : Nat
  reservedRecords : Nat
  filling : Nat
  ready : Nat
  subscribers : List (PerAnalysis Bool)
  lists : PerAnalysis ListFigures
  deriving DecidableEq, Repr

/-- The returned fields of READ_LENS (R137). -/
structure LensReport where
  link : LinkState
  lens : LensRec
  seq : SeqState
  deriving DecidableEq, Repr

/-- The returned fields of READ_STORE_STATUS (R152). -/
structure StoreStatusReport where
  write : Option (RecordName × WriteKind × Master × Time)
  fault : Bool
  lockDown : Bool
  loadReport : List RecordName
  held : List (Fin 64)
  locked : List (Fin 64)
  deriving DecidableEq, Repr

/-- The reasons of SEQUENCE_INVALID (R156). -/
inductive LoadReason | count | chain | flag | range | size | lensSource
  deriving DecidableEq, Repr

/-- The reset that last occurred (R201). -/
inductive ResetKind | por | warm
  deriving DecidableEq, Repr

/-- The returned fields of READ_PART (R201); for each master port its attachment and its two error counts. -/
structure PartReport where
  name : String
  revision : Nat
  cameraPorts : Nat
  masterPorts : Nat
  triggerLines : Nat
  lastReset : ResetKind
  now : Time
  ports : List (Bool × Nat × Nat)
  deriving DecidableEq, Repr

/-- The returned fields of a reply, by request kind. -/
inductive ReplyBody
  | empty
  | camera (r : CameraReport)
  | entryResults (l : List Result)
  | power (r : PowerReport)
  | breakLog (r : BreakLogReport)
  | policy (holdLimit : Nat) (policy : Policy) (length : Nat)
  | lineCount (n : Nat)
  | frames (f : ListFigures) (entries : List ListEntry)
  | store (r : StoreReport)
  | hold (holder : Option Master) (implicit : Bool)
  | ignored (axes : List Axis)
  | lens (r : LensReport)
  | preset (n : Fin 64) (content : Option Preset)
  | profile (stored live : Profile)
  | cell (stored : Cell) (budget stagger : Nat) (lines : Vector LineSettings 4)
  | storeStatus (r : StoreStatusReport)
  | loaded (pages records : Nat)
  | invalid (step : Nat) (why : LoadReason)
  | started (runs pages records : Nat) (cadence : Option Time)
  | emptySequence (state : SeqState) (runs overruns skips : Nat)
  | sequence (ctx : SeqCtx) (steps : List Step) (holder : Option Master) (implicit : Bool)
  | line (settings : LineSettings)
  | triggers (lines : List LineRec) (ports : List (Nat × Nat))
  | mask (mask : NoticeMask) (watermark : Nat)
  | part (r : PartReport)
  deriving DecidableEq, Repr

/-- A reply record (R192, R205): the tag and the kind of its request, the result, the clamped fields (index in the request's
field order, value used), the returned fields, the part number and the last-part flag. -/
structure ReplyRecord where
  tag : Nat
  kind : Nat
  result : Result
  clamped : List (Nat × Nat)
  body : ReplyBody
  part : Nat
  lastPart : Bool
  deriving DecidableEq, Repr

/-- An entry of a request queue: the tag, the number of the kind, whether the record is malformed (R192, R203), whether it has
not been taken yet, and the bytes of its fields, which follow the header. -/
structure RequestEntry where
  tag : Nat
  kind : Nat
  malformed : Bool
  waiting : Bool
  fields : List Byte
  deriving DecidableEq, Repr

/-- A fetch message handed to an outbound link (R115, R117, R118). -/
inductive FetchMsg
  | data (tag frame line : Nat) (bytes : List Byte)
  | fetchEnd (tag frame : Nat) (complete : Bool) (sent : Nat)
  deriving DecidableEq, Repr

/-- A message on a fabric link (R197). A notice goes with the overrun mark it carries (R195); a reply frees the entry of its
request when it has been sent whole, unless a teardown has emptied the queue meanwhile. -/
inductive OutMsg
  | credit
  | reply (r : ReplyRecord) (frees : Bool)
  | notice (n : Notice) (overrun : Bool)
  | fetch (f : FetchMsg)
  deriving DecidableEq, Repr

/-- The message a fabric link is sending, with the credit figure it carries (R189). -/
structure Sending where
  msg : OutMsg
  credit : Nat
  deriving DecidableEq, Repr

/-- The head item of an SPI transaction (R191). -/
inductive HeadItem
  | empty
  | reply (r : ReplyRecord)
  | notice (n : Notice) (overrun : Bool)
  deriving DecidableEq, Repr

/-- An SPI transaction in progress (R191): whether the request queue was full at the fall of select, the status byte, the
head item, whether the head item still stands in its queue (teardown and displacement take it away, R199, R195), and whether
a notice overflow has occurred since the fall (R195). -/
structure SpiTxn where
  queueFull : Bool
  status : Byte
  head : HeadItem
  headQueued : Bool
  overflowed : Bool
  deriving DecidableEq, Repr

/-- A master's record (R187). `advertised` and `creditDue` (the credit figure last sent, and a credit message to send, R189),
`fetchOut` (fetch messages handed to the outbound link and not begun) and `sending` serve A and B; `spi` serves C. -/
structure MasterRec where
  attached : Bool
  requests : List RequestEntry
  replies : List ReplyRecord
  notices : List Notice
  overrun : Bool
  mask : NoticeMask
  watermark : Nat
  attention : Bool
  protocolErrors : Nat
  framingErrors : Nat
  fetchOut : List FetchMsg
  sending : Option Sending
  advertised : Nat
  creditDue : Bool
  spi : Option SpiTxn
  deriving DecidableEq, Repr

/-- The last column of R187, with the attachment it gives A and B (DETACHED) and C (ATTACHED). The credit figure of a queue
without entries is 8 (R189). -/
def MasterRec.afterReset (attached : Bool) : MasterRec :=
  { attached := attached, requests := [], replies := [], notices := [], overrun := false, mask := NoticeMask.all,
    watermark := 1, attention := false, protocolErrors := 0, framingErrors := 0, fetchOut := [], sending := none,
    advertised := 8, creditDue := false, spi := none }

/-- One thing for each master. -/
structure PerMaster (α : Type) where
  a : α
  b : α
  c : α
  deriving DecidableEq, Repr

/-! ## The hub -/

/-- The state of the hub. `pending` is the model's own queue of the commands that wait, first in, first out. -/
structure State where
  now : Time
  lastReset : ResetKind
  ports : Vector PortRec 8
  mgr : PowerMgr
  engine : BreakEngine
  store : Store
  presets : PresetStore
  lines : Vector LineRec 4
  masters : PerMaster MasterRec
  pending : List Instr
  deriving DecidableEq, Repr

/-- The three master records after either reset (R187). -/
def mastersAfterReset : PerMaster MasterRec :=
  ⟨MasterRec.afterReset false, MasterRec.afterReset false, MasterRec.afterReset true⟩

/-- The hub right after the power-on reset of a new part: every field at the value its rule gives after POR, the live values
loaded from records at their defaults (R142, R153), nothing written in the DRAM, no command waiting. -/
def State.reset : State :=
  { now := 0
    lastReset := .por
    ports := Vector.replicate 8 (PortRec.afterReset Profile.default false [])
    mgr := PowerMgr.afterReset Cell.default.budget Cell.default.stagger
    engine := BreakEngine.reset
    store := Store.afterReset []
    presets := PresetStore.newPart
    lines := Vector.replicate 4 (LineRec.afterReset LineSettings.default)
    masters := mastersAfterReset
    pending := [] }

end Sys2Proof.Machine
end

