-- ==== Sys2Proof/Machine/Flags.lean ====
section
/-! DEFINITION. The status figures the hub computes from what it holds: the attention line, the SPI status byte, the credit
figure, the class of a notice's kind and the switches that follow from a state. -/

namespace Sys2Proof.Machine

/-- The kind of a notice (10.5). -/
def NoticeBody.kind : NoticeBody → NoticeKind
  | .frameReady .. => .frameReady
  | .frameDropped .. => .frameDropped
  | .frameSummary .. => .frameSummary
  | .powerEvent .. => .powerEvent
  | .linkEvent .. => .linkEvent
  | .sweepDone .. => .sweepDone
  | .lensEvent .. => .lensEvent
  | .sequenceEvent .. => .sequenceEvent
  | .storeDone .. => .storeDone
  | .holdLapsed .. => .holdLapsed

/-- Whether a mask enables a kind (R187, R194). -/
def NoticeMask.enabled (m : NoticeMask) : NoticeKind → Bool
  | .frameReady => m.frameReady
  | .frameDropped => m.frameDropped
  | .frameSummary => m.frameSummary
  | .powerEvent => m.powerEvent
  | .linkEvent => m.linkEvent
  | .sweepDone => m.sweepDone
  | .lensEvent => m.lensEvent
  | .sequenceEvent => m.sequenceEvent
  | .storeDone => m.storeDone
  | .holdLapsed => m.holdLapsed

/-- The mask that enables exactly the kinds numbered in the list (R198; numbers of R202). -/
def NoticeMask.ofList (l : List Nat) : NoticeMask :=
  ⟨l.contains 1, l.contains 2, l.contains 3, l.contains 4, l.contains 5, l.contains 6, l.contains 7, l.contains 8,
    l.contains 9, l.contains 10⟩

/-- The routine notices of a queue. -/
def routineCount (l : List Notice) : Nat := (l.filter (fun n => !n.urgent)).length

/-- R196: when a master's attention line is asserted. -/
def attentionDue (isC : Bool) (r : MasterRec) : Bool :=
  r.notices.any (fun n => n.urgent) || decide (r.watermark ≤ routineCount r.notices) || (isC && !r.replies.isEmpty)

/-- R189: the free entries of the request queue. -/
def creditFigure (r : MasterRec) : Nat := Config.requestEntries - r.requests.length

/-- R189: whether any message waits to carry the credit figure. -/
def messageWaits (r : MasterRec) : Bool := !(r.replies.isEmpty && r.notices.isEmpty && r.fetchOut.isEmpty)

/-- The items of C's outbound queues, 63 when there are 63 or more (R191). -/
def itemCount (r : MasterRec) : Nat := min 63 (r.replies.length + r.notices.length)

/-- The status byte of an SPI transaction (R191, 11.1). -/
def statusByte (r : MasterRec) : Byte :=
  BitVec.ofNat 8 ((if r.requests.length = Config.requestEntries then 128 else 0) + (if r.overrun then 64 else 0) +
    itemCount r)

/-- Whether the receiver is connected (R1). -/
def LinkState.connected : LinkState → Bool
  | .awaitHello | .training | .retraining | .up | .lost => true
  | .down | .testing => false

/-- Whether a training attempt is in progress (R9). -/
def LinkState.inTraining : LinkState → Bool
  | .training | .retraining => true
  | _ => false

/-- Whether the down-channel carries packets in a link state (R3). -/
def LinkState.sends : LinkState → Bool
  | .training | .retraining | .up => true
  | _ => false

/-- The energized states: the port's switch is closed exactly in these (chapter 2). -/
def PowerState.energized : PowerState → Bool
  | .inrush | .on => true
  | _ => false

/-- The committed states (chapter 2). -/
def PowerState.committed : PowerState → Bool
  | .queued | .inrush | .on => true
  | _ => false

/-- Whether a down-channel packet is dropped when the link is not UP (R3). -/
def DownPacket.needsUp : DownPacket → Bool
  | .trigger _ | .lensGoto _ | .lensStop => true
  | _ => false

/-- No tag set. -/
def Tags.none : Tags := ⟨false, false, false, false, false, false, false, false, false, false⟩

/-- Whether a pin count of any reader is above 0 (R111). -/
def FrameRec.pinned (f : FrameRec) : Bool := decide (0 < f.pins.a) || decide (0 < f.pins.b)

end Sys2Proof.Machine
end

