-- ==== Sys2Proof/Machine/Memory.lean ====
section
/-! DEFINITION. The stacked DRAM of the frame store (R82, R98): reading and writing one byte, clearing a range, and the places
of a frame's bytes in its pages. The list of written bytes has one canonical form (`Memory.wf`), which every operation keeps. -/

namespace Sys2Proof.Machine

/-- What a byte that nothing has written reads as. DESIGN CHOICE: the manual gives the DRAM no contents after POR; no master
can read such a byte, since every line of a READY frame holds a received line or zeros (R86). -/
def Memory.blank : Byte := 0

/-- The byte at an address. -/
def Memory.read : Memory → Nat → Byte
  | [], _ => Memory.blank
  | (k, v) :: r, a => if a = k then v else if a < k then Memory.blank else Memory.read r a

/-- Writing one byte keeps addresses rising and lists no blank byte. -/
def Memory.write : Memory → Nat → Byte → Memory
  | [], a, b => if b = Memory.blank then [] else [(a, b)]
  | (k, v) :: r, a, b =>
    if a < k then (if b = Memory.blank then (k, v) :: r else (a, b) :: (k, v) :: r)
    else if a = k then (if b = Memory.blank then r else (k, b) :: r)
    else (k, v) :: Memory.write r a b

/-- Clearing `n` bytes from an address: they read as zeros. -/
def Memory.zeroRange (m : Memory) (lo n : Nat) : Memory :=
  m.filter (fun c => decide (c.1 < lo) || decide (lo + n ≤ c.1))

/-- Addresses from `lo` on, strictly rising, no blank byte listed. -/
def Memory.wfFrom : Nat → Memory → Bool
  | _, [] => true
  | lo, (k, v) :: r => decide (lo ≤ k) && decide (v ≠ Memory.blank) && Memory.wfFrom (k + 1) r

/-- The canonical form of the DRAM's list. -/
def Memory.wf (m : Memory) : Bool := Memory.wfFrom 0 m

/-- The place of byte `b` of a frame's byte space: entry b / 65 536 of the page list, offset b modulo 65 536 (R82). -/
def frameAddr (pages : List Nat) (b : Nat) : Option Nat :=
  match pages[b / Config.pageBytes]? with
  | some page => some (page * Config.pageBytes + b % Config.pageBytes)
  | none => none

/-- Writing bytes into a frame's byte space from byte `b` on. -/
def writeFrameBytes (pages : List Nat) : Nat → List Byte → Memory → Memory
  | _, [], m => m
  | b, x :: xs, m =>
    match frameAddr pages b with
    | some a => writeFrameBytes pages (b + 1) xs (m.write a x)
    | none => writeFrameBytes pages (b + 1) xs m

/-- Zero-filling bytes `lo` to `hi` - 1 of a frame's byte space, page by page; `i` numbers the page at the list's head. -/
def zeroFrameBytes (lo hi : Nat) : Nat → List Nat → Memory → Memory
  | _, [], m => m
  | i, page :: rest, m =>
    let base := i * Config.pageBytes
    let l := max lo base
    let h := min hi (base + Config.pageBytes)
    zeroFrameBytes lo hi (i + 1) rest
      (if l < h then m.zeroRange (page * Config.pageBytes + (l - base)) (h - l) else m)

/-- Reading `n` bytes of a frame's byte space from byte `b` on. -/
def readFrameBytes (pages : List Nat) (m : Memory) : Nat → Nat → List Byte
  | _, 0 => []
  | b, n + 1 =>
    (match frameAddr pages b with
      | some a => m.read a
      | none => Memory.blank) :: readFrameBytes pages m (b + 1) n

/-- Pages that hold the first `n` lines of `w` bytes (R82). -/
def pagesFor (n w : Nat) : Nat := ceilDiv (n * w) Config.pageBytes

end Sys2Proof.Machine
end

