-- ==== Sys2Proof/Machine/Operands.lean ====
section
/-! DEFINITION. The operands of the commands: the numbers of named values (R202), the ranges fields are judged by, clamping
(00_scope, "Clamping and refusal"; R144, R185, R198), and the step checks of LOAD_SEQUENCE (R156). -/

namespace Sys2Proof

/-- The master of an analysis port. -/
def Analysis.master : Analysis → Master
  | .A => .A
  | .B => .B

/-- The analysis master a master is, if it is one. -/
def Master.analysis : Master → Option Analysis
  | .A => some .A
  | .B => some .B
  | .C => none

/-- The number of a rate (R202). -/
def Rate.code : Rate → Nat
  | .r1250 => 0
  | .r2500 => 1
  | .r5000 => 2

/-- The rate of a number (R202). -/
def rateOf : Nat → Option Rate
  | 0 => some .r1250
  | 1 => some .r2500
  | 2 => some .r5000
  | _ => none

/-- The next lower rate (1.1). -/
def Rate.lower : Rate → Option Rate
  | .r5000 => some .r2500
  | .r2500 => some .r1250
  | .r1250 => none

/-- The lower of two rates. -/
def Rate.min (a b : Rate) : Rate := if a.code ≤ b.code then a else b

/-- The entry of an axis. -/
def PerAxis.get {α : Type} (v : PerAxis α) : Axis → α
  | .focus => v.focus
  | .iris => v.iris
  | .zoom => v.zoom

/-- Replacing the entry of an axis. -/
def PerAxis.set {α : Type} (v : PerAxis α) (a : Axis) (x : α) : PerAxis α :=
  match a with
  | .focus => { v with focus := x }
  | .iris => { v with iris := x }
  | .zoom => { v with zoom := x }

/-- Each entry changed. -/
def PerAxis.map {α β : Type} (f : α → β) (v : PerAxis α) : PerAxis β := ⟨f v.focus, f v.iris, f v.zoom⟩

/-- Two entries of each axis put together. -/
def PerAxis.zipWith {α β γ : Type} (f : α → β → γ) (v : PerAxis α) (w : PerAxis β) : PerAxis γ :=
  ⟨f v.focus w.focus, f v.iris w.iris, f v.zoom w.zoom⟩

/-- Whether some entry meets a test. -/
def PerAxis.any {α : Type} (f : α → Bool) (v : PerAxis α) : Bool := f v.focus || f v.iris || f v.zoom

/-- The axes whose entries meet a test, in the order focus, iris, zoom. -/
def PerAxis.axes {α : Type} (f : α → Bool) (v : PerAxis α) : List Axis :=
  (if f v.focus then [Axis.focus] else []) ++ (if f v.iris then [Axis.iris] else []) ++ (if f v.zoom then [Axis.zoom] else [])

end Sys2Proof

namespace Sys2Proof.Machine

/-- Whether a number lies in a..b. -/
def within (a b n : Nat) : Bool := decide (a ≤ n) && decide (n ≤ b)

/-- The nearer bound for a value outside a..b. -/
def clampTo (a b n : Nat) : Nat := if n < a then a else if b < n then b else n

/-- The clamped entry of a reply, where clamping changed the value. -/
def clampEntry (index given used : Nat) : List (Nat × Nat) := if given = used then [] else [(index, used)]

/-- A lens target clamped to 0..4095 (R130). -/
def clampTarget (t : Int) : Nat := if t < 0 then 0 else if 4095 < t then 4095 else t.toNat

/-- The clamped entry of a lens target (R130). -/
def targetEntry (index : Nat) : Option Int → List (Nat × Nat)
  | some t => if (clampTarget t : Int) = t then [] else [(index, clampTarget t)]
  | none => []

/-- R55: the averaging a value is reduced to. -/
def reduceAveraging (v : Nat) : Nat :=
  if v < 2 then 1 else if v < 4 then 2 else if v < 8 then 4 else if v < 16 then 8 else if v < 32 then 16
  else if v < 64 then 32 else 64

/-- The policy of a number (R107, R202). -/
def policyOf : Nat → Option Policy
  | 0 => some .keepNewest
  | 1 => some .keepOldest
  | _ => none

/-- The polarity of a number (R141, R202). -/
def polarityOf : Nat → Option Polarity
  | 0 => some .rising
  | 1 => some .falling
  | _ => none

/-- Whether a polarity, where given, is RISING or FALLING (R144, R185). -/
def polarityFits : Option Nat → Bool
  | some n => (polarityOf n).isSome
  | none => true

/-! ## Whole records of a write request (R144) -/

/-- A profile with its clamped fields; `none` where a field is missing. The field order is that of R140, the port being
field 0. -/
def parseProfile (r : RawProfile) : Option (Profile × List (Nat × Nat)) :=
  match r.installedLength, r.velocity, r.offset, r.allotment, r.inrushWindow, r.helloTimeout, r.rateLimit,
      r.degradeThreshold, r.sweepThreshold, r.blindCount, r.averaging, r.powerAtStart, r.autoSweep, r.autoRestore with
  | some il, some v, some o, some al, some iw, some ht, some rl, some dt, some st, some bc, some av, some ps, some sw,
      some ar =>
    some
      ({ installedLength := clampTo 0 100000 il, velocity := clampTo 500 990 v, offset := clampTo 0 2000 o,
         allotment := clampTo 50 1500 al, inrushWindow := clampTo 10 250 iw, helloTimeout := clampTo 500 10000 ht,
         rateLimit := (rateOf rl).getD .r5000, degradeThreshold := clampTo 1 1000 dt, sweepThreshold := clampTo 50 900 st,
         blindCount := clampTo 12 255 bc, averaging := clampTo 1 64 av, powerAtStart := ps, autoSweep := sw,
         autoRestore := ar },
       clampEntry 1 il (clampTo 0 100000 il) ++ clampEntry 2 v (clampTo 500 990 v) ++ clampEntry 3 o (clampTo 0 2000 o) ++
         clampEntry 4 al (clampTo 50 1500 al) ++ clampEntry 5 iw (clampTo 10 250 iw) ++
         clampEntry 6 ht (clampTo 500 10000 ht) ++ clampEntry 7 rl ((rateOf rl).getD .r5000).code ++
         clampEntry 8 dt (clampTo 1 1000 dt) ++ clampEntry 9 st (clampTo 50 900 st) ++ clampEntry 10 bc (clampTo 12 255 bc) ++
         clampEntry 11 av (clampTo 1 64 av))
  | _, _, _, _, _, _, _, _, _, _, _, _, _, _ => none

/-- A line's settings with its clamped fields; `none` where a field is missing or the polarity is no polarity. `base` is the
index of the line's enable in the field order of R141. -/
def parseLine (base : Nat) (r : RawLine) : Option (LineSettings × List (Nat × Nat)) :=
  match r.enable, r.polarity.bind polarityOf, r.debounce, r.holdOff, r.route with
  | some en, some po, some db, some ho, some ro =>
    some
      ({ enable := en, polarity := po, debounce := clampTo 1 255 db, holdOff := clampTo 0 1000 ho,
         route := BitVec.ofNat 8 (clampTo 0 255 ro) },
       clampEntry (base + 2) db (clampTo 1 255 db) ++ clampEntry (base + 3) ho (clampTo 0 1000 ho) ++
         clampEntry (base + 4) ro (clampTo 0 255 ro))
  | _, _, _, _, _ => none

/-- A cell record with its clamped fields; `none` where a field is missing or a polarity is no polarity. The field order is
that of R141: budget 0, stagger gap 1, then five fields for each line. -/
def parseCell (r : RawCell) : Option (Cell × List (Nat × Nat)) :=
  match r.budget, r.stagger, parseLine 2 r.line0, parseLine 7 r.line1, parseLine 12 r.line2, parseLine 17 r.line3 with
  | some b, some g, some (l0, c0), some (l1, c1), some (l2, c2), some (l3, c3) =>
    some
      ({ budget := clampTo 0 12000 b, stagger := clampTo 0 1000 g, lines := #v[l0, l1, l2, l3] },
       clampEntry 0 b (clampTo 0 12000 b) ++ clampEntry 1 g (clampTo 0 1000 g) ++ c0 ++ c1 ++ c2 ++ c3)
  | _, _, _, _, _, _ => none

/-! ## The step list of LOAD_SEQUENCE (R155, R156) -/

/-- The close timeout of a TRIGGER step, 1000 ms where absent (R155). -/
def closeTimeoutOf (t : Option Nat) : Nat := t.getD 1000

/-- Whether an optional parameter, where given, lies in its range. -/
def optWithin (a b : Nat) : Option Nat → Bool
  | some n => within a b n
  | none => true

/-- RANGE (R155, R156): every parameter in the range of its kind. -/
def StepKind.inRange : StepKind → Bool
  | .lens preset targets allowance =>
    optWithin 0 63 preset && !(targets.any (fun t => !optWithin 0 4095 t)) && optWithin 0 2000 allowance
  | .settle t => within 10 10000 t
  | .await line t => within 0 3 line && (t == 0 || within 1 60000 t)
  | .trigger exposure lines width close =>
    optWithin 10 1000000 exposure && within 1 16384 lines && within 16 32768 width && width % 16 == 0 &&
      optWithin 10 60000 close
  | .dwell t => within 1 60000 t

/-- SIZE (R156): a TRIGGER step's frame lies within 64 MiB. -/
def StepKind.sizeOk : StepKind → Bool
  | .trigger _ lines width _ => decide (lines * width ≤ Config.frameBytes)
  | _ => true

/-- LENS_SOURCE (R156): a LENS step has a preset number or targets, not both and not neither. -/
def StepKind.lensSourceOk : StepKind → Bool
  | .lens preset targets _ => preset.isSome != targets.any Option.isSome
  | _ => true

/-- Whether a step is a TRIGGER step. -/
def StepKind.isTrigger : StepKind → Bool
  | .trigger .. => true
  | _ => false

/-- The first failing reason of one step, in the order of R156; `last` says whether it is the last of its list. -/
def Step.failure (last : Bool) (st : Step) : Option LoadReason :=
  if st.chain == last then some .chain
  else if (st.lenient || st.discard) && !st.kind.isTrigger then some .flag
  else if !st.kind.inRange then some .range
  else if !st.kind.sizeOk then some .size
  else if !st.kind.lensSourceOk then some .lensSource
  else none

/-- The first failing step from index `i` on, with its reason (R156). -/
def stepsFailure : Nat → List Step → Option (Nat × LoadReason)
  | _, [] => none
  | i, st :: rest =>
    match st.failure rest.isEmpty with
    | some why => some (i, why)
    | none => stepsFailure (i + 1) rest

/-- R156: the first failure of a step list. -/
def loadFailure (l : List Step) : Option (Nat × LoadReason) :=
  if l.isEmpty || decide (16 < l.length) then some (0, .count) else stepsFailure 0 l

/-- Pages a step's frame needs, 0 for a step that stores none (R80, R157). -/
def Step.pages (st : Step) : Nat :=
  match st.kind with
  | .trigger _ lines width _ => if st.discard then 0 else pagesFor lines width
  | _ => 0

/-- Records a step needs (R157). -/
def Step.records (st : Step) : Nat := if st.kind.isTrigger && !st.discard then 1 else 0

/-- The page count of a step list (R157). -/
def pageCountOf (l : List Step) : Nat := (l.map Step.pages).sum

/-- The record count of a step list (R157). -/
def recordCountOf (l : List Step) : Nat := (l.map Step.records).sum

end Sys2Proof.Machine
end

