-- ==== Sys2Proof/Machine/Ops.lean ====
section
/-! DEFINITION. The shared operations of all blocks: reading and changing one port, one master, one part of the state; handing
packets to a down-channel (R3); notices (R194, R195); taking requests and placing replies (R192, R193, R205). Every change of a
master's record goes through `State.updMaster`, which lets the attention line follow (R196). -/

namespace Sys2Proof.Machine

/-- What a command of the hub ends in: always a next state (the manual gives every event and every request its effect). -/
abbrev Outcome := Host.Outcome State Fault Refusal

/-! ## Parts of the state -/

/-- The record of a master. -/
def PerMaster.get {α : Type} (v : PerMaster α) : Master → α
  | .A => v.a
  | .B => v.b
  | .C => v.c

/-- Replacing the record of a master. -/
def PerMaster.set {α : Type} (v : PerMaster α) (m : Master) (x : α) : PerMaster α :=
  match m with
  | .A => { v with a := x }
  | .B => { v with b := x }
  | .C => { v with c := x }

/-- The entry of an analysis master. -/
def PerAnalysis.get {α : Type} (v : PerAnalysis α) : Analysis → α
  | .A => v.a
  | .B => v.b

/-- Replacing the entry of an analysis master. -/
def PerAnalysis.set {α : Type} (v : PerAnalysis α) (m : Analysis) (x : α) : PerAnalysis α :=
  match m with
  | .A => { v with a := x }
  | .B => { v with b := x }

/-- Whether a reader set is empty. -/
def PerAnalysis.isEmpty (v : PerAnalysis Bool) : Bool := !v.a && !v.b

/-- The record of a port. -/
def State.port (s : State) (p : Port) : PortRec := s.ports.get p

/-- Changing the record of a port. -/
def State.updPort (s : State) (p : Port) (f : PortRec → PortRec) : State :=
  { s with ports := s.ports.set p (f (s.ports.get p)) }

/-- Changing the link part of a port record. -/
def State.updLink (s : State) (p : Port) (f : LinkRec → LinkRec) : State :=
  s.updPort p (fun r => { r with link := f r.link })

/-- Changing the power part of a port record. -/
def State.updPower (s : State) (p : Port) (f : PowerRec → PowerRec) : State :=
  s.updPort p (fun r => { r with power := f r.power })

/-- Changing the break finder's marks on a port. -/
def State.updMarks (s : State) (p : Port) (f : Marks → Marks) : State :=
  s.updPort p (fun r => { r with marks := f r.marks })

/-- Changing the counters of a port. -/
def State.updCounters (s : State) (p : Port) (f : Counters → Counters) : State :=
  s.updPort p (fun r => { r with counters := f r.counters })

/-- Changing the intake record of a port. -/
def State.updIntake (s : State) (p : Port) (f : IntakeRec → IntakeRec) : State :=
  s.updPort p (fun r => { r with intake := f r.intake })

/-- Changing the lens record of a port. -/
def State.updLens (s : State) (p : Port) (f : LensRec → LensRec) : State :=
  s.updPort p (fun r => { r with lens := f r.lens })

/-- Changing the sequence context of a port. -/
def State.updSeq (s : State) (p : Port) (f : SeqCtx → SeqCtx) : State :=
  s.updPort p (fun r => { r with seq := f r.seq })

/-- Changing the power manager. -/
def State.updMgr (s : State) (f : PowerMgr → PowerMgr) : State := { s with mgr := f s.mgr }

/-- Changing the break finder's engine. -/
def State.updEngine (s : State) (f : BreakEngine → BreakEngine) : State := { s with engine := f s.engine }

/-- Changing the frame store. -/
def State.updStore (s : State) (f : Store → Store) : State := { s with store := f s.store }

/-- Changing the preset store. -/
def State.updPresets (s : State) (f : PresetStore → PresetStore) : State := { s with presets := f s.presets }

/-- Changing the record of a trigger line. -/
def State.updLine (s : State) (l : LineNo) (f : LineRec → LineRec) : State :=
  { s with lines := s.lines.set l (f (s.lines.get l)) }

/-- Whether a deadline that is present has passed. -/
def passed (now : Time) (t : Option Time) : Bool :=
  match t with
  | some t => decide (t ≤ now)
  | none => false

/-- The position of a port in a list of ports, the head counting as 1. -/
def positionOf (p : Port) : List Port → Option Nat
  | [] => none
  | q :: rest => if q = p then some 1 else (positionOf p rest).map (· + 1)

/-- The record of a master. -/
def State.master (s : State) (m : Master) : MasterRec := s.masters.get m

/-- R196: the attention line follows the queues and the watermark. -/
def MasterRec.refreshed (m : Master) (r : MasterRec) : MasterRec :=
  { r with attention := attentionDue (decide (m = .C)) r }

/-- Changing the record of a master; the attention line follows. -/
def State.updMaster (s : State) (m : Master) (f : MasterRec → MasterRec) : State :=
  { s with masters := s.masters.set m ((f (s.masters.get m)).refreshed m) }

/-- R20: one more stray packet. -/
def State.countStray (s : State) (p : Port) : State := s.updCounters p (fun c => { c with stray := satInc c.stray })

/-- R20: one more frame refused. -/
def State.countRefused (s : State) (p : Port) : State :=
  s.updCounters p (fun c => { c with framesRefused := satInc c.framesRefused })

/-! ## The down-channel (R3) -/

/-- Handing a packet to a port's down-channel: TRIGGER and lens packets are dropped when the link is not UP, and any packet is
dropped while 16 wait. -/
def State.handDown (s : State) (p : Port) (k : DownPacket) : State :=
  if k.needsUp && decide ((s.port p).link.state ≠ .up) then s
  else if Config.downWaiting ≤ (s.port p).waiting.length then s
  else s.updPort p (fun r => { r with waiting := r.waiting ++ [k] })

/-- R3, R12: the TRIGGER and lens packets still waiting are dropped. -/
def State.dropDown (s : State) (p : Port) : State :=
  s.updPort p (fun r => { r with waiting := r.waiting.filter (fun k => !k.needsUp) })

/-! ## Notices (R194, R195) -/

/-- A queue without its oldest routine notice. -/
def dropRoutine : List Notice → List Notice
  | [] => []
  | n :: r => if n.urgent then n :: dropRoutine r else r

/-- Whether the notice at the head of a queue is routine, so that a displacement takes it. -/
def headRoutine : List Notice → Bool
  | [] => false
  | n :: _ => !n.urgent

/-- R195: what an overflow does to an SPI transaction in progress; `headTaken` says that the notice displaced is the queue's
head, which is then no longer in its queue. -/
def SpiTxn.overflow (headTaken : Bool) (t : SpiTxn) : SpiTxn :=
  match t.head with
  | .notice .. => { t with overflowed := true, headQueued := t.headQueued && !headTaken }
  | _ => { t with overflowed := true }

/-- R188, R194, R195: a notice offered to a master's notice queue. -/
def MasterRec.offer (n : Notice) (r : MasterRec) : MasterRec :=
  if !r.attached then r
  else if !n.urgent && !r.mask.enabled n.body.kind then r
  else if r.notices.length < Config.noticeEntries then { r with notices := r.notices ++ [n] }
  else if n.urgent && r.notices.any (fun x => !x.urgent) then
    { r with notices := dropRoutine r.notices ++ [n], overrun := true,
             spi := r.spi.map (SpiTxn.overflow (headRoutine r.notices)) }
  else { r with overrun := true, spi := r.spi.map (SpiTxn.overflow false) }

/-- A notice produced for one master, stamped with the timebase (10.5). -/
def State.notify (s : State) (m : Master) (urgent : Bool) (body : NoticeBody) : State :=
  s.updMaster m (MasterRec.offer ⟨urgent, s.now, body⟩)

/-- A notice produced for all three masters, offered to each queue separately (R194). -/
def State.notifyAll (s : State) (urgent : Bool) (body : NoticeBody) : State :=
  ((s.notify .A urgent body).notify .B urgent body).notify .C urgent body

/-- A notice for a master that may be absent. -/
def State.notifyOpt (s : State) (m : Option Master) (urgent : Bool) (body : NoticeBody) : State :=
  match m with
  | some m => s.notify m urgent body
  | none => s

/-! ## Requests (R192, R193) -/

/-- The request kinds, in the order of the request kind table of R193. -/
inductive RequestKind
  | readCamera | setRateLimit | retrain
  | portPower | readPower | clearPortFault
  | sweep | readBreakLog
  | subscribe | unsubscribe | setFramePolicy | fetch | release | listFrames | readStore
  | takeLens | giveLens | breakHold | moveLens | stopLens | recallPreset | readLens
  | writePreset | erasePreset | writeProfile | writeCell | lockPreset | lockDown | clearStoreError | readPreset | readProfile
  | readCell | readStoreStatus
  | loadSequence | startSequence | resumeSequence | haltSequence | readSequence
  | fire | setTriggerLine | readTriggers
  | setNoticeMask | detach | readPart
  deriving DecidableEq, Repr

/-- The number of a request kind, from READ_CAMERA (1) to READ_PART (44) (R202). -/
def RequestKind.code : RequestKind → Nat
  | .readCamera => 1 | .setRateLimit => 2 | .retrain => 3 | .portPower => 4 | .readPower => 5 | .clearPortFault => 6
  | .sweep => 7 | .readBreakLog => 8 | .subscribe => 9 | .unsubscribe => 10 | .setFramePolicy => 11 | .fetch => 12
  | .release => 13 | .listFrames => 14 | .readStore => 15 | .takeLens => 16 | .giveLens => 17 | .breakHold => 18
  | .moveLens => 19 | .stopLens => 20 | .recallPreset => 21 | .readLens => 22 | .writePreset => 23 | .erasePreset => 24
  | .writeProfile => 25 | .writeCell => 26 | .lockPreset => 27 | .lockDown => 28 | .clearStoreError => 29
  | .readPreset => 30 | .readProfile => 31 | .readCell => 32 | .readStoreStatus => 33 | .loadSequence => 34
  | .startSequence => 35 | .resumeSequence => 36 | .haltSequence => 37 | .readSequence => 38 | .fire => 39
  | .setTriggerLine => 40 | .readTriggers => 41 | .setNoticeMask => 42 | .detach => 43 | .readPart => 44

/-- Whether a number is that of a request kind (R192, R202). -/
def knownKind (n : Nat) : Bool := within 1 44 n

/-- R193: which master ports may use a kind. -/
def RequestKind.permits (k : RequestKind) (m : Master) : Bool :=
  match k with
  | .writeProfile | .writeCell | .lockPreset | .lockDown | .clearStoreError | .clearPortFault | .breakHold
  | .setTriggerLine => decide (m = .C)
  | .subscribe | .unsubscribe | .fetch | .release | .setFramePolicy => decide (m ≠ .C)
  | _ => true

/-- What a block answers: the result, the clamped fields and the returned fields. -/
structure Answer where
  result : Result
  clamped : List (Nat × Nat) := []
  body : ReplyBody := .empty
  deriving DecidableEq, Repr

/-- A request queue whose oldest untaken entry has been taken. -/
def takeFirst : List RequestEntry → List RequestEntry
  | [] => []
  | e :: r => if e.waiting then { e with waiting := false } :: r else e :: takeFirst r

/-- The oldest request not yet taken. -/
def MasterRec.nextRequest (r : MasterRec) : Option RequestEntry := r.requests.find? (fun e => e.waiting)

/-- The listed entries of a reply's returned fields: how many, and the bytes of each (11.2, R205). -/
def ReplyBody.listed : ReplyBody → Nat × Nat
  | .frames _ entries => (entries.length, 50)
  | .breakLog r => (r.records.length, 36)
  | .sequence _ steps _ _ => (steps.length, 14)
  | _ => (0, 1)

/-- The returned fields with the run of `n` listed entries from entry `i` on. -/
def ReplyBody.slice (i n : Nat) : ReplyBody → ReplyBody
  | .frames f entries => .frames f ((entries.drop i).take n)
  | .breakLog r => .breakLog { r with records := (r.records.drop i).take n }
  | .sequence ctx steps h im => .sequence ctx ((steps.drop i).take n) h im
  | b => b

/-- Bytes of the returned fields that are not listed entries: 12 for LIST_FRAMES (R205's example), open for the others. -/
def fixedBytes (kind : Nat) : Nat := if kind = RequestKind.listFrames.code then 12 else Config.fixedReplyBytes kind

/-- R205: the records a reply is formed as: on A and B, and on C where the record fits in 256 bytes, one. DESIGN CHOICE (log entry
11): so is a reply on C without listed entries, however long it is, and a part takes at least one entry. -/
def replyParts (onC : Bool) (r : ReplyRecord) : List ReplyRecord :=
  let count := r.body.listed.1
  let size := r.body.listed.2
  if !onC || count == 0 then [r]
  else
    let fixed := 10 + r.clamped.length + fixedBytes r.kind
    if fixed + count * size ≤ Config.spiRecordBytes then [r]
    else
      let per := max 1 ((Config.spiRecordBytes - fixed) / size)
      let parts := ceilDiv count per
      (List.range parts).map
        (fun i => { r with body := r.body.slice (i * per) per, part := i, lastPart := decide (i + 1 = parts) })

/-- The reply to an entry as one record (R192). -/
def replyTo (e : RequestEntry) (a : Answer) : ReplyRecord :=
  { tag := e.tag, kind := e.kind, result := a.result, clamped := a.clamped, body := a.body, part := 0, lastPart := true }

/-- Placing the reply to an entry in its master's reply queue (R192). -/
def State.reply (s : State) (m : Master) (e : RequestEntry) (a : Answer) : State :=
  s.updMaster m (fun r => { r with replies := r.replies ++ replyParts (decide (m = .C)) (replyTo e a) })

/-- R192: taking master `m`'s next request, which is of kind `k`. A malformed record or fields that do not fit give
BAD_REQUEST, a kind the port may not use NOT_PERMITTED (R193), and otherwise the owning block acts. Where `m`'s next request is
of another kind, or none waits, this command does not occur and nothing changes. -/
def State.takeRequest (s : State) (m : Master) (k : RequestKind) (fits : Bool) (act : State → Answer × State) : State :=
  match (s.master m).nextRequest with
  | none => s
  | some e =>
    if e.kind ≠ k.code then s
    else
      let s1 := s.updMaster m (fun r => { r with requests := takeFirst r.requests })
      if e.malformed || !fits then s1.reply m e { result := .badRequest }
      else if !k.permits m then s1.reply m e { result := .notPermitted }
      else
        let out := act s1
        out.2.reply m e out.1

/-- R192: a request whose record the manual lays out byte by byte is taken by the command that carries those bytes; where the
fields of `m`'s next request are other bytes, this command does not occur and nothing changes. -/
def State.ofRecord (s : State) (m : Master) (fields : List Byte) (taken : State) : State :=
  if (s.master m).nextRequest.map RequestEntry.fields = some fields then taken else s

/-- A request that names a camera port: a number outside 0..7 is refused with BAD_RANGE and changes nothing (1.10 and the
requests of every chapter). -/
def onPort (n : Nat) (act : Port → State → Answer × State) (s : State) : Answer × State :=
  match portOf n with
  | some p => act p s
  | none => ({ result := .badRange }, s)

/-- A request that only reads. -/
def answering (a : State → Answer) (s : State) : Answer × State := (a s, s)

/-- A refusal: the state is left as it was. -/
def refusing (r : Result) (s : State) : Answer × State := ({ result := r }, s)

/-! ## The timebase -/

/-- The timebase counts microseconds in 64 bits (00_scope, "Time"). -/
def timeSpan : Nat := 18446744073709551616

/-- DESIGN CHOICE (log entry 1): the tick of the timebase is what a step does when no command waits; the table has no row for it. -/
def State.tick (s : State) : State := { s with now := (s.now + 1) % timeSpan }

end Sys2Proof.Machine
end

