-- ==== Sys2Proof/Machine/StoreOps.lean ====
section
/-! DEFINITION. The frame store manager's shared operations (chapter 5): drawing pages, freeing, reclaim, reservations,
handover with the ready lists, ending fetches and the store's side of a teardown. -/

namespace Sys2Proof.Machine

/-! ## Counts -/

/-- R108: free pages minus reserved pages. -/
def Store.unreservedPages (st : Store) : Nat := st.freeList.length - st.reservedPages

/-- R99: the records not in use. -/
def Store.freeRecords (st : Store) : Nat := Config.recordCount - st.frames.length

/-- R108: free records minus reserved records. -/
def Store.unreservedRecords (st : Store) : Nat := st.freeRecords - st.reservedRecords

/-! ## Frame records -/

/-- Changing the first element that meets a test. -/
def updFirst {α : Type} (t : α → Bool) (f : α → α) : List α → List α
  | [] => []
  | x :: r => if t x then f x :: r else x :: updFirst t f r

/-- The record in use with a frame id (R100: at most one). -/
def Store.frame? (st : Store) (id : Nat) : Option FrameRec := st.frames.find? (fun f => f.id == id)

/-- Changing the record with a frame id. -/
def Store.updFrame (st : Store) (id : Nat) (f : FrameRec → FrameRec) : Store :=
  { st with frames := updFirst (fun r => r.id == id) f st.frames }

/-- The record in use with a frame id. -/
def State.frame? (s : State) (id : Nat) : Option FrameRec := s.store.frame? id

/-- Changing the record with a frame id. -/
def State.updFrame (s : State) (id : Nat) (f : FrameRec → FrameRec) : State := s.updStore (fun st => st.updFrame id f)

/-- Changing what the store keeps for one analysis master. -/
def Store.updReader (st : Store) (m : Analysis) (f : ReaderRec → ReaderRec) : Store :=
  { st with readers := st.readers.set m (f (st.readers.get m)) }

/-- R101: freeing a frame: its pages join the tail of the free list, its record becomes free, and it leaves every ready
list. -/
def Store.freeFrame (st : Store) (id : Nat) : Store :=
  { st with
    freeList := st.freeList ++ (st.frames.filter (fun f => f.id == id)).flatMap FrameRec.pages
    frames := st.frames.filter (fun f => !(f.id == id))
    readers := ⟨{ st.readers.a with ready := st.readers.a.ready.filter (fun i => !(i == id)) },
      { st.readers.b with ready := st.readers.b.ready.filter (fun i => !(i == id)) }⟩ }

/-- R98, R85: drawing `n` pages from the head of the free list into a frame's page list, in order. -/
def Store.drawPages (st : Store) (id n : Nat) : Store :=
  match st.frame? id with
  | none => st
  | some _ =>
    { st with freeList := st.freeList.drop n }.updFrame id (fun f => { f with pages := f.pages ++ st.freeList.take n })

/-- R85, R108: pages drawn by a sequenced frame lower its step reservation and the reserved pages by the number drawn. -/
def Store.drawReserved (st : Store) (id n : Nat) : Store :=
  match st.frame? id with
  | none => st
  | some f =>
    let d := min n f.stepReserved
    { (st.drawPages id n).updFrame id (fun g => { g with stepReserved := g.stepReserved - d }) with
      reservedPages := st.reservedPages - d }

/-- R91, R108: what is left of a frame's step reservation returns to the unreserved pool. -/
def Store.releaseStep (st : Store) (id : Nat) : Store :=
  match st.frame? id with
  | none => st
  | some f =>
    { st.updFrame id (fun g => { g with stepReserved := 0 }) with reservedPages := st.reservedPages - f.stepReserved }

/-! ## Reservations (R109) -/

/-- R109: whether a reservation of `p` pages and `r` records would be granted. -/
def Store.grants (st : Store) (p r : Nat) : Bool :=
  decide (p ≤ st.unreservedPages) && decide (r ≤ st.unreservedRecords)

/-- R109: the totals rise by a granted reservation. -/
def Store.reserve (st : Store) (p r : Nat) : Store :=
  { st with reservedPages := st.reservedPages + p, reservedRecords := st.reservedRecords + r }

/-- R108: the totals fall as a context's reservation is released. -/
def Store.unreserve (st : Store) (p r : Nat) : Store :=
  { st with reservedPages := st.reservedPages - p, reservedRecords := st.reservedRecords - r }

/-! ## Reclaim (R111, R112) -/

/-- Whether frame `f` was READY before frame `g`: by ready time, then by handover position (R103, R111). -/
def FrameRec.before (f g : FrameRec) : Bool :=
  decide (f.readyTime.getD 0 < g.readyTime.getD 0) ||
    (decide (f.readyTime.getD 0 = g.readyTime.getD 0) && decide (f.handover.getD 0 < g.handover.getD 0))

/-- Whether reclaim may take a frame: READY and unpinned (R111). -/
def FrameRec.reclaimable (f : FrameRec) : Bool := decide (f.state = .ready) && !f.pinned

/-- The older of a candidate and a frame. -/
def olderVictim (best : Option FrameRec) (f : FrameRec) : Option FrameRec :=
  match best with
  | none => some f
  | some b => if f.before b then some f else some b

/-- R111: the oldest unpinned READY frame. -/
def Store.victim (st : Store) : Option FrameRec := (st.frames.filter FrameRec.reclaimable).foldl olderVictim none

/-- FRAME_DROPPED to one master (R106). -/
def State.dropNotice (s : State) (m : Analysis) (f : FrameRec) (why : DropReason) (hadReady : Bool) : State :=
  s.notify m.master false (.frameDropped f.id f.port why hadReady)

/-- R112: one victim reclaimed, FRAME_DROPPED (RECLAIMED) to each of its readers; `none` where there is no victim. -/
def State.reclaimOne (s : State) : Option State :=
  match s.store.victim with
  | none => none
  | some f =>
    let s1 := if f.readers.a then s.dropNotice .A f .reclaimed true else s
    let s2 := if f.readers.b then s1.dropNotice .B f .reclaimed true else s1
    some (s2.updStore (fun st => st.freeFrame f.id))

/-- R85: victims reclaimed one at a time until the unreserved free pages cover `n`, or no victim remains. -/
def State.reclaimPages : Nat → State → Nat → State
  | 0, s, _ => s
  | fuel + 1, s, n =>
    if n ≤ s.store.unreservedPages then s
    else
      match s.reclaimOne with
      | none => s
      | some s1 => State.reclaimPages fuel s1 n

/-! ## Frame ids (R100) -/

/-- The id after an id, passing from 4 294 967 295 to 1. -/
def succId (n : Nat) : Nat := if n < countTop then n + 1 else 1

/-- The first id from `n` on that no record in use holds; among 512 records, 513 tries suffice. -/
def Store.pickId (st : Store) : Nat → Nat → Nat
  | 0, n => n
  | fuel + 1, n => if st.frames.any (fun f => f.id == n) then st.pickId fuel (succId n) else n

/-- The id the next frame record receives. -/
def Store.newId (st : Store) : Nat := st.pickId (st.frames.length + 1) st.nextId

/-! ## Ready lists (R103 to R106) -/

/-- A master leaves a frame's reader set and the frame its ready list; a set become empty frees the frame (R103, R101). -/
def Store.dropReader (st : Store) (id : Nat) (m : Analysis) : Store :=
  let st1 := (st.updFrame id (fun f => { f with readers := f.readers.set m false })).updReader m
    (fun r => { r with ready := r.ready.filter (fun i => !(i == id)) })
  match st1.frame? id with
  | some f => if f.readers.isEmpty then st1.freeFrame id else st1
  | none => st1

/-- The pin count of a frame for a master. -/
def Store.pinsOf (st : Store) (id : Nat) (m : Analysis) : Nat :=
  match st.frame? id with
  | some f => f.pins.get m
  | none => 0

/-- R105: the frames of a master's list that it has not pinned, oldest first. -/
def Store.unpinnedOf (st : Store) (m : Analysis) : List Nat :=
  (st.readers.get m).ready.filter (fun i => decide (st.pinsOf i m = 0))

/-- R105: one older frame released for a master, with its FRAME_DROPPED (HOLD_LIMIT). -/
def State.holdRelease (m : Analysis) (s : State) (id : Nat) : State :=
  match s.frame? id with
  | none => s
  | some f => (s.dropNotice m f .holdLimit true).updStore (fun st => st.dropReader id m)

/-- R106, R119: what master `m` is shown of a READY frame. -/
def FrameRec.entry (m : Analysis) (f : FrameRec) : ListEntry :=
  { id := f.id, port := f.port, origin := f.origin, cameraNo := f.cameraNo, cameraLines := f.cameraLines,
    openTime := f.openTime, readyTime := f.readyTime.getD 0, width := f.width, lines := f.lines, stored := f.stored,
    missing := f.missing, damaged := f.damaged, firstDamaged := f.firstDamaged, tags := f.tags, snapshot := f.snapshot,
    readers := f.readers, pins := f.pins.get m }

/-- A frame appended to a master's ready list, with its FRAME_READY (R104, R106). DESIGN CHOICE (log entry 51): the entry shows
the reader set as it stands then, so A's notice shows B as a reader while B is still to be judged. -/
def State.listFrame (s : State) (m : Analysis) (id : Nat) : State :=
  let s1 := s.updStore (fun st => st.updReader m (fun r => { r with ready := r.ready ++ [id] }))
  match s1.frame? id with
  | none => s1
  | some f => s1.notify m.master false (.frameReady (f.entry m) (s1.store.readers.get m).ready.length)

/-- A new frame given up for a master: it leaves the reader set, with FRAME_DROPPED (HOLD_LIMIT) (R104). -/
def State.giveUp (s : State) (m : Analysis) (id : Nat) : State :=
  match s.frame? id with
  | none => s
  | some f =>
    (s.updFrame id (fun f => { f with readers := f.readers.set m false })).dropNotice m f .holdLimit false

/-- R104, R105: a new frame judged for one of its readers. -/
def State.judgeReader (s : State) (m : Analysis) (id : Nat) : State :=
  match s.frame? id with
  | none => s
  | some f =>
    if !f.readers.get m then s
    else
      let r := s.store.readers.get m
      let n := r.ready.length
      if n < r.holdLimit then s.listFrame m id
      else
        match r.policy with
        | .keepOldest => s.giveUp m id
        | .keepNewest =>
          let free := s.store.unpinnedOf m
          if r.holdLimit ≤ n - free.length then s.giveUp m id
          else ((free.take (n + 1 - r.holdLimit)).foldl (State.holdRelease m) s).listFrame m id

/-- R92, R99, R104: the frame store takes a frame at its handover. The handover counter is a 64-bit count. -/
def State.handover (s : State) (id : Nat) : State :=
  let s0 := s.updStore (fun st => { st with handovers := (st.handovers + 1) % 2 ^ 64 })
  match s0.frame? id with
  | none => s0
  | some f =>
    if f.stored = 0 then s0.updStore (fun st => st.freeFrame id)
    else if f.readers.isEmpty then s0.updStore (fun st => st.freeFrame id)
    else
      let s1 := s0.updFrame id
        (fun f => { f with state := .ready, readyTime := f.closeTime, handover := some s0.store.handovers })
      let s2 := (s1.judgeReader .A id).judgeReader .B id
      match s2.frame? id with
      | some g => if g.readers.isEmpty then s2.updStore (fun st => st.freeFrame id) else s2
      | none => s2

/-! ## Fetches (R114, R117, R118) -/

/-- A fetch message handed to a master's outbound link. -/
def State.handFetch (s : State) (m : Analysis) (f : FetchMsg) : State :=
  s.updMaster m.master (fun r => { r with fetchOut := r.fetchOut ++ [f] })

/-- The frame's pin count for a master falls by 1 as a fetch leaves the queue (R114). -/
def Store.unpin (st : Store) (id : Nat) (m : Analysis) : Store :=
  st.updFrame id (fun f => { f with pins := f.pins.set m (f.pins.get m - 1) })

/-- R118: the caller's fetches of a frame end CANCELLED, in queue order, each with its fetch-end message. -/
def State.cancelFetches (s : State) (m : Analysis) (id : Nat) : State :=
  ((s.store.readers.get m).fetches.filter (fun f => f.frame == id)).foldl
    (fun s f => (s.updStore (fun st => st.unpin id m)).handFetch m (.fetchEnd f.tag id false f.sent))
    (s.updStore (fun st => st.updReader m (fun r => { r with fetches := r.fetches.filter (fun f => !(f.frame == id)) })))

/-! ## Teardown (R121) -/

/-- R121: READY frames left without readers are freed, in the order of the torn-down master's ready list. -/
def Store.freeUnread (st : Store) (id : Nat) : Store :=
  match st.frame? id with
  | some f => if f.readers.isEmpty && decide (f.state = .ready) then st.freeFrame id else st
  | none => st

/-- R121, steps 1 to 3 and 5, for the records and lists of the store. -/
def Store.teardown (st : Store) (m : Analysis) : Store :=
  let listed := (st.readers.get m).ready
  let st1 := { st with
    frames := st.frames.map (fun f => { f with readers := f.readers.set m false, pins := f.pins.set m 0 }),
    readers := st.readers.set m ReaderRec.reset }
  listed.foldl Store.freeUnread st1

/-- R121: the frame store's side of the teardown of an analysis master. -/
def State.storeTeardown (s : State) (m : Analysis) : State :=
  let s1 := s.updStore (fun st => st.teardown m)
  allPorts.foldl (fun s p => s.updPort p (fun r => { r with subscribers := r.subscribers.set m false })) s1

end Sys2Proof.Machine
end

