-- ==== Sys2Proof/Machine/LensOps.lean ====
section
/-! DEFINITION. The lens controller's shared operations (chapter 6): moves, what stands on an axis, holds, events, and what a
HELLO and a departure from UP do to a lens record. -/

namespace Sys2Proof.Machine

/-- Whether an axis of the camera is MOVING. -/
def LensRec.anyMoving (l : LensRec) : Bool := l.axes.any (fun a => (a.map (fun x => decide (x.motion = .moving))).getD false)

/-- The axes of the camera that are STALLED. -/
def LensRec.stalledAxes (l : LensRec) : List Axis :=
  l.axes.axes (fun a => (a.map (fun x => decide (x.motion = .stalled))).getD false)

/-- Whether an axis of the camera is STALLED. -/
def LensRec.anyStalled (l : LensRec) : Bool := !l.stalledAxes.isEmpty

/-- Whether the axis set is empty. -/
def LensRec.noAxes (l : LensRec) : Bool := !(l.axes.any Option.isSome)

/-- The targets of a move that name axes of the camera: the moved axes (R131). -/
def LensRec.movedTargets (l : LensRec) (targets : PerAxis (Option Nat)) : PerAxis (Option Nat) :=
  l.axes.zipWith (fun a t => if a.isSome then t else none) targets

/-- The axes a move names that the camera lacks, listed in the reply as ignored (R130). DESIGN CHOICE (log entry 61): they are
listed in the order focus, iris, zoom. -/
def LensRec.ignoredAxes (l : LensRec) (targets : PerAxis (Option Nat)) : List Axis :=
  (l.axes.zipWith (fun a t => a.isNone && t.isSome) targets).axes id

/-- R131: the distance of a move, 4095 where the position is UNKNOWN. -/
def moveDistance (position : Option Nat) (target : Nat) : Nat :=
  match position with
  | some q => if q ≤ target then target - q else q - target
  | none => 4095

/-- R131: the travel time, ms. -/
def travelTime (a : AxisRec) (target : Nat) : Nat := ceilDiv (moveDistance a.position target) a.speed

/-- R131, step 2: a moved axis. -/
def AxisRec.moveTo (now : Time) (allowance target : Nat) (a : AxisRec) : AxisRec :=
  { a with target := some target, motion := .moving,
           deadline := some (now + ms (travelTime a target) + ms allowance + ms 500) }

/-- An axis taken to IDLE, its target and deadline cleared. -/
def AxisRec.toIdle (a : AxisRec) : AxisRec := { a with target := none, motion := .idle, deadline := none }

/-- R131, steps 2 and 3, for one axis. -/
def AxisRec.moved (now : Time) (allowance : Nat) (a : Option AxisRec) (t : Option Nat) : Option AxisRec :=
  match a, t with
  | some a, some t => some (a.moveTo now allowance t)
  | some a, none => some (if a.motion = .stalled then a.toIdle else a)
  | none, _ => none

/-- R131: the move of a master. A move without moved axes sends nothing and changes nothing. -/
def State.makeMove (s : State) (p : Port) (targets : PerAxis (Option Nat)) (allowance : Nat) (mover : Option Master) : State :=
  let goto := (s.port p).lens.movedTargets targets
  if !goto.any Option.isSome then s
  else
    (s.handDown p (.lensGoto goto)).updLens p
      (fun l => { l with axes := l.axes.zipWith (AxisRec.moved s.now allowance) goto, mover := mover })

/-- The holder becomes none and the implicit flag is cleared (R125, R127, R128, R172). -/
def LensRec.freed (l : LensRec) : LensRec := { l with holder := none, implicit := false }

/-- R135: the addressee of a LENS_EVENT. -/
def LensRec.addressee (l : LensRec) : Option Master :=
  match l.holder with
  | some m => some m
  | none => l.mover

/-- R135: what a LENS_EVENT carries of an axis. -/
def AxisRec.standing (a : AxisRec) : AxisStanding := ⟨a.position, a.target, a.motion⟩

/-- R135: what a LENS_EVENT carries of the camera's axes. -/
def LensRec.standing (l : LensRec) : PerAxis (Option AxisStanding) := l.axes.map (Option.map AxisRec.standing)

/-- R135: a LENS_EVENT to its addressee, with the lens record as it stands. -/
def State.lensEvent (s : State) (p : Port) (cause : LensCause) : State :=
  let l := (s.port p).lens
  s.notifyOpt l.addressee false (.lensEvent p cause l.standing l.holder l.implicit)

/-- R124: an axis of the new axis set. -/
def freshAxis (speed : Option Nat) : Option AxisRec :=
  speed.map (fun v => { speed := v, position := none, target := none, motion := .idle, deadline := none })

/-- R124: the axis set rebuilt from an accepted HELLO; the holder, the implicit flag and the mover are kept. -/
def State.rebuildAxes (s : State) (p : Port) (speeds : PerAxis (Option Nat)) : State :=
  s.updLens p (fun l => { l with axes := speeds.map freshAxis })

/-- R138: an axis when the link leaves UP. -/
def AxisRec.linkLeft (a : AxisRec) : AxisRec := { a.toIdle with position := none }

/-- R138: the link leaves UP: positions UNKNOWN, every axis IDLE, targets and deadlines cleared. -/
def State.lensLinkLeft (s : State) (p : Port) : State :=
  s.updLens p (fun l => { l with axes := l.axes.map (Option.map AxisRec.linkLeft) })

/-- R81: the lens snapshot of a new frame. -/
def LensRec.snapshot (l : LensRec) : PerAxis (Option Nat) := l.axes.map (fun a => a.bind AxisRec.position)

/-- Whether another master than `m` holds the lens. -/
def LensRec.heldByOther (l : LensRec) (m : Master) : Bool :=
  match l.holder with
  | some h => decide (h ≠ m)
  | none => false

end Sys2Proof.Machine
end

