-- ==== Sys2Proof/Machine/PresetOps.lean ====
section
/-! DEFINITION. The preset store's shared operations (chapter 7): what a record reads as, the write engine, and the loading of
live values at a reset. -/

namespace Sys2Proof.Machine

/-- R142: what a preset reads as; `none` is EMPTY. -/
def PresetStore.preset (st : PresetStore) (n : Fin 64) : Option Preset :=
  let r := st.presets.get n
  if r.valid then r.content else none

/-- R142: what a port profile reads as. -/
def PresetStore.profile (st : PresetStore) (p : Port) : Profile :=
  let r := st.profiles.get p
  if r.valid then r.content else Profile.default

/-- R142: what the cell record reads as. -/
def PresetStore.cellContent (st : PresetStore) : Cell := if st.cell.valid then st.cell.content else Cell.default

/-- Whether the write engine is writing a record (R146). -/
def PresetStore.writing (st : PresetStore) (r : RecordName) : Bool :=
  match st.write with
  | some w => decide (w.record = r)
  | none => false

/-- The preset a preset number names, if it lies in 0..63. -/
def presetNo (n : Nat) : Option (Fin 64) := if h : n < 64 then some ⟨n, h⟩ else none

/-- The validity mark of a record set invalid (R142). -/
def PresetStore.invalidate (st : PresetStore) : RecordName → PresetStore
  | .preset n => { st with presets := st.presets.set n { st.presets.get n with valid := false } }
  | .profile p => { st with profiles := st.profiles.set p { st.profiles.get p with valid := false } }
  | .cell => { st with cell := { st.cell with valid := false } }

/-- R145: a write that starts: the engine WRITING, the record invalid. -/
def PresetStore.startWrite (st : PresetStore) (w : Write) : PresetStore :=
  { st.invalidate w.record with write := some w }

/-- R146, R147: the new content programmed into the record and its mark written valid. -/
def PresetStore.program (st : PresetStore) (record : RecordName) (content : NewContent) : PresetStore :=
  match record, content with
  | .preset n, .preset c => { st with presets := st.presets.set n ⟨true, c⟩ }
  | .profile p, .profile c => { st with profiles := st.profiles.set p ⟨true, c⟩ }
  | .cell, .cell c => { st with cell := ⟨true, c⟩ }
  | _, _ => st

/-- R147: the live values a completed write replaces. -/
def State.loadWritten (s : State) (content : NewContent) (record : RecordName) : State :=
  match record, content with
  | .profile p, .profile c => s.updPort p (fun r => { r with profile := c })
  | .cell, .cell c =>
    let s1 := s.updMgr (fun g => { g with budget := c.budget, stagger := c.stagger })
    { s1 with lines := Vector.ofFn (fun l => { s1.lines.get l with settings := c.lines.get l }) }
  | _, _ => s

/-- The sixty-four preset numbers in order. -/
def allPresets : List (Fin 64) := List.finRange 64

/-- R153: the load report: the invalid records in the order PRESET 0..63, PROFILE 0..7, CELL. -/
def PresetStore.invalidRecords (st : PresetStore) : List RecordName :=
  (allPresets.filter (fun n => !(st.presets.get n).valid)).map RecordName.preset ++
    (allPorts.filter (fun p => !(st.profiles.get p).valid)).map RecordName.profile ++
    (if st.cell.valid then [] else [RecordName.cell])

/-- R143, R153: the store after a reset: a write in progress is abandoned, the load report is rebuilt; POR clears FAULT and
lock-down, warm reset keeps both. DESIGN CHOICE (log entry 62): the record of an abandoned write has its former content under the
invalid mark. -/
def PresetStore.afterReset (st : PresetStore) (kind : ResetKind) : PresetStore :=
  { st with write := none, loadReport := st.invalidRecords,
            fault := decide (kind = .warm) && st.fault, lockDown := decide (kind = .warm) && st.lockDown }

/-- R26: the budget admission judges a port by: while a cell record is being written, the lower of the live budget and the
budget being written. -/
def State.effectiveBudget (s : State) : Nat :=
  match s.presets.write with
  | some w =>
    match w.content with
    | .cell c => min s.mgr.budget c.budget
    | _ => s.mgr.budget
  | none => s.mgr.budget

end Sys2Proof.Machine
end

