-- ==== Sys2Proof/Machine/SeqOps.lean ====
section
/-! DEFINITION. The sequencer's shared operations (chapter 8): entering, starting and completing steps, the end of a run, the
start of a run, and what reports, motion changes and lost claims do to a context. -/

namespace Sys2Proof.Machine

/-- The current step of a context. -/
def SeqCtx.currentStep (c : SeqCtx) : Option Step :=
  match c.steps, c.index with
  | some l, some i => l[i]?
  | _, _ => none

/-- RUNNING or HELD. -/
def SeqCtx.active (c : SeqCtx) : Bool := decide (c.state = .running) || decide (c.state = .held)

/-- Whether the context is RUNNING in a phase. -/
def SeqCtx.inPhase (c : SeqCtx) (f : Phase) : Bool := decide (c.state = .running) && decide (c.phase = some f)

/-- A SEQUENCE_EVENT to the starter (R177), urgent only where its end says so. -/
def State.seqEvent (s : State) (p : Port) (urgent : Bool) (cause : SeqCause) (step : Option Nat) : State :=
  let c := (s.port p).seq
  s.notifyOpt c.starter urgent (.sequenceEvent p cause c.runs step)

/-! ## The end of a run (R172) -/

/-- What an end's notice carries beside its status (R177). -/
structure EndExtras where
  frame : Option Nat := none
  lengths : Option (Nat × Nat) := none
  axis : Option Axis := none
  preset : Option Nat := none
  deriving DecidableEq, Repr

/-- R172: the class of an end. -/
def EndStatus.urgent : EndStatus → Bool
  | .normal | .halted => false
  | _ => true

/-- R172, step 1 and the context's side of step 2. -/
def SeqCtx.ending (status : EndStatus) (c : SeqCtx) : SeqCtx :=
  { c with state := .ready, ended := some (status, c.index.getD 0), index := none, phase := none, deadline := none,
           bound := none, reservedPages := 0, reservedRecords := 0 }

/-- The cadence cancelled (R172, R179). -/
def SeqCtx.cancelCadence (c : SeqCtx) : SeqCtx := { c with period := 0, cadence := none }

/-- Whether a lens is held by a master with the implicit flag set (R172, step 3). -/
def LensRec.implicitFor (l : LensRec) (m : Option Master) : Bool := l.implicit && l.holder.isSome && decide (l.holder = m)

/-- R172: a run ends: the status is recorded, the reservation released, an implicit hold of the starter freed, the cadence
cancelled unless NORMAL, and ENDED sent. DESIGN CHOICE (log entry 56): ENDED says that the hold was freed where this end itself frees
it, and so not at a HOLD_LAPSED, whose hold has been freed before. -/
def State.endRun (s : State) (p : Port) (status : EndStatus) (x : EndExtras := {}) : State :=
  let c := (s.port p).seq
  let s1 := (s.updSeq p (SeqCtx.ending status)).updStore (fun st => st.unreserve c.reservedPages c.reservedRecords)
  let frees := (s1.port p).lens.implicitFor c.starter
  let s2 := if frees then s1.updLens p LensRec.freed else s1
  let s3 := if status = .normal then s2 else s2.updSeq p SeqCtx.cancelCadence
  s3.seqEvent p status.urgent
    (.ended { status := status, holdFreed := frees, frame := x.frame, lengths := x.lengths, axis := x.axis, preset := x.preset })
    (some (c.index.getD 0))

/-! ## Steps (R160 to R170) -/

/-- A context waiting in a phase with a deadline. -/
def SeqCtx.waitIn (f : Phase) (deadline : Option Time) (c : SeqCtx) : SeqCtx :=
  { c with phase := some f, deadline := deadline }

/-- R162: a LENS step's move, or its wait for the write engine, or the end PRESET_MISSING; the flag says that the step has
completed. -/
def State.lensStep (s : State) (p : Port) (preset : Option Nat) (targets : PerAxis (Option Nat)) (allowance : Option Nat) :
    State × Bool :=
  let starter := (s.port p).seq.starter
  match preset with
  | none => (s.makeMove p targets (allowance.getD 20) starter, true)
  | some k =>
    match presetNo k with
    | none => (s.endRun p .presetMissing { preset := some k }, false)
    | some n =>
      if s.presets.writing (.preset n) then (s.updSeq p (SeqCtx.waitIn .storeWait none), false)
      else
        match s.presets.preset n with
        | none => (s.endRun p .presetMissing { preset := some k }, false)
        | some c =>
          if c.port = none ∨ c.port = some p then (s.makeMove p c.targets (allowance.getD c.settle) starter, true)
          else (s.endRun p .presetMissing { preset := some k }, false)

/-- R164: a SETTLE step looks at the camera's axes. DESIGN CHOICE (log entry 54): the end LENS_STALLED of a step that finds axes
STALLED names the first of them, in the order focus, iris, zoom. -/
def State.settleStep (s : State) (p : Port) (timeout : Nat) : State × Bool :=
  let l := (s.port p).lens
  match l.stalledAxes with
  | a :: _ => (s.endRun p .lensStalled { axis := some a }, false)
  | [] =>
    if l.anyMoving then (s.updSeq p (SeqCtx.waitIn .settling (some (s.now + ms timeout))), false) else (s, true)

/-- R166: the TRIGGER handed to the down-channel; the close timeout runs from here. -/
def State.handTrigger (s : State) (p : Port) (exposure : Option Nat) (close : Nat) : State :=
  (s.handDown p (.trigger exposure)).updSeq p (SeqCtx.waitIn .openWait (some (s.now + ms close)))

/-- R160 to R170: a step starts and runs by its kind; the flag says that it has completed at once. -/
def State.startStep (s : State) (p : Port) (st : Step) : State × Bool :=
  let s1 := s.updSeq p (fun c => { c with state := .running, phase := none, deadline := none })
  let s2 := if st.note then s1.seqEvent p false .note (s1.port p).seq.index else s1
  match st.kind with
  | .lens preset targets allowance => s2.lensStep p preset targets allowance
  | .settle timeout => s2.settleStep p timeout
  | .await _ timeout =>
    (s2.updSeq p (SeqCtx.waitIn .awaiting (if timeout = 0 then none else some (s2.now + ms timeout))), false)
  | .trigger exposure _ _ close =>
    if (s2.port p).intake.state = .filling then (s2.updSeq p (SeqCtx.waitIn .intakeWait none), false)
    else (s2.handTrigger p exposure (closeTimeoutOf close), false)
  | .dwell time => (s2.updSeq p (SeqCtx.waitIn .dwelling (some (s2.now + ms time))), false)

/-- R160: what a completed step leaves: its phase, deadline and bound frame cleared. -/
def SeqCtx.stepDone (c : SeqCtx) : SeqCtx := { c with phase := none, deadline := none, bound := none }

/-- R160: the next step is the current one. -/
def SeqCtx.advance (c : SeqCtx) : SeqCtx := { c with index := c.index.map (· + 1) }

/-- R160: the current step is entered: HELD before it, or started; a step that completes at once is followed at once by the
next. A list has at most 16 steps, which bounds the chain. -/
def State.enterStep : Nat → State → Port → State
  | 0, s, _ => s
  | fuel + 1, s, p =>
    match (s.port p).seq.currentStep with
    | none => s
    | some st =>
      if st.hold then
        (s.updSeq p (fun c => { c with state := .held, phase := some .before, deadline := none })).seqEvent p false .held
          (s.port p).seq.index
      else
        let r := s.startStep p st
        if !r.2 then r.1
        else if st.chain then State.enterStep fuel ((r.1.updSeq p SeqCtx.stepDone).updSeq p SeqCtx.advance) p
        else (r.1.updSeq p SeqCtx.stepDone).endRun p .normal

/-- Entering steps enough for any step list. -/
def State.enterSteps (s : State) (p : Port) : State := State.enterStep 17 s p

/-- R160: the current step completes: the next is entered, or the run ends NORMAL. -/
def State.completeStep (s : State) (p : Port) : State :=
  match (s.port p).seq.currentStep with
  | none => s
  | some st =>
    let s1 := s.updSeq p SeqCtx.stepDone
    if st.chain then (s1.updSeq p SeqCtx.advance).enterSteps p else s1.endRun p .normal

/-- R161, R163: a step started again from a wait; completion follows at once where it completes. -/
def State.afterStart (r : State × Bool) (p : Port) : State := if r.2 then r.1.completeStep p else r.1

/-! ## Starting a run (R158, R159, R176) -/

/-- R158, R176: the rows from CAMERA_UNAVAILABLE down. -/
def State.judgeStart (s : State) (p : Port) (caller : Master) : Result :=
  let r := s.port p
  if r.link.state ≠ .up ∨ r.marks.sweepPending = true ∨ r.marks.testing = true then .cameraUnavailable
  else if r.lens.heldByOther caller then .lensHeld
  else if !s.store.grants r.seq.pageCount r.seq.recordCount then .noSpace
  else .done

/-- R159: a run starts. `period` is the requested cadence period, absent for a restart by the cadence, which leaves period and
deadline as R175 set them. -/
def State.startRun (s : State) (p : Port) (caller : Master) (period : Option Nat) : State :=
  let c := (s.port p).seq
  let free := (s.port p).lens.holder.isNone
  let s1 := s.updStore (fun st => st.reserve c.pageCount c.recordCount)
  let s2 := if free then s1.updLens p (fun l => { l with holder := some caller, implicit := true }) else s1
  let s3 := s2.updSeq p (fun c =>
    { c with reservedPages := c.pageCount, reservedRecords := c.recordCount, tookHold := free, starter := some caller,
             runs := satInc c.runs, lastEdge := none, state := .running, index := some 0, phase := none, deadline := none,
             bound := none })
  let s4 := match period with
    | some t => s3.updSeq p (fun c => { c with period := t, cadence := if t = 0 then none else some (s.now + ms t) })
    | none => s3
  s4.enterSteps p

/-! ## What reaches a context from other blocks -/

/-- R12, R173: the camera is lost. -/
def State.seqCameraLost (s : State) (p : Port) : State :=
  if (s.port p).seq.active then s.endRun p .cameraLost else s

/-- R128, R129: the hold of a run has lapsed. -/
def State.seqHoldLapsed (s : State) (p : Port) : State :=
  if (s.port p).seq.active then s.endRun p .holdLapsed else s

/-- R164: an axis went to IDLE by settling or by STOP_LENS. -/
def State.seqAxisIdle (s : State) (p : Port) : State :=
  if (s.port p).seq.inPhase .settling && !(s.port p).lens.anyMoving then s.completeStep p else s

/-- R164: an axis went to STALLED. -/
def State.seqAxisStalled (s : State) (p : Port) (a : Axis) : State :=
  if (s.port p).seq.inPhase .settling then s.endRun p .lensStalled { axis := some a } else s

/-- The intake's report of a bound frame's end (R93, R94): a frame stored, with its delivered lines, the step's shape lines, its
missing and damaged counts, its tag set and, where it had stored lines, its id; or a frame discarded. -/
inductive FrameReport
  | stored (delivered lines missing damaged : Nat) (tags : Tags) (frame : Option Nat)
  | discarded
  | widthMismatch (lines : Nat)
  deriving DecidableEq, Repr

/-- R168: the report decides the step. -/
def State.seqReport (s : State) (p : Port) (r : FrameReport) : State :=
  match r with
  | .stored delivered lines _ _ tags frame =>
    let lenient := ((s.port p).seq.currentStep.map Step.lenient).getD false
    if lenient || (decide (delivered = lines) && !tags.truncated) then s.completeStep p
    else s.endRun p .lengthMismatch { frame := frame, lengths := some (delivered, lines) }
  | .discarded => s.completeStep p
  | .widthMismatch lines => s.endRun p .lengthMismatch { lengths := some (0, lines) }

/-- R163: a LENS step waiting on preset `n` reads it again. -/
def State.seqStoreDone (s : State) (p : Port) (n : Fin 64) : State :=
  if !(s.port p).seq.inPhase .storeWait then s
  else
    match (s.port p).seq.currentStep with
    | some st =>
      match st.kind with
      | .lens (some k) targets allowance =>
        if k = n.val then State.afterStart (s.lensStep p (some k) targets allowance) p else s
      | _ => s
    | none => s

/-- R179: the cadence of a READY context started by the torn-down master is cancelled. -/
def State.seqTeardown (s : State) (p : Port) (m : Master) : State :=
  if (s.port p).seq.state = .ready ∧ (s.port p).seq.starter = some m then s.updSeq p SeqCtx.cancelCadence else s

end Sys2Proof.Machine
end

