-- ==== Sys2Proof/Machine/IntakeOps.lean ====
section
/-! DEFINITION. The frame intake's shared operations (chapter 4): pages for lines, holes, storing a line, finalization,
discarding and what the link's departure does to a frame. -/

namespace Sys2Proof.Machine

/-! ## Binding (R76, R93) -/

/-- Whether the intake's current frame is bound to a step still in progress (R93, R94, R174): the context is in FRAME_WAIT and
its bound frame is this intake's open frame, or the frame being discarded. -/
def PortRec.boundLive (r : PortRec) : Bool :=
  r.intake.bound.isSome && r.seq.inPhase .frameWait &&
    (match r.seq.bound, r.intake.state, r.intake.openFrame with
      | some (.frame id), .filling, some f => id == f
      | some .discarded, .discarding, _ => true
      | _, _, _ => false)

/-- The intake with no current frame (R91 step 5, R94 step 3). The line buffers, the pending origin and the last activity time
stay as they are. DESIGN CHOICE (log entry 50): the highest index and the declared width, which R94 does not name, become absent
with the shape at the end of a discarding too. -/
def IntakeRec.toIdle (i : IntakeRec) : IntakeRec :=
  { i with state := .idle, openFrame := none, bound := none, width := none, declaredWidth := none, lines := none,
           capacity := none, highest := none, cutOff := false, cause := none, counts := none }

/-! ## Pages and holes (R82, R85, R86) -/

/-- R85: a cut-off frame: the flag set, tags CUT_OFF and PARTIAL. -/
def State.cutFrame (s : State) (p : Port) (id : Nat) : State :=
  (s.updIntake p (fun i => { i with cutOff := true })).updFrame id
    (fun f => { f with tags := { f.tags with cutOff := true, isPartial := true } })

/-- R85: the pages for the first `n` lines of frame `id`; the flag says whether the frame has them. An unsequenced frame may
reclaim, and is cut off where its need cannot be met. -/
def State.needPages (s : State) (p : Port) (id n : Nat) : State × Bool :=
  match s.frame? id with
  | none => (s, false)
  | some f =>
    let short := pagesFor n f.width - f.pages.length
    if short = 0 then (s, true)
    else if (s.port p).intake.bound.isSome then (s.updStore (fun st => st.drawReserved id short), true)
    else
      let s1 := s.reclaimPages (s.store.frames.length + 1) short
      if short ≤ s1.store.unreservedPages then (s1.updStore (fun st => st.drawPages id short), true)
      else (s1.cutFrame p id, false)

/-- R86: lines `lo` to `hi` - 1 of a frame filled with zeros in its pages. -/
def State.zeroLines (s : State) (id lo hi : Nat) : State :=
  match s.frame? id with
  | none => s
  | some f =>
    s.updStore (fun st => { st with dram := zeroFrameBytes (lo * f.width) (hi * f.width) 0 f.pages st.dram })

/-- Holes: lines `lo` to `hi` - 1 zero-filled and counted missing, the frame tagged GAPS (R86, R90). -/
def State.fillHoles (s : State) (id lo hi : Nat) : State :=
  if hi ≤ lo then s
  else (s.zeroLines id lo hi).updFrame id
    (fun f => { f with missing := f.missing + (hi - lo), tags := { f.tags with gaps := true } })

/-- R86: a payload cut or zero-extended to a width. -/
def fitLine (w : Nat) (payload : List Byte) : List Byte := (payload ++ List.replicate (w - payload.length) 0).take w

/-- R86: line `k` of the open frame is stored. -/
def State.storeLine (s : State) (p : Port) (id k : Nat) (payload : List Byte) (damaged : Bool) : State :=
  let i := (s.port p).intake
  let next := match i.highest with
    | some h => h + 1
    | none => 0
  let bad := damaged || decide (i.declaredWidth ≠ some payload.length)
  let s1 := s.fillHoles id next k
  let s2 := s1.updFrame id (fun f =>
    { f with stored := k + 1
             damaged := if bad then f.damaged + 1 else f.damaged
             firstDamaged := if bad && f.firstDamaged.isNone then some k else f.firstDamaged
             tags := if bad then { f.tags with damaged := true } else f.tags })
  s2.updIntake p (fun i =>
    { i with highest := some k, buffers := i.buffers ++ [⟨id, k, fitLine (i.width.getD 0) payload⟩] })

/-- A buffered line written to its position in its frame's pages (R82, R87). -/
def State.writeBuffered (s : State) (b : BufferedLine) : State :=
  match s.frame? b.frame with
  | none => s
  | some f => s.updStore (fun st => { st with dram := writeFrameBytes f.pages (b.index * f.width) b.bytes st.dram })

/-! ## Finalization (R91 to R93) -/

/-- R91, step 1: the frame's buffered lines written, oldest first, and their buffers emptied. -/
def State.flushFrame (s : State) (p : Port) (id : Nat) : State :=
  (((s.port p).intake.buffers.filter (fun b => b.frame == id)).foldl State.writeBuffered s).updIntake p
    (fun i => { i with buffers := i.buffers.filter (fun b => !(b.frame == id)) })

/-- R91, step 2: a sequenced frame of a LENIENT step that is not PARTIAL and is short is padded with zeros. -/
def State.padFrame (s : State) (p : Port) (id : Nat) : State :=
  match s.frame? id with
  | none => s
  | some f =>
    if ((s.port p).intake.bound.map BoundStep.lenient).getD false && !f.tags.isPartial && decide (f.stored < f.lines) then
      ((s.needPages p id f.lines).1.zeroLines id f.stored f.lines).updFrame id
        (fun g => { g with missing := g.missing + (f.lines - f.stored), stored := f.lines,
                           tags := { g.tags with padded := true } })
    else s

/-- The tags a cause of finalization adds (R91). -/
structure EndTags where
  isPartial : Bool
  missingClose : Bool
  deriving DecidableEq, Repr

/-- R93: the report of a frame with its counts fixed, `delivered` being its stored lines before padding; a frame without stored
lines has been freed at its handover and is reported without its id. DESIGN CHOICE (log entry 27): one with stored lines that its
handover has freed, its readers gone or given up, is reported with it. -/
def FrameRec.report (delivered : Nat) (f : FrameRec) : FrameReport :=
  .stored delivered f.lines f.missing f.damaged f.tags (if f.stored = 0 then none else some f.id)

/-- R91: the open frame of a port is finalized; `reports` is clear where the sequencer itself asked for it and acts next
(R96, R169). -/
def State.finalize (s : State) (p : Port) (t : EndTags) (reports : Bool) : State :=
  match (s.port p).intake.openFrame with
  | none => s.updIntake p IntakeRec.toIdle
  | some id =>
    let live := (s.port p).boundLive
    let s0 := s.updFrame id (fun f =>
      { f with tags := { f.tags with isPartial := f.tags.isPartial || t.isPartial,
                                     missingClose := f.tags.missingClose || t.missingClose } })
    let s1 := s0.flushFrame p id
    let delivered := ((s1.frame? id).map FrameRec.stored).getD 0
    let s2 := s1.padFrame p id
    let report := (s2.frame? id).elim (FrameReport.stored 0 0 0 0 Tags.none none) (FrameRec.report delivered)
    let s3 := s2.updFrame id (fun f => { f with closeTime := some s.now })
    let s4 := s3.updStore (fun st => st.releaseStep id)
    let s5 := s4.updIntake p IntakeRec.toIdle
    let s6 := s5.handover id
    if live && reports then s6.seqReport p report else s6

/-! ## Discarding (R79, R83, R94) -/

/-- The first index a discarded or stored line may have next: one above the highest index. -/
def IntakeRec.nextIndex (i : IntakeRec) : Nat :=
  match i.highest with
  | some h => h + 1
  | none => 0

/-- R83: a LINE taken in DISCARDING while discard counts are kept. -/
def State.countDiscarded (s : State) (p : Port) (k length : Nat) (damaged : Bool) : State :=
  let i := (s.port p).intake
  match i.counts with
  | none => s
  | some n =>
    if k < i.nextIndex then s.countStray p
    else if i.lines.getD 0 ≤ k then s
    else
      let bad := damaged || decide (i.declaredWidth ≠ some length)
      s.updIntake p (fun i =>
        { i with counts := some { received := n.received + 1, missing := n.missing + (k - i.nextIndex),
                                  damaged := if bad then n.damaged + 1 else n.damaged },
                 highest := some k })

/-- What ended the discarding (R94). -/
inductive DiscardEnd | close (c : Nat) | inactivity | newFrame | linkLeft
  deriving DecidableEq, Repr

/-- R94, step 1: the tail holes of a FRAME_CLOSE. -/
def IntakeRec.closeTail (e : DiscardEnd) (i : IntakeRec) : Option DiscardCounts :=
  match e, i.counts with
  | .close c, some n => some { n with missing := n.missing + (min c (i.lines.getD 0) - i.nextIndex) }
  | _, n => n

/-- R94, step 2: what the end of the discarding reports, where the frame is bound to a step still in progress and the link
has not left UP. -/
def State.reportDiscard (s : State) (p : Port) (e : DiscardEnd) : State :=
  let r := s.port p
  if !(r.boundLive && decide (e ≠ .linkLeft)) then s
  else
    match r.intake.cause with
    | some .discardStep | some .noReaders =>
      (s.notifyOpt r.seq.starter false (.frameSummary p ((r.intake.closeTail e).getD ⟨0, 0, 0⟩))).seqReport p .discarded
    | some .widthMismatch => s.seqReport p (.widthMismatch (r.intake.lines.getD 0))
    | _ => s

/-- R94: the discarding ends: the close tail, the report, the intake IDLE. -/
def State.endDiscard (s : State) (p : Port) (e : DiscardEnd) : State :=
  (s.reportDiscard p e).updIntake p IntakeRec.toIdle

/-- The intake enters DISCARDING (4.2). -/
def State.discard (s : State) (p : Port) (cause : DiscardCause) (counts : Option DiscardCounts) : State :=
  s.updIntake p (fun i => { i with state := .discarding, cause := some cause, counts := counts, highest := none,
                                   cutOff := false, capacity := none, openFrame := none })

/-! ## Opening a frame (R75 to R81) -/

/-- The origin of an unsequenced frame (R76). -/
def originOf : Option PendingOrigin → Origin
  | some (.triggerLine n) => .triggerLine n
  | some (.softFire m) => .softFire m
  | none => .freeRun

/-- R79: the reader set: the subscriber set and, for a sequenced frame, a starter that is A or B. -/
def readerSet (subs : PerAnalysis Bool) (starter : Option Master) : PerAnalysis Bool :=
  ⟨subs.a || decide (starter = some .A), subs.b || decide (starter = some .B)⟩

/-- R81: the line capacity: whole lines within the frame limit, at most the shape lines. -/
def lineCapacity (lines width : Nat) : Nat := min lines (Config.frameBytes / width)

/-- The shape of a frame being opened. -/
structure Opening where
  frameNo : Nat
  declaredWidth : Nat
  declaredLines : Nat
  width : Nat
  lines : Nat
  origin : Origin
  readers : PerAnalysis Bool
  fitted : Bool
  deriving DecidableEq, Repr

/-- R81: the record taken for a frame is filled in and the intake enters FILLING; `pages` is the step's share for a sequenced
frame, 0 otherwise. -/
def State.openRecord (s : State) (p : Port) (o : Opening) (share : Nat) : State :=
  let id := s.store.newId
  let l := (s.port p).lens
  let f : FrameRec :=
    { id := id, port := p, origin := o.origin, state := .filling, openTime := s.now, closeTime := none, width := o.width,
      lines := o.lines, stored := 0, cameraNo := o.frameNo, cameraLines := o.declaredLines, missing := 0, damaged := 0,
      firstDamaged := none, tags := { Tags.none with shapeFitted := o.fitted, lensMoving := l.anyMoving },
      snapshot := l.snapshot, pages := [], readers := o.readers, pins := ⟨0, 0⟩, readyTime := none, handover := none,
      stepReserved := share }
  (s.updStore (fun st => { st with frames := st.frames ++ [f], nextId := succId id })).updIntake p
    (fun i => { i with state := .filling, openFrame := some id, capacity := some (lineCapacity o.lines o.width),
                       highest := none, cutOff := false, cause := none, counts := none })

/-- The shape recorded in the intake at FRAME_OPEN (R76). -/
def IntakeRec.shaped (width declared lines : Nat) (bound : Option BoundStep) (i : IntakeRec) : IntakeRec :=
  { i with width := some width, declaredWidth := some declared, lines := some lines, bound := bound }

/-- R78 to R81 for a frame bound to step `st` of kind TRIGGER with `lines` lines of `width` bytes. -/
def State.openSequenced (s : State) (p : Port) (st : Step) (frameNo declared declaredLines lines width : Nat) : State :=
  let c := (s.port p).seq
  let i := c.index.getD 0
  let s1 := (s.updIntake p (IntakeRec.shaped width declared lines (some ⟨i, st.lenient⟩))).updSeq p
    (fun c => { c with phase := some .frameWait, bound := some .discarded })
  let readers := readerSet (s.port p).subscribers c.starter
  if declared ≠ width ∧ st.lenient = false then s1.discard p .widthMismatch none
  else if st.discard then s1.discard p .discardStep (some ⟨0, 0, 0⟩)
  else if readers.isEmpty then s1.discard p .noReaders (some ⟨0, 0, 0⟩)
  else
    let share := pagesFor lines width
    let id := s1.store.newId
    let s2 := s1.updSeq p (fun c => { c with bound := some (.frame id), reservedPages := c.reservedPages - share,
                                             reservedRecords := c.reservedRecords - 1 })
    let s3 := s2.updStore (fun t => { t with reservedRecords := t.reservedRecords - 1 })
    s3.openRecord p
      { frameNo := frameNo, declaredWidth := declared, declaredLines := declaredLines, width := width, lines := lines,
        origin := .sequence (c.starter.getD .C) i, readers := readers, fitted := decide (declared ≠ width) } share

/-- R77, R79 to R81 for an unsequenced frame. -/
def State.openUnsequenced (s : State) (p : Port) (pending : Option PendingOrigin) (frameNo width lines : Nat) : State :=
  let s1 := s.updIntake p (IntakeRec.shaped width width lines none)
  let readers := (s.port p).subscribers
  let o : Opening :=
    { frameNo := frameNo, declaredWidth := width, declaredLines := lines, width := width, lines := lines,
      origin := originOf pending, readers := readers, fitted := false }
  if !(within 16 32768 width && decide (width % 16 = 0) && within 1 16384 lines) then
    (s1.countRefused p).discard p .refused none
  else if readers.isEmpty then s1.discard p .noReaders none
  else if 1 ≤ s1.store.unreservedRecords then s1.openRecord p o 0
  else
    match s1.reclaimOne with
    | some s2 => s2.openRecord p o 0
    | none => (s1.countRefused p).discard p .refused none

/-- R75, first table: what the previous frame was doing is ended. -/
def State.endPrevious (s : State) (p : Port) : State :=
  match (s.port p).intake.state with
  | .idle => s
  | .filling => s.finalize p ⟨true, true⟩ true
  | .discarding => s.endDiscard p .newFrame

/-- R75: the arrival recorded, the pending origin cleared. -/
def IntakeRec.opening (now : Time) (i : IntakeRec) : IntakeRec := { i with lastActivity := some now, pendingOrigin := none }

/-- R75, R76: a FRAME_OPEN taken by the intake. -/
def State.openFrame (s : State) (p : Port) (frameNo width lines : Nat) : State :=
  let s1 := s.endPrevious p
  let pending := (s1.port p).intake.pendingOrigin
  let s2 := s1.updIntake p (IntakeRec.opening s.now)
  match (s2.port p).seq.inPhase .openWait, (s2.port p).seq.currentStep with
  | true, some st =>
    match st.kind with
    | .trigger _ stepLines stepWidth _ => s2.openSequenced p st frameNo width lines stepLines stepWidth
    | _ => s2.openUnsequenced p pending frameNo width lines
  | _, _ => s2.openUnsequenced p pending frameNo width lines

/-! ## Lines and closes (R83 to R86, R90) -/

/-- A tag set on a frame. -/
def State.tagFrame (s : State) (id : Nat) (f : Tags → Tags) : State := s.updFrame id (fun r => { r with tags := f r.tags })

/-- R84: a LINE taken in FILLING. -/
def State.lineFilling (s : State) (p : Port) (k : Nat) (payload : List Byte) (damaged : Bool) : State :=
  let i := (s.port p).intake
  match i.openFrame with
  | none => s
  | some id =>
    if i.cutOff then s
    else if k < i.nextIndex then s.countStray p
    else if i.capacity.getD 0 ≤ k then s.tagFrame id (fun t => { t with truncated := true })
    else if Config.lineBuffers ≤ i.buffers.length then s.tagFrame id (fun t => { t with overrun := true })
    else
      let r := s.needPages p id (k + 1)
      if r.2 then r.1.storeLine p id k payload damaged else r.1

/-- R83, R84: a LINE that reaches the intake. -/
def State.takeLine (s : State) (p : Port) (k : Nat) (payload : List Byte) (damaged : Bool) : State :=
  match (s.port p).intake.state with
  | .idle => s.countStray p
  | .discarding =>
    (s.updIntake p (fun i => { i with lastActivity := some s.now })).countDiscarded p k payload.length damaged
  | .filling => (s.updIntake p (fun i => { i with lastActivity := some s.now })).lineFilling p k payload damaged

/-- R90: what a close with count `c` adds before the finalization. -/
def State.closeFilling (s : State) (p : Port) (c : Nat) : State :=
  let i := (s.port p).intake
  match i.openFrame with
  | none => s
  | some id =>
    let cap := i.capacity.getD 0
    let s1 := if cap < c then s.tagFrame id (fun t => { t with truncated := true }) else s
    let next := i.nextIndex
    let upTo := min c cap
    if !i.cutOff && decide (next < c) && decide (next < upTo) then
      let r := s1.needPages p id upTo
      if r.2 then
        ((r.1.fillHoles id next upTo).updFrame id (fun f => { f with stored := upTo })).updIntake p
          (fun i => { i with highest := some (upTo - 1) })
      else r.1
    else s1

/-- R83, R90: a FRAME_CLOSE that reaches the intake. -/
def State.closeFrame (s : State) (p : Port) (c : Nat) : State :=
  match (s.port p).intake.state with
  | .idle => s.countStray p
  | .discarding => s.endDiscard p (.close c)
  | .filling => (s.closeFilling p c).finalize p ⟨false, false⟩ true

/-! ## The link leaves UP (R95) -/

/-- R95: the intake when the link leaves UP. -/
def State.intakeLinkLeft (s : State) (p : Port) : State :=
  let s1 := match (s.port p).intake.state with
    | .idle => s
    | .filling => s.finalize p ⟨true, false⟩ false
    | .discarding => s.endDiscard p .linkLeft
  s1.updIntake p (fun i => { i with pendingOrigin := none })

end Sys2Proof.Machine
end

