-- ==== Sys2Proof/Machine/LinkOps.lean ====
section
/-! DEFINITION. The link controller's shared operations (chapter 1) that need no power to be switched: receiving a packet,
training attempts, entry into UP, the departure from UP with its announcements, and power leaving ON. -/

namespace Sys2Proof.Machine

/-- R1: a packet at a rate is received when the receiver is connected and decodes at that rate. -/
def State.receives (s : State) (p : Port) (rate : Rate) : Bool :=
  (s.port p).link.state.connected && decide ((s.port p).link.listen = rate)

/-- R1, R17: the arrival of a received packet. -/
def LinkRec.heardPacket (now : Time) (l : LinkRec) : LinkRec :=
  { l with lastPacket := some now, attempt := l.attempt.map (fun a => { a with heard := true }) }

/-- R13: a LINK_EVENT to all masters, with the link as it stands after the change. -/
def State.linkEvent (s : State) (p : Port) (previous : LinkState) (windowCount : Option Nat) : State :=
  let l := (s.port p).link
  s.notifyAll (decide (l.state = .lost) && decide (previous ≠ .lost))
    (.linkEvent
      { port := p, previous := previous, new := l.state, rate := if l.state = .up then l.current else none,
        cause := if l.state = .lost ∨ l.state = .down then l.lastCause else none, degraded := l.degraded,
        changed := l.changed, windowCount := windowCount })

/-- R12: the error window and the DEGRADED mark cleared. -/
def LinkRec.noWindow (l : LinkRec) : LinkRec := { l with window := none, degraded := false }

/-- R12: the link has left UP, its new state entered: window and mark cleared, down-channel packets dropped, the sequencer, the
frame intake and the lens controller told in this order. -/
def State.announceLeft (s : State) (p : Port) : State :=
  ((((s.updLink p LinkRec.noWindow).dropDown p).seqCameraLost p).intakeLinkLeft p).lensLinkLeft p

/-- R12, R13: the announcements, where the link was UP, and the LINK_EVENT of the departure. -/
def State.leftFrom (s : State) (p : Port) (previous : LinkState) (windowCount : Option Nat) : State :=
  if previous = .up then (s.announceLeft p).linkEvent p previous windowCount else s

/-- R9: a training attempt at a rate: current rate, listen rate and a new attempt record. -/
def LinkRec.attemptAt (now : Time) (r : Rate) (l : LinkRec) : LinkRec :=
  { l with current := some r, listen := r,
           attempt := some { start := now, deadline := now + ms 200, cleanStart := none, heard := false } }

/-- R11: the link enters UP at the attempt's rate. -/
def LinkRec.enterUp (now : Time) (l : LinkRec) : LinkRec :=
  { l with state := .up, attempt := none, window := some ⟨now, 0⟩ }

/-- R9: a check-passed packet counts toward the clean run: it starts the run, completes it, or stands within it. -/
def State.countClean (s : State) (p : Port) : State :=
  let l := (s.port p).link
  if !l.state.inTraining then s
  else
    match l.attempt with
    | none => s
    | some a =>
      match a.cleanStart with
      | none => s.updLink p (fun l => { l with attempt := some { a with cleanStart := some s.now } })
      | some t =>
        if t + ms 10 ≤ s.now then (s.updLink p (LinkRec.enterUp s.now)).linkEvent p l.state none else s

/-- R16: the link leaves UP for RETRAINING at a rate, with a RATE_SET and a new attempt. -/
def State.enterRetraining (s : State) (p : Port) (r : Rate) (windowCount : Option Nat) : State :=
  let s1 := s.updLink p (fun l => { l with state := .retraining })
  ((s1.leftFrom p .up windowCount).handDown p (.rateSet r)).updLink p (LinkRec.attemptAt s.now r)

/-- R5, R19, R7: what the link part loses in DOWN. -/
def LinkRec.enterDown (cause : LinkCause) (l : LinkRec) : LinkRec :=
  { l with state := .down, lastCause := some cause, current := none, attempt := none, window := none,
           helloDeadline := none, lastPacket := none }

/-- R5, R19: power has left INRUSH or ON: the hello deadline is cleared; a link that is not DOWN enters DOWN with last cause
POWER_OFF, and a link already DOWN keeps its cause. -/
def State.linkPowerLeft (s : State) (p : Port) : State :=
  let before := (s.port p).link.state
  if before = .down ∨ before = .testing then s.updLink p (fun l => { l with helloDeadline := none })
  else (s.updLink p (LinkRec.enterDown .powerOff)).leftFrom p before none

/-- R5: the port has gone from INRUSH to ON: the link awaits HELLO at 1.25 Gb/s, the hello deadline kept. -/
def LinkRec.enterAwait (l : LinkRec) : LinkRec := { l with state := .awaitHello, listen := .r1250, lastPacket := none }

/-- R18: what the link part becomes in LOST. -/
def LinkRec.enterLost (cause : LinkCause) (l : LinkRec) : LinkRec :=
  { l with state := .lost, lastCause := some cause, current := none, attempt := none, window := none,
           listen := .r1250, helloDeadline := none }

/-- R17: whether 50 ms of silence have passed while the camera is relied on. -/
def LinkRec.lockLost (now : Time) (l : LinkRec) : Bool :=
  (match l.lastPacket with
    | some t => decide (t + ms 50 ≤ now)
    | none => false) &&
  (match l.state, l.attempt with
    | .up, _ => true
    | .training, some a | .retraining, some a => a.heard
    | _, _ => false)

/-! ## HELLO (R6 to R8) -/

/-- R6: one axis of a HELLO: a present axis has a speed of 1..255, an absent axis none. -/
def axisFits (present : Bool) (speed : Nat) : Bool := if present then within 1 255 speed else speed == 0

/-- R6: whether the content of a HELLO is well-formed. -/
def HelloBody.wellFormed (h : HelloBody) : Bool :=
  decide (h.modelLength ≤ 24) && decide (h.serialLength ≤ 16) && (rateOf h.rateCode).isSome &&
    within 50 2000 h.powerClass && axisFits h.present.focus h.speed.focus && axisFits h.present.iris h.speed.iris &&
    axisFits h.present.zoom h.speed.zoom && h.bodyLength == 49

/-- The identity record of a HELLO (R4, R6). -/
def HelloBody.identity (h : HelloBody) : Identity :=
  { model := h.model.take h.modelLength, serial := h.serial.take h.serialLength,
    maxRate := (rateOf h.rateCode).getD .r1250, powerClass := h.powerClass,
    speeds := h.present.zipWith (fun q v => if q then some v else none) h.speed }

/-- R6: an accepted HELLO recorded: the hello deadline cleared, CAMERA_CHANGED set where the serial differs from the last one
seen, identity and serial replaced. -/
def LinkRec.recordHello (i : Identity) (l : LinkRec) : LinkRec :=
  { l with helloDeadline := none
           changed := l.changed || (l.lastSerial.isSome && decide (l.lastSerial ≠ some i.serial))
           identity := some i
           lastSerial := some i.serial }

/-- R8: initial training at the lower of the camera's maximum rate and the live rate limit. From UP, R12 applies. -/
def State.startTraining (s : State) (p : Port) (i : Identity) : State :=
  let before := (s.port p).link.state
  let r := i.maxRate.min (s.port p).profile.rateLimit
  let s1 := (s.handDown p (.welcome r)).updLink p
    (fun l => { LinkRec.attemptAt s.now r l with state := .training })
  s1.leftFrom p before none

/-- R7: whether the declared power class exceeds the committed allotment. -/
def PowerRec.classOver (w : PowerRec) (i : Identity) : Bool := decide (w.allotment.getD 0 < i.powerClass)

/-- R7: the link enters DOWN with last cause CLASS_OVER_ALLOTMENT; a LINK_EVENT reports it from every state (R13). -/
def State.classDown (s : State) (p : Port) : State :=
  let before := (s.port p).link.state
  let s1 := s.updLink p (LinkRec.enterDown .classOverAllotment)
  if before = .up then s1.leftFrom p before none else s1.linkEvent p before none

end Sys2Proof.Machine
end

