-- ==== Sys2Proof/Machine/SweepOps.lean ====
section
/-! DEFINITION. The break finder's shared operations (chapter 3): the sweep queue, the engine's states, the acquisition buffer,
the distance computation and the classification. Every quantity is an integer and every division rounds down. -/

namespace Sys2Proof.Machine

/-! ## The distance computation (R56 to R61) -/

/-- R56: one repetition's samples added into the running sums, index by index. -/
def addSamples : List Int → List (BitVec 12) → List Int
  | [], _ => []
  | sum :: sums, [] => sum :: sums
  | sum :: sums, x :: xs => (sum + x.toInt) :: addSamples sums xs

/-- R56: the averaged trace, each sum divided by N and rounded down. -/
def averagedTrace (n : Nat) (sums : List Int) : List Int := sums.map (fun x => x / (n : Int))

/-- R57: the launch level, the sum of a[4] to a[11] divided by 8 and rounded down. -/
def launchLevel (trace : List Int) : Int := ((trace.drop 4).take 8).sum / 8

/-- R58: the threshold. -/
def crossThreshold (launch : Int) (permille : Nat) : Nat := max 8 (launch.natAbs * permille / 1000)

/-- R59: the first index from `i` on whose deviation reaches the threshold, with the deviation before it and its own. -/
def firstCrossing (threshold : Nat) : Nat → Int → List Int → Option (Nat × Int × Int)
  | _, _, [] => none
  | i, before, d :: rest => if threshold ≤ d.natAbs then some (i, before, d) else firstCrossing threshold (i + 1) d rest

/-- R59: the peak deviation of the indices searched. -/
def peakDeviation (deviations : List Int) : Nat := deviations.foldl (fun m d => max m d.natAbs) 0

/-- R60: the predecessor's magnitude where it has the crossing's sign, else 0. -/
def predecessor (before d : Int) : Nat := if 0 < before * d then before.natAbs else 0

/-- R60: the sub-sample fraction, 0..15. -/
def crossFraction (threshold : Nat) (before d : Int) : Nat :=
  let m := predecessor before d
  if threshold ≤ m then 0 else min 15 (16 * (threshold - m) / (d.natAbs - m))

/-- R61: the position, in sixteenths of a sample. -/
def crossPosition (i f : Nat) : Nat := (i - 1) * 16 + f

/-- R61: the raw distance, mm. -/
def rawDistance (position velocity : Nat) : Nat := position * velocity * Config.deviceConstant / 1000000

/-! ## Classification (R62, R63) -/

/-- R63: the tolerance around the installed length, mm. -/
def lengthTolerance (installed : Nat) : Nat := max 500 (installed / 20)

/-- R62, R63: the kind of a result with a crossing, and LENGTH_DIFFERS. -/
def classify (installed distance : Nat) (openType : Bool) : BreakKind × Bool :=
  if installed = 0 then (if openType then .openUnplaced else .short, false)
  else
    let tol := lengthTolerance installed
    if distance < installed - tol then (if openType then .open else .short, false)
    else (if openType then .cameraEnd else .cameraShort, decide (installed + tol < distance))

/-- R57 to R64: the break record of an averaged trace under fixed parameters. -/
def breakRecord (now : Time) (cause : SweepCause) (q : SweepParams) (trace : List Int) : BreakRecord :=
  let launch := launchLevel trace
  let base : BreakRecord :=
    { endTime := now, cause := cause, kind := .short, distance := 0, crossing := none, position := none, launch := launch,
      threshold := none, peak := none, averaging := q.averaging, velocity := q.velocity, offset := q.offset,
      installed := q.installed, lengthDiffers := false }
  if launch.natAbs < 64 then base
  else
    let t := crossThreshold launch q.threshold
    let dev := trace.map (fun a => a - launch)
    let searched := dev.drop q.blind
    let found := { base with kind := .clear, threshold := some t, peak := some (peakDeviation searched) }
    match firstCrossing t q.blind (dev.getD (q.blind - 1) 0) searched with
    | none => found
    | some (i, before, d) =>
      let pos := crossPosition i (crossFraction t before d)
      let dist := rawDistance pos q.velocity - q.offset
      let kind := classify q.installed dist (decide (0 < d))
      { found with kind := kind.1, distance := dist, crossing := some i, position := some pos, lengthDiffers := kind.2 }

/-- Whether a kind locks the port out (R63, R66). -/
def BreakKind.locksOut : BreakKind → Bool
  | .short | .open | .cameraShort => true
  | .cameraEnd | .openUnplaced | .clear => false

/-- R65: a record appended to a break log, the oldest removed first where it holds four. -/
def appendLog (log : List BreakRecord) (r : BreakRecord) : List BreakRecord :=
  (if Config.breakLogEntries ≤ log.length then log.drop 1 else log) ++ [r]

/-! ## The engine (R52, R53) -/

/-- R53: the parameters of a sweep, from its entry and the live profile; an override has been reduced already (R50). -/
def sweepParams (averaging : Option Nat) (f : Profile) : SweepParams :=
  { averaging := averaging.getD (reduceAveraging f.averaging), installed := f.installedLength, velocity := f.velocity,
    offset := f.offset, threshold := f.sweepThreshold, blind := f.blindCount }

/-- R53: the engine enters ACQUIRING for its current entry. -/
def State.enterAcquiring (s : State) (e : SweepEntry) : State :=
  let q := sweepParams e.averaging (s.port e.port).profile
  ((s.updMarks e.port (fun m => { m with sweepPending := false, testing := true })).updLink e.port
      (fun l => { l with state := .testing })).updEngine
    (fun g => { g with state := .acquiring, params := some q, buffer := List.replicate Config.traceSamples 0,
                       repetitions := 0, acquisitionEnd := some (s.now + ms (q.averaging * 2)) })

/-- R52: an IDLE engine takes the head entry, and enters ACQUIRING at once where the discharge end has passed. -/
def State.takeEntry (s : State) : State :=
  match s.engine.state, s.engine.queue with
  | .idle, e :: rest =>
    let t := (s.port e.port).power.deenergized + ms 100
    let s1 := s.updEngine
      (fun g => { g with queue := rest, current := some e, state := .dischargeWait, dischargeEnd := some t })
    if t ≤ s.now then s1.enterAcquiring e else s1
  | _, _ => s

/-- R49: an append, which is not made for a port already SWEEP_PENDING or TESTING; an IDLE engine takes the entry at once. -/
def State.sweepAppend (s : State) (p : Port) (cause : SweepCause) (requester : Option Master) (averaging : Option Nat) :
    State :=
  let m := (s.port p).marks
  if m.sweepPending || m.testing then s
  else
    ((s.updMarks p (fun m => { m with sweepPending := true })).updEngine
      (fun g => { g with queue := g.queue ++ [⟨p, cause, requester, averaging⟩] })).takeEntry

/-- Whether an append would be made (R49), which a SHORT trip's notice reports (R38). -/
def PortRec.sweepable (r : PortRec) : Bool := !(r.marks.sweepPending || r.marks.testing)

/-- R66, step 6: the engine returns to IDLE. -/
def BreakEngine.toIdle (g : BreakEngine) : BreakEngine :=
  { g with state := .idle, current := none, params := none, dischargeEnd := none, acquisitionEnd := none }

end Sys2Proof.Machine
end

