-- ==== Sys2Proof/Machine/PowerOps.lean ====
section
/-! DEFINITION. The power controller's and the power manager's shared operations (chapter 2): commitment, admission, the start
of the queue head, leaving the energized states, trips and the undercurrent rule; with them the departures of chapter 1 that
switch a port off: entry into LOST, a failed attempt, an accepted HELLO. -/

namespace Sys2Proof.Machine

/-! ## Reports (R45) -/

/-- A POWER_EVENT with no field but the committed sum. -/
def PowerEvent.bare (committed : Nat) : PowerEvent :=
  { port := none, change := none, cause := none, sample := none, refusal := none, sweepQueued := none, openSuspect := none,
    restoreSet := none, notRestored := none, committed := committed }

/-- The POWER_EVENT of a change of a port's power state, with the committed sum after the change. DESIGN CHOICE (log entry 49):
the OPEN_SUSPECT mark is present in the notices of R39 alone and absent from every other. -/
def State.powerChange (s : State) (p : Port) (before : PowerState) (cause : Option PowerCause) : PowerEvent :=
  { PowerEvent.bare s.mgr.committed with
    port := some p, change := some (before, (s.port p).power.state), cause := cause }

/-- A POWER_EVENT to all masters (R45). -/
def State.powerEvent (s : State) (urgent : Bool) (e : PowerEvent) : State := s.notifyAll urgent (.powerEvent e)

/-! ## The start queue (R32, R33) -/

/-- R33: a port enters INRUSH. -/
def PowerRec.enterInrush (now : Time) (window : Nat) (w : PowerRec) : PowerRec :=
  { w with state := .inrush, inrush := some (now, now + ms window), peak := some 0, overloadRun := 0, underRun := 0 }

/-- R32, R33, R5: a port starts: it leaves the queue and enters INRUSH, and its hello timeout starts. -/
def State.startPort (s : State) (p : Port) : State :=
  let f := (s.port p).profile
  ((s.updMgr (fun g => { g with startQueue := g.startQueue.filter (fun q => !(q == p)) })).updPower p
      (PowerRec.enterInrush s.now f.inrushWindow)).updLink p
    (fun l => { l with helloDeadline := some (s.now + ms f.helloTimeout) })

/-- R32: whether no port is in INRUSH. -/
def State.noInrush (s : State) : Bool := allPorts.all (fun p => decide ((s.port p).power.state ≠ .inrush))

/-- R32: whether the live stagger gap has passed since the last inrush end. -/
def State.gapPassed (s : State) : Bool :=
  match s.mgr.lastInrushEnd with
  | none => true
  | some t => decide (t + ms s.mgr.stagger ≤ s.now)

/-- R32: the head port starts where both conditions hold. -/
def State.testHead (s : State) : State :=
  match s.mgr.startQueue with
  | [] => s
  | p :: _ => if s.noInrush && s.gapPassed then s.startPort p else s

/-! ## Admission (R26, R27, R29) -/

/-- R26, R27: a port enters QUEUED. -/
def State.commitPort (s : State) (p : Port) : State :=
  let a := (s.port p).profile.allotment
  (s.updPower p (fun w => { w with state := .queued, allotment := some a })).updMgr
    (fun g => { g with committed := g.committed + a, startQueue := g.startQueue ++ [p] })

/-- R27: the outcome of an admission. -/
def State.admissionOutcome (s : State) (p : Port) : Result :=
  let r := s.port p
  if r.marks.lockout then .portLockedOut
  else if r.marks.sweepPending || r.marks.testing then .portTesting
  else if r.power.state = .tripped then .portTripped
  else if s.mgr.supply = .low then .supplyLow
  else if r.power.state.committed then .done
  else if s.effectiveBudget < s.mgr.committed + r.profile.allotment then .overBudget
  else .done

/-- R27: an admission: an OFF port whose outcome is DONE enters QUEUED. The start queue is tested by the caller. -/
def State.admitPort (s : State) (p : Port) : State :=
  if s.admissionOutcome p = .done ∧ (s.port p).power.state = .off then s.commitPort p else s

/-- R29: an automatic admission; an outcome other than DONE is reported. -/
def State.autoAdmit (origin : AdmitOrigin) (s : State) (p : Port) : State :=
  let o := s.admissionOutcome p
  if o = .done then s.admitPort p
  else s.powerEvent false { PowerEvent.bare s.mgr.committed with port := some p, refusal := some (origin, o) }

/-- R32: a test of the head after admissions, made where the queue was empty before them (a port joined an empty queue). -/
def State.testJoined (s : State) (before : List Port) : State := if before.isEmpty then s.testHead else s

/-! ## Leaving the committed and the energized states (R26, R30, R31, R36, R37) -/

/-- R26: the committed allotment is released. -/
def State.releaseAllotment (s : State) (p : Port) : State :=
  let a := (s.port p).power.allotment.getD 0
  (s.updMgr (fun g => { g with committed := g.committed - a })).updPower p (fun w => { w with allotment := none })

/-- The power part's side of R37. -/
def PowerRec.deenergize (now : Time) (w : PowerRec) : PowerRec :=
  { w with deenergized := now, overloadRun := 0, underRun := 0, openSuspect := false, inrush := none }

/-- R37: a port has left INRUSH or ON, `before`, for OFF or TRIPPED. The start queue is tested by the caller. -/
def State.leaveEnergized (s : State) (p : Port) (before : PowerState) : State :=
  let s1 := s.updPower p (PowerRec.deenergize s.now)
  let s2 := if before = .inrush then s1.updMgr (fun g => { g with lastInrushEnd := some s.now }) else s1
  s2.linkPowerLeft p

/-- Entry into OFF: the allotment released, the cause recorded (R26, R30, R31, R39). -/
def State.enterOff (s : State) (p : Port) (cause : OffCause) : State :=
  ((s.releaseAllotment p).updPower p (fun w => { w with state := .off, lastOff := some cause })).updMgr
    (fun g => { g with startQueue := g.startQueue.filter (fun q => !(q == p)) })

/-- R30, R31: a committed port is switched off, with its POWER_EVENT; a port in OFF or TRIPPED is left as it is. The start queue
is tested by the caller. -/
def State.switchOff (s : State) (p : Port) (cause : OffCause) : State :=
  let before := (s.port p).power.state
  if !before.committed then s
  else
    let s1 := s.enterOff p cause
    let s2 := if before.energized then s1.leaveEnergized p before else s1
    s2.powerEvent false (s2.powerChange p before (some (.off cause)))

/-- R31: another block switches an energized port off, after which the start queue is tested (R37). -/
def State.switchOffBy (s : State) (p : Port) (cause : OffCause) : State :=
  if (s.port p).power.state.energized then (s.switchOff p cause).testHead else s

/-- R36, R38: a port trips on a sample: TRIPPED, the effects of R37, the sweep of a SHORT trip, the urgent POWER_EVENT. -/
def State.trip (s : State) (p : Port) (cause : TripCause) (sample : Nat) : State :=
  let before := (s.port p).power.state
  let sweeps := decide (cause = .short) && (s.port p).profile.autoSweep
  let s1 := (s.releaseAllotment p).updPower p (fun w => { w with state := .tripped, lastTrip := some cause })
  let s2 := (s1.leaveEnergized p before).testHead
  let queued := sweeps && (s2.port p).sweepable
  let s3 := if sweeps then s2.sweepAppend p .shortTrip none none else s2
  s3.powerEvent true
    { s3.powerChange p before (some (.trip cause)) with
      sample := some sample, sweepQueued := if cause = .short then some queued else none }

/-! ## Current samples (R34, R35, R39) -/

/-- A current reading: above 5000 mA it reads 5000 (R24). -/
def sampleOf (mA : Nat) : Nat := min mA 5000

/-- R34, R35: the steady limit. -/
def steadyLimit (allotment : Nat) : Nat := allotment * 5 / 4

/-- R39: the undercurrent rule, the run having reached 500. -/
def State.undercurrentRule (s : State) (p : Port) : State :=
  let s0 := s.updPower p (fun w => { w with openSuspect := true, underRun := 0 })
  if (s.port p).profile.autoSweep then
    let s1 := ((s0.enterOff p .undercurrent).leaveEnergized p .on).testHead
    let s2 := s1.sweepAppend p .undercurrent none none
    s2.powerEvent false { s2.powerChange p .on (some .undercurrent) with openSuspect := some true }
  else s0.powerEvent false { s0.powerChange p .on (some .undercurrent) with openSuspect := some true }

/-- R35: the undercurrent run after a sample; held at 0 while OPEN_SUSPECT is set. -/
def PowerRec.underAfter (v : Nat) (w : PowerRec) : Nat :=
  if w.openSuspect then 0 else if v < Config.underLevel then w.underRun + 1 else 0

/-- R35: a sample judged in ON. -/
def State.judgeOn (s : State) (p : Port) (v : Nat) : State :=
  let w := (s.port p).power
  if Config.hardLimit < v then s.trip p .short v
  else
    let overRun := if steadyLimit (w.allotment.getD 0) < v then w.overloadRun + 1 else 0
    if Config.overloadSamples ≤ overRun then s.trip p .overload v
    else
      let under := w.underAfter v
      let s1 := s.updPower p (fun w => { w with overloadRun := overRun, underRun := under })
      if Config.underSamples ≤ under then s1.undercurrentRule p else s1

/-- R34: a sample judged in INRUSH; it is taken into the peak in either case. -/
def State.judgeInrush (s : State) (p : Port) (v : Nat) : State :=
  let a := (s.port p).power.allotment.getD 0
  let s1 := s.updPower p (fun w => { w with peak := some (max (w.peak.getD 0) v) })
  if Config.hardLimit < v then s1.trip p .short v
  else if 3 * a < v then s1.trip p .inrushOver v
  else s1

/-- 2.5, R34, R35: one sample of a port's current monitor. -/
def State.takeSample (s : State) (p : Port) (mA : Nat) : State :=
  let v := sampleOf mA
  let s1 := s.updPower p (fun w => { w with sample := some v })
  match (s.port p).power.state with
  | .inrush => s1.judgeInrush p v
  | .on => s1.judgeOn p v
  | _ => s1

/-- Whether a sample would complete the overload run of an ON port (R35). -/
def PowerRec.completesOverload (v : Nat) (w : PowerRec) : Bool :=
  decide (w.state = .on) && decide (v ≤ Config.hardLimit) && decide (steadyLimit (w.allotment.getD 0) < v) &&
    decide (Config.overloadSamples ≤ w.overloadRun + 1)

/-- Whether a sample would complete the undercurrent run of an ON port (R35, R39). -/
def PowerRec.completesUnder (v : Nat) (w : PowerRec) : Bool :=
  decide (w.state = .on) && !w.openSuspect && decide (v < Config.underLevel) &&
    decide (Config.underSamples ≤ w.underRun + 1)

/-! ## The supply (R42 to R44) -/

/-- R42: a committed port switched off by the supply. -/
def PowerRec.supplyOff (w : PowerRec) : PowerRec :=
  if w.state.committed then { w with state := .off, lastOff := some .supply, allotment := none } else w

/-- R42: the supply state enters LOW. DESIGN CHOICE (log entry 63): the restore set is kept and shown in port number order. -/
def State.supplyLow (s : State) : State :=
  let set := allPorts.filter (fun p => (s.port p).power.state.committed)
  let s1 := allPorts.foldl (fun t p => t.updPower p PowerRec.supplyOff) s
  let s2 := s1.updMgr (fun g => { g with supply := .low, restoreSet := set, startQueue := [], committed := 0 })
  let s3 := allPorts.foldl
    (fun t p => if (s.port p).power.state.energized then t.leaveEnergized p (s.port p).power.state else t) s2
  s3.powerEvent true
    { PowerEvent.bare s3.mgr.committed with cause := some .supply, restoreSet := some set }

/-- R43, R44: the supply state enters NORMAL. -/
def State.supplyNormal (s : State) : State :=
  let set := s.mgr.restoreSet
  let back := set.filter (fun p => (s.port p).profile.autoRestore)
  let s1 := s.updMgr (fun g => { g with supply := .normal })
  let s2 := s1.powerEvent false
    { PowerEvent.bare s1.mgr.committed with
      cause := some .supply, restoreSet := some set
      notRestored := some (set.filter (fun p => !(s.port p).profile.autoRestore)) }
  let s3 := (back.foldl (State.autoAdmit .restore) s2).updMgr (fun g => { g with restoreSet := [] })
  let s4 :=
    if s.mgr.startUpPending then
      ((allPorts.filter (fun p => (s.port p).profile.powerAtStart)).foldl (State.autoAdmit .start) s3).updMgr
        (fun g => { g with startUpPending := false })
    else s3
  s4.testJoined s.mgr.startQueue

/-! ## Entry into LOST and training (R10, R18) -/

/-- R18: the link enters LOST; with auto-sweep the port is switched off and a sweep queued. -/
def State.enterLost (s : State) (p : Port) (cause : LinkCause) : State :=
  let before := (s.port p).link.state
  let s1 := s.updLink p (LinkRec.enterLost cause)
  let s2 := if before = .up then s1.announceLeft p else s1
  let s3 := s2.linkEvent p before none
  if (s3.port p).profile.autoSweep then (s3.switchOffBy p .linkLost).sweepAppend p .linkLost none none else s3

/-- R10: the training attempt in progress fails. -/
def State.failAttempt (s : State) (p : Port) : State :=
  let l := (s.port p).link
  if !l.state.inTraining then s
  else
    match l.current.bind Rate.lower with
    | some r => (s.handDown p (.rateSet r)).updLink p (LinkRec.attemptAt s.now r)
    | none => s.enterLost p .trainFailed

/-! ## Packets at the link controller (R1, R2, R6) -/

/-- R1: the arrival of a packet at a port recorded. -/
def State.hear (s : State) (p : Port) : State := s.updLink p (LinkRec.heardPacket s.now)

/-- R6 to R8: a packet taken as a HELLO. -/
def State.takeHello (s : State) (p : Port) (h : HelloBody) : State :=
  if !HelloBody.wellFormed h then s.countStray p
  else
    let i := HelloBody.identity h
    let s1 := (s.updLink p (LinkRec.recordHello i)).rebuildAxes p i.speeds
    if (s1.port p).power.classOver i then (s1.classDown p).switchOffBy p .classOverAllotment
    else s1.startTraining p i

/-- R2: a check-passed packet other than a HELLO or an IDLE: after the clean run it reaches its block where the link was UP
when it arrived, and is stray in any other state. -/
def State.routed (s : State) (p : Port) (act : State → State) : State :=
  if (s.port p).link.state = .up then act (s.hear p) else ((s.hear p).countClean p).countStray p

end Sys2Proof.Machine
end

