-- ==== Sys2Proof/Machine/Breaks.lean ====
section
/-! DEFINITION. The break finding family (chapter 3): the engine's deadlines and repetitions, the end of a sweep, SWEEP and
READ_BREAK_LOG. -/

namespace Sys2Proof.Machine

/-- DISCHARGE_END (R53). -/
def execDischargeEnd (s : State) : Outcome :=
  .next
    (match s.engine.state, s.engine.current with
     | .dischargeWait, some e => if passed s.now s.engine.dischargeEnd then s.enterAcquiring e else s
     | _, _ => s)

/-- R56: whether the next repetition's 2 ms have passed since ACQUIRING began. -/
def BreakEngine.repetitionDue (now : Time) (g : BreakEngine) : Bool :=
  match g.state, g.params, g.acquisitionEnd with
  | .acquiring, some q, some t =>
    decide (g.repetitions < q.averaging) && decide (t ≤ now + ms (2 * (q.averaging - (g.repetitions + 1))))
  | _, _, _ => false

/-- ACQUISITION_REPETITION (R56). -/
def execAcquisitionRepetition (samples : List (BitVec 12)) (s : State) : Outcome :=
  .next
    (if s.engine.repetitionDue s.now then
      s.updEngine (fun g => { g with buffer := addSamples g.buffer samples, repetitions := g.repetitions + 1 })
     else s)

/-- R68: whether the restore admission is made at the end of a sweep. -/
def State.restores (s : State) (e : SweepEntry) (locks : Bool) : Bool :=
  decide (e.cause ≠ .request) && (s.port e.port).profile.autoRestore && !locks && decide (s.mgr.supply = .normal)

/-- R66: the end of a sweep. -/
def State.endSweep (s : State) (e : SweepEntry) (q : SweepParams) : State :=
  let r := breakRecord s.now e.cause q (averagedTrace q.averaging s.engine.buffer)
  let locks := r.kind.locksOut
  let s1 := s.updPort e.port (fun t => { t with breakLog := appendLog t.breakLog r })
  let s2 := (s1.updLink e.port (fun l => { l with state := .down, lastCause := some .sweepEnd })).updMarks e.port
    (fun m => { m with testing := false, lockout := m.lockout || locks })
  let restore := s2.restores e locks
  let s3 := s2.notifyAll locks (.sweepDone e.port e.requester r (s2.port e.port).marks.lockout restore)
  let s4 := if restore then (s3.autoAdmit .sweepRestore e.port).testJoined s3.mgr.startQueue else s3
  (s4.updEngine BreakEngine.toIdle).takeEntry

/-- ACQUISITION_END (R66): all repetitions done and the acquisition end reached. -/
def execAcquisitionEnd (s : State) : Outcome :=
  .next
    (match s.engine.state, s.engine.current, s.engine.params with
     | .acquiring, some e, some q =>
       if s.engine.repetitions = q.averaging ∧ passed s.now s.engine.acquisitionEnd = true then s.endSweep e q else s
     | _, _, _ => s)

/-- SWEEP (R50): an override is reduced, and listed as clamped where that changes it, whatever the result. -/
def execSweep (m : Master) (port : Nat) (averaging : Option Nat) (s : State) : Outcome :=
  let clamps := match averaging with
    | some v => clampEntry 1 v (reduceAveraging v)
    | none => []
  .next (s.takeRequest m .sweep true (fun s =>
    match portOf port with
    | none => ({ result := .badRange, clamped := clamps }, s)
    | some p =>
      if (s.port p).power.state.committed then ({ result := .portPowered, clamped := clamps }, s)
      else if !(s.port p).sweepable then ({ result := .done, clamped := clamps }, s)
      else
        ({ result := .accepted, clamped := clamps },
         s.sweepAppend p .request (some m) (averaging.map reduceAveraging))))

/-- R70: what READ_BREAK_LOG returns. -/
def State.breakLogReport (s : State) (p : Port) : BreakLogReport :=
  { records := (s.port p).breakLog.reverse, marks := (s.port p).marks,
    position := positionOf p (s.engine.queue.map SweepEntry.port), engine := s.engine.state,
    current := s.engine.current.map SweepEntry.port, acquisitionEnd := s.engine.acquisitionEnd }

/-- READ_BREAK_LOG (R70). -/
def execReadBreakLog (m : Master) (port : Nat) (s : State) : Outcome :=
  .next (s.takeRequest m .readBreakLog true (onPort port (fun p =>
    answering (fun s => { result := .done, body := .breakLog (s.breakLogReport p) }))))

end Sys2Proof.Machine
end

