-- ==== Sys2Proof/Machine/Intake.lean ====
section
/-! DEFINITION. The frame intake family (chapter 4): FRAME_OPEN, LINE, FRAME_CLOSE, the inactivity timeout and the arbiter's
intake writes. -/

namespace Sys2Proof.Machine

/-- FRAME_OPEN (R2, R75 to R81). -/
def execFrameOpen (p : Port) (rate : Rate) (frameNo width lines : Nat) (s : State) : Outcome :=
  .next (if !s.receives p rate then s else s.routed p (fun t => t.openFrame p frameNo width lines))

/-- LINE (R2, R83 to R86). -/
def execLine (p : Port) (rate : Rate) (k : Nat) (payload : List Byte) (s : State) : Outcome :=
  .next (if !s.receives p rate then s else s.routed p (fun t => t.takeLine p k payload false))

/-- FRAME_CLOSE (R2, R83, R90). -/
def execFrameClose (p : Port) (rate : Rate) (c : Nat) (s : State) : Outcome :=
  .next (if !s.receives p rate then s else s.routed p (fun t => t.closeFrame p c))

/-- R89: whether 250 ms have passed since the last activity of an intake that is not IDLE. -/
def IntakeRec.inactive (now : Time) (i : IntakeRec) : Bool := passed now (i.lastActivity.map (fun t => t + ms 250))

/-- INACTIVITY_TIMEOUT (R89). -/
def execInactivityTimeout (p : Port) (s : State) : Outcome :=
  .next
    (if !(s.port p).intake.inactive s.now then s
     else
      match (s.port p).intake.state with
      | .idle => s
      | .filling => s.finalize p ⟨true, true⟩ true
      | .discarding => s.endDiscard p .inactivity)

/-- R88: the ports in the arbiter's order, from the one after the last port served. -/
def portsAfter (q : Port) : List Port := allPorts.map (fun i => q + 1 + i)

/-- R88: the port the next intake write serves. -/
def State.nextWaiting (s : State) : Option Port :=
  (portsAfter s.store.lastPort).find? (fun p => !(s.port p).intake.buffers.isEmpty)

/-- R87, R88: the oldest waiting line of a port is written and its buffer emptied. -/
def State.writeOldest (s : State) (p : Port) : State :=
  match (s.port p).intake.buffers with
  | [] => s
  | b :: rest =>
    ((s.writeBuffered b).updIntake p (fun i => { i with buffers := rest })).updStore (fun st => { st with lastPort := p })

/-- DRAM_WRITE_GRANT (R88). -/
def execDramWriteGrant (s : State) : Outcome :=
  .next
    (match s.nextWaiting with
     | some p => s.writeOldest p
     | none => s)

end Sys2Proof.Machine
end

