-- ==== Sys2Proof/Machine/FrameStore.lean ====
section
/-! DEFINITION. The frame store family (chapter 5): the arbiter's fetch reads and the store requests. -/

namespace Sys2Proof.Machine

/-! ## Fetch reads (R115 to R117) -/

/-- The active fetch of a master, with lines left. -/
def State.activeFetch (s : State) (m : Analysis) : Option Fetch :=
  match (s.store.readers.get m).fetches with
  | f :: _ => if f.sent < f.count then some f else none
  | [] => none

/-- R115, R116: whether a master asks for a read: an active fetch with lines left, no line read before still waiting for the
link, and the outbound link not busy. -/
def State.wantsRead (s : State) (m : Analysis) : Bool :=
  let r := s.master m.master
  r.attached && r.sending.isNone && r.fetchOut.isEmpty && (s.activeFetch m).isSome

/-- R116: the master the next fetch read serves. -/
def State.readServed (s : State) : Option Analysis :=
  match s.wantsRead .A, s.wantsRead .B with
  | true, true => some (if s.store.lastFetch = .A then .B else .A)
  | true, false => some .A
  | false, true => some .B
  | false, false => none

/-- R117: the active fetch has handed over its last line: it ends COMPLETE and leaves the queue. -/
def State.completeFetch (s : State) (m : Analysis) (f : Fetch) : State :=
  ((s.updStore (fun st => st.updReader m (fun r => { r with fetches := r.fetches.drop 1 }))).updStore
    (fun st => st.unpin f.frame m)).handFetch m (.fetchEnd f.tag f.frame true f.count)

/-- R115: one line of the active fetch read and handed to the master's outbound link. -/
def State.readLine (s : State) (m : Analysis) (f : Fetch) : State :=
  match s.frame? f.frame with
  | none => s
  | some g =>
    let bytes := readFrameBytes g.pages s.store.dram (f.next * g.width) g.width
    let s1 := (s.handFetch m (.data f.tag f.frame f.next bytes)).updStore (fun st => { st with lastFetch := m })
    if f.count ≤ f.sent + 1 then s1.completeFetch m f
    else
      s1.updStore (fun st => st.updReader m (fun r =>
        { r with fetches := { f with next := f.next + 1, sent := f.sent + 1 } :: r.fetches.drop 1 }))

/-- FETCH_READ_GRANT (R116): granted only when no line waits in any intake's line buffer. -/
def execFetchReadGrant (s : State) : Outcome :=
  .next
    (if s.nextWaiting.isSome then s
     else
      match s.readServed with
      | none => s
      | some m =>
        match s.activeFetch m with
        | some f => s.readLine m f
        | none => s)

/-! ## Requests -/

/-- R102: an analysis master's subscription to a port set or cleared. -/
def State.setSubscription (s : State) (m : Master) (p : Port) (v : Bool) : State :=
  match m.analysis with
  | some a => s.updPort p (fun r => { r with subscribers := r.subscribers.set a v })
  | none => s

/-- SUBSCRIBE (R102). -/
def execSubscribe (m : Master) (port : Nat) (s : State) : Outcome :=
  .next (s.takeRequest m .subscribe true (onPort port (fun p s => ({ result := .done }, s.setSubscription m p true))))

/-- UNSUBSCRIBE (R102). -/
def execUnsubscribe (m : Master) (port : Nat) (s : State) : Outcome :=
  .next (s.takeRequest m .unsubscribe true (onPort port (fun p s => ({ result := .done }, s.setSubscription m p false))))

/-- The figures of a list (R119, R120). -/
def ReaderRec.figures (r : ReaderRec) : ListFigures := ⟨r.ready.length, r.holdLimit, r.policy, r.fetches.length⟩

/-- A request of an analysis master; the cell port has been refused already (R193). -/
def onReader (m : Master) (act : Analysis → State → Answer × State) (s : State) : Answer × State :=
  match m.analysis with
  | some a => act a s
  | none => refusing .notPermitted s

/-- R107: whether a policy, where given, is one of the two. -/
def policyFits : Option Nat → Bool
  | some n => (policyOf n).isSome
  | none => true

/-- SET_FRAME_POLICY (R107). -/
def execSetFramePolicy (m : Master) (holdLimit policy : Option Nat) (s : State) : Outcome :=
  .next (s.takeRequest m .setFramePolicy (policyFits policy) (onReader m (fun a s =>
    if !optWithin 1 512 holdLimit then refusing .badRange s
    else
      let s1 := s.updStore (fun st => st.updReader a (fun r =>
        { r with holdLimit := holdLimit.getD r.holdLimit, policy := (policy.bind policyOf).getD r.policy }))
      let r := s1.store.readers.get a
      ({ result := .done, body := .policy r.holdLimit r.policy r.ready.length }, s1))))

/-- R113: an accepted fetch appended, its frame pinned once more. -/
def Store.addFetch (st : Store) (a : Analysis) (f : Fetch) : Store :=
  (st.updReader a (fun r => { r with fetches := r.fetches ++ [f] })).updFrame f.frame
    (fun g => { g with pins := g.pins.set a (g.pins.get a + 1) })

/-- R113: a FETCH judged; `tag` is the tag of its request. -/
def State.takeFetch (s : State) (a : Analysis) (tag frame first count : Nat) : Answer × State :=
  let r := s.store.readers.get a
  match s.frame? frame with
  | none => refusing .notReader s
  | some f =>
    if !r.ready.contains frame then refusing .notReader s
    else if f.stored ≤ first then refusing .badRange s
    else
      let left := f.stored - first
      let n := if count = 0 then left else min count left
      let clamps := if count = 0 then [] else clampEntry 2 count n
      if Config.fetchEntries ≤ r.fetches.length then ({ result := .fetchQueueFull, clamped := clamps }, s)
      else
        ({ result := .accepted, clamped := clamps, body := .lineCount n },
         s.updStore (fun st => st.addFetch a ⟨tag, frame, first, n, first, 0⟩))

/-- FETCH (R113). -/
def execFetch (m : Master) (frame first count : Nat) (s : State) : Outcome :=
  let tag := ((s.master m).nextRequest.map RequestEntry.tag).getD 0
  .next (s.takeRequest m .fetch true (onReader m (fun a s => s.takeFetch a tag frame first count)))

/-- RELEASE (R118). -/
def execRelease (m : Master) (frame : Nat) (s : State) : Outcome :=
  .next (s.takeRequest m .release true (onReader m (fun a s =>
    if !(s.store.readers.get a).ready.contains frame then refusing .notReader s
    else ({ result := .done }, (s.cancelFetches a frame).updStore (fun st => st.dropReader frame a)))))

/-- R119: which list a LIST_FRAMES lists, or its refusal. DESIGN CHOICE (log entry 52): it is judged before the skip. -/
def listedMaster (m : Master) (named : Option Master) : Except Result Analysis :=
  match m.analysis, named with
  | some a, none => .ok a
  | some a, some n => if n = m then .ok a else .error .notPermitted
  | none, none => .error .badRequest
  | none, some n =>
    match n.analysis with
    | some a => .ok a
    | none => .error .badRequest

/-- R119: the entries of a list from the first `skip` on, at most 32. -/
def Store.listEntries (st : Store) (a : Analysis) (skip : Nat) : List ListEntry :=
  (((st.readers.get a).ready.drop skip).take 32).filterMap
    (fun id => (st.frame? id).map (FrameRec.entry a))

/-- LIST_FRAMES (R119). -/
def execListFrames (m : Master) (named : Option Master) (skip : Option Nat) (s : State) : Outcome :=
  .next (s.takeRequest m .listFrames true (answering (fun s =>
    match listedMaster m named with
    | .error r => { result := r }
    | .ok a =>
      if 511 < skip.getD 0 then { result := .badRange }
      else
        { result := .done, body := .frames (s.store.readers.get a).figures (s.store.listEntries a (skip.getD 0)) })))

/-- R120: what READ_STORE returns. -/
def State.storeReport (s : State) : StoreReport :=
  let st := s.store
  { freePages := st.freeList.length, reservedPages := st.reservedPages, freeRecords := st.freeRecords,
    reservedRecords := st.reservedRecords,
    filling := (st.frames.filter (fun f => decide (f.state = .filling))).length,
    ready := (st.frames.filter (fun f => decide (f.state = .ready))).length,
    subscribers := allPorts.map (fun p => (s.port p).subscribers),
    lists := ⟨st.readers.a.figures, st.readers.b.figures⟩ }

/-- READ_STORE (R120). -/
def execReadStore (m : Master) (s : State) : Outcome :=
  .next (s.takeRequest m .readStore true (answering (fun s => { result := .done, body := .store s.storeReport })))

end Sys2Proof.Machine
end

