-- ==== Sys2Proof/Machine/Layouts.lean ====
section
/-! DEFINITION. The byte layouts of chapter 11: multi-byte fields, the record header, the listed records, the preset record and
the sequence step with their checks of form (R203, R204), and the drop link packets in both directions (11.3, R206). -/

namespace Sys2Proof.Machine

/-! ## Fields (R202) -/

/-- A byte of a record as a number; a byte that is not there reads 0. -/
def byteAt (l : List Byte) (i : Nat) : Nat := (l.getD i 0).toNat

/-- A two-byte field, least significant byte first. -/
def wordAt (l : List Byte) (i : Nat) : Nat := byteAt l i + 256 * byteAt l (i + 1)

/-- A four-byte field, least significant byte first. -/
def longAt (l : List Byte) (i : Nat) : Nat := wordAt l i + 65536 * wordAt l (i + 2)

/-- The reading of an absent optional 16-bit field. -/
def absentWord : Nat := 65535

/-- Bit `k` of a byte. -/
def bitAt (l : List Byte) (i k : Nat) : Bool := (l.getD i 0).getLsbD k

/-- Whether bytes `i` to `i + n - 1` are 0. -/
def zerosAt (l : List Byte) (i n : Nat) : Bool := ((l.drop i).take n).all (fun b => b == 0)

/-- The two bytes of a number. -/
def le16 (n : Nat) : List Byte := [BitVec.ofNat 8 n, BitVec.ofNat 8 (n / 256)]

/-- The four bytes of a number. -/
def le32 (n : Nat) : List Byte := le16 n ++ le16 (n / 65536)

/-- The eight bytes of a time. -/
def le64 (n : Nat) : List Byte := le32 n ++ le32 (n / 4294967296)

/-- The two bytes of an optional 16-bit value. -/
def opt16 (v : Option Nat) : List Byte := le16 (v.getD absentWord)

/-- A byte of bits, bit 0 first. -/
def bitsByte (l : List Bool) : Byte := BitVec.ofNat 8 (l.foldr (fun b n => b.toNat + 2 * n) 0)

/-- A number as one byte. -/
def byte8 (n : Nat) : Byte := BitVec.ofNat 8 n

/-- An optional 16-bit field with its presence bit: `none` where the two disagree (R203). -/
def presentWord (present : Bool) (n : Nat) : Option (Option Nat) :=
  if present then (if n = absentWord then none else some (some n)) else (if n = absentWord then some none else none)

/-! ## Master records (11.1, R203) -/

/-- The header of a master record. -/
structure Header where
  format : Nat
  kind : Nat
  tag : Nat
  length : Nat
  credit : Nat
  part : Nat
  deriving DecidableEq, Repr

/-- The header of a record of eight bytes or more. -/
def parseHeader (l : List Byte) : Option Header :=
  if l.length < 8 then none
  else some ⟨byteAt l 0, byteAt l 1, wordAt l 2, wordAt l 4, byteAt l 6, byteAt l 7⟩

/-- The eight bytes of a header. -/
def Header.bytes (h : Header) : List Byte :=
  [byte8 h.format, byte8 h.kind] ++ le16 h.tag ++ le16 h.length ++ [byte8 h.credit, byte8 h.part]

/-- The EMPTY record (11.1). -/
def emptyRecord : List Byte := (Header.mk 0 0 0 8 0 0).bytes

/-- A credit message (R189, 11.1). -/
def creditRecord (credit : Nat) : List Byte := (Header.mk 6 0 0 8 credit 0).bytes

/-- A data message or a fetch-end message with the credit figure it carries (11.1). -/
def FetchMsg.record (credit : Nat) : FetchMsg → List Byte
  | .data tag frame line bytes =>
    (Header.mk 4 0 tag (16 + bytes.length) credit 0).bytes ++ le32 frame ++ le16 line ++ le16 0 ++ bytes
  | .fetchEnd tag frame complete sent =>
    (Header.mk 5 0 tag 16 credit 0).bytes ++ le32 frame ++ [byte8 (if complete then 0 else 1), 0] ++ le16 sent

/-- The number of a master (R202). -/
def masterCode : Master → Nat
  | .A => 0 | .B => 1 | .C => 2

/-- The number of a result code (R202: the order of the table of R193). -/
def Result.code (r : Result) : Nat := r.ctorIdx

/-- The number of a notice kind (R202: from FRAME_READY, 1, to HOLD_LAPSED, 10). -/
def NoticeKind.code (k : NoticeKind) : Nat := k.ctorIdx + 1

/-- The number of a link state (R202, R4). -/
def LinkState.code (v : LinkState) : Nat := v.ctorIdx

/-- The number of the cause a link last entered LOST or DOWN for (R202, R4). -/
def LinkCause.code (v : LinkCause) : Nat := v.ctorIdx

/-- The number of a power state (R202, R24). -/
def PowerState.code (v : PowerState) : Nat := v.ctorIdx

/-- The number of a trip cause (R202, R24). -/
def TripCause.code (v : TripCause) : Nat := v.ctorIdx

/-- The number of an off cause (R202, R24). -/
def OffCause.code (v : OffCause) : Nat := v.ctorIdx

/-- The number of a supply state (R202, R25). -/
def SupplyState.code (v : SupplyState) : Nat := v.ctorIdx

/-- The number of an engine state (R202, R48). -/
def EngineState.code (v : EngineState) : Nat := v.ctorIdx

/-- The number of a policy (R202, R103). -/
def Policy.code (v : Policy) : Nat := v.ctorIdx

/-- The number of a motion (R202, R123). -/
def Motion.code (v : Motion) : Nat := v.ctorIdx

/-- The number of a context state (R202, R154). -/
def SeqState.code (v : SeqState) : Nat := v.ctorIdx

/-- The number of a step phase (R202, R160). -/
def Phase.code (v : Phase) : Nat := v.ctorIdx

/-- The number of the reason of a FRAME_DROPPED (R202, R106). -/
def DropReason.code (v : DropReason) : Nat := v.ctorIdx

/-- The number of the cause of a LENS_EVENT (R202, R135). -/
def LensCause.code (v : LensCause) : Nat := v.ctorIdx

/-- The number of the cause of a SEQUENCE_EVENT (R202, R177). -/
def SeqCause.code (v : SeqCause) : Nat := v.ctorIdx

/-- The number of the cause of a HOLD_LAPSED (R202, R128). -/
def HoldCause.code (v : HoldCause) : Nat := v.ctorIdx

/-- The number of the origin of an automatic admission (R202, R29). -/
def AdmitOrigin.code (v : AdmitOrigin) : Nat := v.ctorIdx

/-- The number of the cause of a POWER_EVENT (R202, R45): R45 lists the last off causes (R24), then the trip causes, then
UNDERCURRENT and SUPPLY. DEDUCED (log entry 55): the last two are off causes, and keep the numbers they have there. -/
def PowerCause.code : PowerCause → Nat
  | .off c => c.code
  | .trip c => 6 + c.code
  | .undercurrent => OffCause.undercurrent.code
  | .supply => OffCause.supply.code

/-- The number of the outcome of a write, OK or FAILED (R202, R147). -/
def storeOutcomeCode (ok : Bool) : Nat := if ok then 0 else 1

/-- The number of a record's kind in a STORE_DONE, PRESET, PROFILE or CELL (R202, R147). -/
def RecordName.code (v : RecordName) : Nat := v.ctorIdx

/-- The number of a write kind: R143 makes it the request kind, so it has that kind's number (R202), 23 to 27. -/
def WriteKind.code : WriteKind → Nat
  | .writePreset => RequestKind.writePreset.code
  | .erasePreset => RequestKind.erasePreset.code
  | .writeProfile => RequestKind.writeProfile.code
  | .writeCell => RequestKind.writeCell.code
  | .lockPreset => RequestKind.lockPreset.code

/-- The number of the write engine's state, IDLE or WRITING (R202, R143); it is WRITING exactly while a write is present. -/
def PresetStore.engineCode (st : PresetStore) : Nat := if st.write.isSome then 1 else 0

/-- The number of the write engine's state that READ_STORE_STATUS returns (R202, R152). -/
def StoreStatusReport.engineCode (r : StoreStatusReport) : Nat := if r.write.isSome then 1 else 0

/-- The number of PORT_POWER's action, ON or OFF (R202, R28). -/
def powerActionCode (on : Bool) : Nat := if on then 0 else 1

/-- The number of LOCK_PRESET's action, SET or CLEAR, as its command carries it (R202, R144). -/
def lockActionCode (set : Bool) : Nat := if set then 0 else 1

/-- The number of the reset that last occurred (R202, R201). -/
def ResetKind.code (v : ResetKind) : Nat := v.ctorIdx

/-- The number of an attachment, ATTACHED or DETACHED (R202, R187). -/
def attachmentCode (attached : Bool) : Nat := if attached then 0 else 1

/-- The number of a level, LOW or HIGH (R202, R180). -/
def levelCode (v : Level) : Nat := v.ctorIdx

/-- The number of a polarity (R202, R141). -/
def Polarity.code (v : Polarity) : Nat := v.ctorIdx

/-- The number of an end status (R202, R172). -/
def EndStatus.code (v : EndStatus) : Nat := v.ctorIdx

/-- The number of a reason of SEQUENCE_INVALID (R202, R156). -/
def LoadReason.code (v : LoadReason) : Nat := v.ctorIdx

/-- The fixed part of a REPLY record on a port, for a record of `length` bytes in all: the header, the result code and the
clamped fields' indices (11.1). On C byte 7 carries the part number and the last-part flag (R205), on A and B byte 6 the credit
figure. -/
def ReplyRecord.head (onC : Bool) (credit length : Nat) (r : ReplyRecord) : List Byte :=
  (Header.mk 2 r.kind r.tag length (if onC then 0 else credit)
      (if onC then r.part + (if r.lastPart then 128 else 0) else 0)).bytes ++
    [byte8 r.result.code, byte8 r.clamped.length] ++ r.clamped.map (fun c => byte8 c.1)

/-- The fixed part of a NOTICE record for a record of `length` bytes in all: the header, the timestamp, the urgent bit and the
overrun mark (11.1). -/
def Notice.head (onC : Bool) (credit length : Nat) (overrun : Bool) (n : Notice) : List Byte :=
  (Header.mk 3 n.body.kind.code 0 length (if onC then 0 else credit) 0).bytes ++ le64 n.stamp ++
    [bitsByte [n.urgent, overrun], 0]

/-! ## Listed records (11.2) -/

/-- The numbers of an origin: bytes 5 to 7 of a frame list entry. -/
def Origin.bytes : Origin → List Byte
  | .sequence m i => [0, byte8 (masterCode m), byte8 i]
  | .triggerLine n => [1, byte8 n.val, 0]
  | .softFire m => [2, byte8 (masterCode m), 0]
  | .freeRun => [3, 0, 0]

/-- The tag set's bits, from bit 0 on. -/
def Tags.bits (t : Tags) : List Bool :=
  [t.isPartial, t.missingClose, t.shapeFitted, t.gaps, t.truncated, t.damaged, t.overrun, t.cutOff, t.padded, t.lensMoving]

/-- A frame list entry, 50 bytes. -/
def ListEntry.bytes (f : ListEntry) : List Byte :=
  le32 f.id ++ [byte8 f.port.val] ++ f.origin.bytes ++ le16 f.cameraNo ++ le16 f.width ++ le16 f.lines ++ le16 f.stored ++
    le16 f.missing ++ le16 f.damaged ++ opt16 f.firstDamaged ++ [bitsByte (f.tags.bits.take 8), bitsByte (f.tags.bits.drop 8)] ++
    opt16 f.snapshot.focus ++ opt16 f.snapshot.iris ++ opt16 f.snapshot.zoom ++ [bitsByte [f.readers.a, f.readers.b]] ++
    [byte8 f.pins] ++ le64 f.openTime ++ le64 f.readyTime ++ le16 f.cameraLines

/-- The number of a sweep cause (R64). -/
def SweepCause.code : SweepCause → Nat
  | .request => 0 | .linkLost => 1 | .undercurrent => 2 | .shortTrip => 3

/-- The number of a break kind (R64). -/
def BreakKind.code : BreakKind → Nat
  | .short => 0 | .open => 1 | .cameraShort => 2 | .cameraEnd => 3 | .openUnplaced => 4 | .clear => 5

/-- A break record, 36 bytes. -/
def BreakRecord.bytes (r : BreakRecord) : List Byte :=
  le64 r.endTime ++ [byte8 r.cause.code, byte8 r.kind.code] ++
    [bitsByte [r.lengthDiffers, r.crossing.isSome, r.threshold.isSome], byte8 r.averaging] ++ le32 r.distance ++
    le16 (r.crossing.getD 0) ++ le16 (r.position.getD 0) ++ le16 (BitVec.ofInt 16 r.launch).toNat ++
    le16 (r.threshold.getD 0) ++ le16 (r.peak.getD 0) ++ le16 r.velocity ++ le16 r.offset ++ le32 r.installed ++ le16 0

/-! ### The preset record -/

/-- The bytes of a name, filled to 16. -/
def nameBytes (name : List Byte) : List Byte := (name ++ List.replicate 16 0).take 16

/-- The preset record READ_PRESET returns, 32 bytes. -/
def presetBytes (n : Nat) : Option Preset → List Byte
  | none => [byte8 n, 0, 0, 0] ++ le16 absentWord ++ le16 absentWord ++ le16 absentWord ++ List.replicate 22 0
  | some c =>
    [byte8 n, 1, byte8 (match c.port with | some p => p.val | none => 255),
      bitsByte [c.locked, c.targets.focus.isSome, c.targets.iris.isSome, c.targets.zoom.isSome]] ++ opt16 c.targets.focus ++
      opt16 c.targets.iris ++ opt16 c.targets.zoom ++ le16 c.settle ++ [byte8 c.name.length, 0, 0, 0] ++ nameBytes c.name

/-- The fields of a WRITE_PRESET as its record spells them. -/
structure PresetFields where
  number : Nat
  port : Nat
  name : List Byte
  targets : PerAxis (Option Nat)
  settle : Nat
  deriving DecidableEq, Repr

/-- The fields of a WRITE_PRESET record; `none` where it is malformed (11.2, R144, R203). DESIGN CHOICE: what stands in the name
bytes past the name length is not judged. -/
def parsePreset (l : List Byte) : Option PresetFields :=
  let t := byteAt l 12
  if l.length = 32 ∧ byteAt l 1 = 1 ∧ bitAt l 3 0 = false ∧ byteAt l 3 < 16 ∧ zerosAt l 13 3 = true ∧ t ≤ 16 then
    match presentWord (bitAt l 3 1) (wordAt l 4), presentWord (bitAt l 3 2) (wordAt l 6), presentWord (bitAt l 3 3) (wordAt l 8) with
    | some f, some i, some z => some ⟨byteAt l 0, byteAt l 2, (l.drop 16).take t, ⟨f, i, z⟩, wordAt l 10⟩
    | _, _, _ => none
  else none

/-! ### The sequence step -/

/-- The kind of a step with its parameters; `none` where reserved bits or unused bytes are not 0 or a presence bit and its
field disagree (R203, R204). DESIGN CHOICE: an absent preset number and an absent exposure, which no value marks as absent, are
not judged. -/
def parseStepKind (l : List Byte) : Option StepKind :=
  match byteAt l 0 with
  | 0 =>
    if byteAt l 2 < 32 ∧ zerosAt l 12 2 = true then
      match presentWord (bitAt l 2 1) (wordAt l 4), presentWord (bitAt l 2 2) (wordAt l 6),
          presentWord (bitAt l 2 3) (wordAt l 8), presentWord (bitAt l 2 4) (wordAt l 10) with
      | some f, some i, some z, some a => some (.lens (if bitAt l 2 0 then some (byteAt l 3) else none) ⟨f, i, z⟩ a)
      | _, _, _, _ => none
    else none
  | 1 => if zerosAt l 4 10 then some (.settle (wordAt l 2)) else none
  | 2 => if zerosAt l 3 1 && zerosAt l 6 8 then some (.await (byteAt l 2) (wordAt l 4)) else none
  | 3 =>
    if byteAt l 2 < 4 ∧ zerosAt l 3 1 = true then
      match presentWord (bitAt l 2 1) (wordAt l 12) with
      | some c => some (.trigger (if bitAt l 2 0 then some (longAt l 4) else none) (wordAt l 8) (wordAt l 10) c)
      | none => none
    else none
  | 4 => if zerosAt l 4 10 then some (.dwell (wordAt l 2)) else none
  | _ => none

/-- A step of 14 bytes. -/
def parseStep (l : List Byte) : Option Step :=
  if l.length = 14 ∧ byteAt l 1 < 32 then
    (parseStepKind l).map (fun k => ⟨k, bitAt l 1 0, bitAt l 1 1, bitAt l 1 2, bitAt l 1 3, bitAt l 1 4⟩)
  else none

/-- The first `n` steps of a list of bytes; `none` where one is malformed. -/
def parseSteps : Nat → List Byte → Option (List Step)
  | 0, _ => some []
  | n + 1, l =>
    match parseStep (l.take 14), parseSteps n (l.drop 14) with
    | some st, some rest => some (st :: rest)
    | _, _ => none

/-- R204: the port and the steps of a LOAD_SEQUENCE body; `none` where the count and the length disagree, a reserved byte is
not 0 or a step is malformed. -/
def parseLoad (l : List Byte) : Option (Nat × List Step) :=
  if 4 ≤ l.length ∧ l.length = 4 + 14 * byteAt l 1 ∧ zerosAt l 2 2 = true then
    (parseSteps (byteAt l 1) (l.drop 4)).map (fun st => (byteAt l 0, st))
  else none

/-! ### The fields of a request -/

/-- The request kinds without fields: READ_STORE, LOCK_DOWN, CLEAR_STORE_ERROR, READ_CELL, READ_STORE_STATUS, READ_TRIGGERS,
DETACH and READ_PART (R120, R150, R148, R152, R186, R200, R201). -/
def fieldless (kind : Nat) : Bool := [15, 28, 29, 32, 33, 41, 43, 44].contains kind

/-- The request kinds whose fields are all optional: SET_FRAME_POLICY, LIST_FRAMES and SET_NOTICE_MASK (R107, R119, R198). -/
def allOptional (kind : Nat) : Bool := [11, 14, 42].contains kind

/-- R192, R203, R204: whether the fields of a request match its kind, judged on the bytes received as far as the manual lays
them out: no byte for a kind without fields, 11.2's layouts for WRITE_PRESET (23) and LOAD_SEQUENCE (34), and some byte for a
kind with a field that is not optional. DESIGN CHOICE (log entry 6): beyond that the layout is open, and `fits` says it. -/
def fieldsMatch (kind : Nat) (fields : List Byte) (fits : Bool) : Bool :=
  if fieldless kind then fields.isEmpty
  else if kind = 23 then (parsePreset fields).isSome
  else if kind = 34 then (parseLoad fields).isSome
  else fits && (allOptional kind || !fields.isEmpty)

/-- The request entry a REQUEST record makes: it is malformed where byte 6 or 7 of its header is not 0 or its fields do not
match its kind (R192, R203). -/
def Header.entry (h : Header) (fields : List Byte) (fits : Bool) : RequestEntry :=
  { tag := h.tag, kind := h.kind, malformed := h.credit != 0 || h.part != 0 || !fieldsMatch h.kind fields fits,
    waiting := true, fields := fields }

/-- The bytes of a record's fields: what follows the header, up to the length it states (R190, 11.1). -/
def Header.fieldsOf (h : Header) (record : List Byte) : List Byte := (record.take h.length).drop 8

/-- The bytes 0 and 2 to 13 of a step by its kind. -/
def StepKind.bytes : StepKind → Byte × List Byte
  | .lens preset t allowance =>
    (0, [bitsByte [preset.isSome, t.focus.isSome, t.iris.isSome, t.zoom.isSome, allowance.isSome], byte8 (preset.getD absentWord)] ++
      opt16 t.focus ++ opt16 t.iris ++ opt16 t.zoom ++ opt16 allowance ++ [0, 0])
  | .settle t => (1, le16 t ++ List.replicate 10 0)
  | .await line t => (2, [byte8 line, 0] ++ le16 t ++ List.replicate 8 0)
  | .trigger exposure lines width close =>
    (3, [bitsByte [exposure.isSome, close.isSome], 0] ++ le32 (exposure.getD absentWord) ++ le16 lines ++ le16 width ++ opt16 close)
  | .dwell t => (4, le16 t ++ List.replicate 10 0)

/-- A step as READ_SEQUENCE returns it, 14 bytes. An absent field is written 65 535 (R203), an absent preset number, which has
one byte, as its low byte, 255 (log entry 38). -/
def Step.bytes (st : Step) : List Byte :=
  st.kind.bytes.1 :: bitsByte [st.chain, st.hold, st.note, st.lenient, st.discard] :: st.kind.bytes.2

/-! ## Drop link packets (11.3) -/

/-- The sum of bytes. -/
def byteSum (l : List Byte) : Nat := (l.map BitVec.toNat).sum

/-- The header check: the complement of the sum of bytes 0 to 2, modulo 256. -/
def headerCheck (l : List Byte) : Nat := 255 - byteSum (l.take 3) % 256

/-- A packet with a kind and a body. -/
def packetBytes (kind : Nat) (body : List Byte) : List Byte :=
  let head := byte8 kind :: le16 body.length
  head ++ [byte8 (headerCheck head)] ++ body ++ (if body = [] then [] else le16 (byteSum body % 65536))

/-- The number of an axis. -/
def axisCode : Axis → Nat
  | .focus => 0 | .iris => 1 | .zoom => 2

/-- The axis of a number. -/
def axisOf : Nat → Option Axis
  | 0 => some .focus
  | 1 => some .iris
  | 2 => some .zoom
  | _ => none

/-- The entries of a LENS_REPORT body after its count; `none` where a position is above 4095 or an axis is above 2 (R206).
DESIGN CHOICE: any settled flag other than 0 is set (log entry 29); axis and flag take one byte each (log entry 57). -/
def parseEntries : Nat → List Byte → Option (List ReportEntry)
  | 0, _ => some []
  | n + 1, l =>
    match axisOf (byteAt l 0), parseEntries n (l.drop 4) with
    | some a, some rest =>
      if wordAt l 1 ≤ 4095 then some (⟨a, wordAt l 1, decide (byteAt l 3 ≠ 0)⟩ :: rest) else none
    | _, _ => none

/-- Whether the entries of a LENS_REPORT name each axis at most once (R206). -/
def axesDistinct : List ReportEntry → Bool
  | [] => true
  | e :: rest => !(rest.any (fun x => decide (x.axis = e.axis))) && axesDistinct rest

/-- Whether a LENS_REPORT has the form R206 asks for. -/
def reportFits (l : List ReportEntry) : Bool :=
  decide (l.length ≤ 3) && axesDistinct l && l.all (fun e => decide (e.position ≤ 4095))

/-- The fields of a HELLO body; bytes that are not there read 0, and R6 judges the length. -/
def parseHello (l : List Byte) : HelloBody :=
  { modelLength := byteAt l 0, model := (l.drop 1).take 24, serialLength := byteAt l 25, serial := (l.drop 26).take 16,
    rateCode := byteAt l 42, powerClass := wordAt l 43, present := ⟨bitAt l 45 0, bitAt l 45 1, bitAt l 45 2⟩,
    speed := ⟨byteAt l 46, byteAt l 47, byteAt l 48⟩, bodyLength := l.length }

/-- R206: the packet of a kind and a checked body. -/
def packetOf (p : Port) (rate : Rate) (kind : Nat) (body : List Byte) : Instr :=
  match kind with
  | 0 => if body.length = 0 then .idle p rate else .malformedPacket p rate
  | 1 => .hello p rate (parseHello body)
  | 2 =>
    if body.length = 1 + 4 * byteAt body 0 ∧ byteAt body 0 ≤ 3 then
      match parseEntries (byteAt body 0) (body.drop 1) with
      | some l => if axesDistinct l then .lensReport p rate l else .malformedPacket p rate
      | none => .malformedPacket p rate
    else .malformedPacket p rate
  | 3 => if body.length = 6 then .frameOpen p rate (wordAt body 0) (wordAt body 2) (wordAt body 4) else .malformedPacket p rate
  | 4 =>
    if 2 ≤ body.length ∧ body.length ≤ 32770 then .line p rate (wordAt body 0) (body.drop 2) else .malformedPacket p rate
  | 5 => if body.length = 2 then .frameClose p rate (wordAt body 0) else .malformedPacket p rate
  | _ => .malformedPacket p rate

/-- R1, R206: the event that the bytes of one packet, received on a port at a rate, are to the hub. -/
def upPacketOf (p : Port) (rate : Rate) (l : List Byte) : Instr :=
  let n := wordAt l 1
  if l.length < 4 ∨ byteAt l 3 ≠ headerCheck l then .checkFailedPacket p rate none
  else
    let body := (l.drop 4).take n
    if n = 0 ∨ (body.length = n ∧ wordAt l (4 + n) = byteSum body % 65536 ∧ l.length = 6 + n) then
      packetOf p rate (byteAt l 0) body
    else if byteAt l 0 = 4 ∧ 2 ≤ body.length then .checkFailedPacket p rate (some (wordAt body 0, body.drop 2))
    else .checkFailedPacket p rate none

/-- The bytes of a LENS_REPORT entry. -/
def ReportEntry.bytes (e : ReportEntry) : List Byte := byte8 (axisCode e.axis) :: le16 e.position ++ [byte8 e.settled.toNat]

/-- The body of a HELLO. -/
def helloBytes (h : HelloBody) : List Byte :=
  byte8 h.modelLength :: h.model ++ byte8 h.serialLength :: h.serial ++ byte8 h.rateCode :: le16 h.powerClass ++
    [bitsByte [h.present.focus, h.present.iris, h.present.zoom], byte8 h.speed.focus, byte8 h.speed.iris, byte8 h.speed.zoom]

/-- The bytes of an up-channel packet that passes its checks and has the form of its kind; `none` for every other command. -/
def upPacketBytes : Instr → Option (List Byte)
  | .idle _ _ => some (packetBytes 0 [])
  | .hello _ _ h => some (packetBytes 1 (helloBytes h))
  | .lensReport _ _ l => some (packetBytes 2 (byte8 l.length :: l.flatMap ReportEntry.bytes))
  | .frameOpen _ _ f w n => some (packetBytes 3 (le16 f ++ le16 w ++ le16 n))
  | .line _ _ k payload => some (packetBytes 4 (le16 k ++ payload))
  | .frameClose _ _ c => some (packetBytes 5 (le16 c))
  | _ => none

/-- The targets of a LENS_GOTO, entry by entry. DESIGN CHOICE (log entry 60): the entries stand in the order focus, iris, zoom. -/
def gotoEntries (t : PerAxis (Option Nat)) : List (Nat × Nat) :=
  [(0, t.focus), (1, t.iris), (2, t.zoom)].filterMap (fun e => e.2.map (fun v => (e.1, v)))

/-- The bytes of a down-channel packet (11.3). DESIGN CHOICE (log entry 57): the rate of a WELCOME and a RATE_SET and the entry count
and the axes of a LENS_GOTO, to which 11.3 gives no width, take one byte each. -/
def DownPacket.bytes : DownPacket → List Byte
  | .idle => packetBytes 0 []
  | .welcome r => packetBytes 1 [byte8 r.code]
  | .rateSet r => packetBytes 2 [byte8 r.code]
  | .trigger exposure => packetBytes 3 (le32 (exposure.getD 0))
  | .lensGoto t =>
    packetBytes 4 (byte8 (gotoEntries t).length :: (gotoEntries t).flatMap (fun e => byte8 e.1 :: le16 e.2))
  | .lensStop => packetBytes 5 []

end Sys2Proof.Machine
end

