-- ==== Sys2Proof/Machine/Lens.lean ====
section
/-! DEFINITION. The lens control family (chapter 6): reports, deadlines, holds, moves, presets recalled and READ_LENS. -/

namespace Sys2Proof.Machine

/-! ## Reports and stalls (R133, R134) -/

/-- R133: whether an axis settles on a report entry. -/
def AxisRec.settles (a : AxisRec) (e : ReportEntry) : Bool :=
  decide (a.motion = .moving) && e.settled &&
    (match a.target with
      | some t => decide (e.position ≤ t + Config.settleTolerance) && decide (t ≤ e.position + Config.settleTolerance)
      | none => false)

/-- R133: one entry of a report taken by its axis. -/
def AxisRec.report (a : AxisRec) (e : ReportEntry) : AxisRec :=
  let b := { a with position := some e.position }
  if a.settles e then b.toIdle else b

/-- R133: one entry of a report taken by the lens record; an entry for an axis outside the set is ignored. -/
def LensRec.reportEntry (l : LensRec) (e : ReportEntry) : LensRec :=
  { l with axes := l.axes.set e.axis ((l.axes.get e.axis).map (fun a => a.report e)) }

/-- R133: whether some entry of a report settles an axis; the entries name different axes. -/
def LensRec.someSettles (l : LensRec) (entries : List ReportEntry) : Bool :=
  entries.any (fun e => ((l.axes.get e.axis).map (fun a => a.settles e)).getD false)

/-- R133, R135: a LENS_REPORT taken by the lens controller: the sequencer is told before the LENS_EVENT is sent. DESIGN CHOICE
(log entry 53): it is told once, after every entry has been taken. -/
def State.takeReport (s : State) (p : Port) (entries : List ReportEntry) : State :=
  let settled := (s.port p).lens.someSettles entries
  let s1 := s.updLens p (fun l => entries.foldl LensRec.reportEntry l)
  let still := !(s1.port p).lens.anyMoving
  let s2 := if settled then s1.seqAxisIdle p else s1
  if settled && still then s2.lensEvent p .settled else s2

/-- LENS_REPORT (R2, R133): a report without the form R206 asks for is a malformed packet. -/
def execLensReport (p : Port) (rate : Rate) (entries : List ReportEntry) (s : State) : Outcome :=
  .next
    (if !s.receives p rate then s
     else if !reportFits entries then ((s.hear p).countClean p).countStray p
     else s.routed p (fun t => t.takeReport p entries))

/-- R134: an axis stalls. -/
def AxisRec.stall (a : AxisRec) : AxisRec := { a with motion := .stalled, deadline := none }

/-- LENS_DEADLINE (R134). -/
def execLensDeadline (p : Port) (axis : Axis) (s : State) : Outcome :=
  .next
    (match (s.port p).lens.axes.get axis with
     | some a =>
       if a.motion = .moving ∧ passed s.now a.deadline = true then
         let s1 := s.updLens p (fun l => { l with axes := l.axes.set axis (some a.stall) })
         (s1.seqAxisStalled p axis).lensEvent p (.stalled axis)
       else s
     | none => s)

/-! ## Holds (R126 to R128) -/

/-- The holder and the implicit flag, as TAKE_LENS returns them. -/
def State.holdBody (s : State) (p : Port) : ReplyBody := .hold (s.port p).lens.holder (s.port p).lens.implicit

/-- R126: the lens held explicitly by a master. -/
def LensRec.heldBy (m : Master) (l : LensRec) : LensRec := { l with holder := some m, implicit := false }

/-- TAKE_LENS (R126). -/
def execTakeLens (m : Master) (port : Nat) (s : State) : Outcome :=
  .next (s.takeRequest m .takeLens true (onPort port (fun p s =>
    if (s.port p).lens.heldByOther m then ({ result := .lensHeld, body := s.holdBody p }, s)
    else
      let s1 := s.updLens p (LensRec.heldBy m)
      ({ result := .done, body := s1.holdBody p }, s1))))

/-- GIVE_LENS (R127). -/
def execGiveLens (m : Master) (port : Nat) (s : State) : Outcome :=
  .next (s.takeRequest m .giveLens true (onPort port (fun p s =>
    if (s.port p).lens.holder ≠ some m then refusing .notHolder s
    else if (s.port p).seq.active ∧ (s.port p).seq.starter = some m then refusing .sequenceActive s
    else ({ result := .done }, s.updLens p LensRec.freed))))

/-- R128: a hold is broken: freed, a sequence under it ended, the former holder told. -/
def State.breakHold (s : State) (p : Port) : State :=
  match (s.port p).lens.holder with
  | none => s
  | some h =>
    let ended := (s.port p).seq.active
    ((s.updLens p LensRec.freed).seqHoldLapsed p).notify h true (.holdLapsed p .breakHold ended)

/-- BREAK_HOLD (R128). -/
def execBreakHold (m : Master) (port : Nat) (s : State) : Outcome :=
  .next (s.takeRequest m .breakHold true (onPort port (fun p s => ({ result := .done }, s.breakHold p))))

/-! ## Moves (R130, R132, R136) -/

/-- R130: the targets a move asks for, clamped. -/
def clampTargets (t : PerAxis (Option Int)) : PerAxis (Option Nat) := t.map (Option.map clampTarget)

/-- R130: the clamped targets of a reply; the targets are fields 1 to 3. -/
def targetEntries (t : PerAxis (Option Int)) : List (Nat × Nat) :=
  targetEntry 1 t.focus ++ targetEntry 2 t.iris ++ targetEntry 3 t.zoom

/-- MOVE_LENS (R130, R131). -/
def execMoveLens (m : Master) (port : Nat) (targets : PerAxis (Option Int)) (settle : Option Nat) (s : State) : Outcome :=
  .next (s.takeRequest m .moveLens true (onPort port (fun p s =>
    if 2000 < settle.getD 20 then refusing .badRange s
    else if (s.port p).lens.heldByOther m then refusing .lensHeld s
    else if (s.port p).link.state ≠ .up then refusing .cameraUnavailable s
    else
      let t := clampTargets targets
      ({ result := .done, clamped := targetEntries targets, body := .ignored ((s.port p).lens.ignoredAxes t) },
       s.makeMove p t (settle.getD 20) (some m)))))

/-- R132: the lens is stopped: LENS_STOP unless the axis set is empty, every axis IDLE, the sequencer told of each motion
change. -/
def State.stopLens (s : State) (p : Port) : State :=
  let l := (s.port p).lens
  let changed := l.anyMoving || l.anyStalled
  let s1 := if l.noAxes then s else s.handDown p .lensStop
  let s2 := s1.updLens p (fun l => { l with axes := l.axes.map (Option.map AxisRec.toIdle) })
  if changed then s2.seqAxisIdle p else s2

/-- STOP_LENS (R132). -/
def execStopLens (m : Master) (port : Nat) (s : State) : Outcome :=
  .next (s.takeRequest m .stopLens true (onPort port (fun p s =>
    if (s.port p).lens.heldByOther m then refusing .lensHeld s
    else if (s.port p).link.state ≠ .up then refusing .cameraUnavailable s
    else ({ result := .done }, s.stopLens p))))

/-- RECALL_PRESET (R136). -/
def execRecallPreset (m : Master) (port preset : Nat) (s : State) : Outcome :=
  .next (s.takeRequest m .recallPreset true (onPort port (fun p s =>
    match presetNo preset with
    | none => refusing .badRange s
    | some n =>
      if s.presets.writing (.preset n) then refusing .storeBusy s
      else
        match s.presets.preset n with
        | none => refusing .noSuch s
        | some c =>
          if c.port ≠ none ∧ c.port ≠ some p then refusing .badRange s
          else if (s.port p).lens.heldByOther m then refusing .lensHeld s
          else if (s.port p).link.state ≠ .up then refusing .cameraUnavailable s
          else
            ({ result := .done, body := .ignored ((s.port p).lens.ignoredAxes c.targets) },
             s.makeMove p c.targets c.settle (some m)))))

/-- READ_LENS (R137). -/
def execReadLens (m : Master) (port : Nat) (s : State) : Outcome :=
  .next (s.takeRequest m .readLens true (onPort port (fun p =>
    answering (fun s =>
      { result := .done, body := .lens ⟨(s.port p).link.state, (s.port p).lens, (s.port p).seq.state⟩ }))))

end Sys2Proof.Machine
end

