-- ==== Sys2Proof/Machine/Links.lean ====
section
/-! DEFINITION. The camera link family (chapter 1, R206): packets at the link controller, the down-channel, the link's deadlines
and the three link requests. A packet at another rate than the listen rate, or at a disconnected receiver, is not received and
changes nothing (R1, R9). -/

namespace Sys2Proof.Machine

/-- R1: one more check-failed packet. -/
def State.countFailed (s : State) (p : Port) : State :=
  s.updCounters p (fun c => { c with checkFailed := satInc c.checkFailed })

/-- R1, R14: one more check failure in the error window. DESIGN CHOICE (log entry 59): a window count of 4 294 967 295 stays
there. -/
def LinkRec.failInWindow (l : LinkRec) : LinkRec :=
  { l with window := l.window.map (fun w => { w with count := satInc w.count }) }

/-- CHECK_FAILED_PACKET (R1). -/
def execCheckFailedPacket (p : Port) (rate : Rate) (body : Option (Nat × List Byte)) (s : State) : Outcome :=
  .next
    (if !s.receives p rate then s
     else
      let s1 := (s.hear p).countFailed p
      match (s.port p).link.state with
      | .up =>
        let s2 := s1.updLink p LinkRec.failInWindow
        match body with
        | some (k, payload) => s2.takeLine p k payload true
        | none => s2
      | .training | .retraining => s1.failAttempt p
      | _ => s1)

/-- MALFORMED_PACKET (R206). -/
def execMalformedPacket (p : Port) (rate : Rate) (s : State) : Outcome :=
  .next (if !s.receives p rate then s else ((s.hear p).countClean p).countStray p)

/-- IDLE (R2). -/
def execIdle (p : Port) (rate : Rate) (s : State) : Outcome :=
  .next (if !s.receives p rate then s else (s.hear p).countClean p)

/-- HELLO (R2, R6 to R8): in TRAINING and RETRAINING it first counts toward the clean run. -/
def execHello (p : Port) (rate : Rate) (h : HelloBody) (s : State) : Outcome :=
  .next (if !s.receives p rate then s else ((s.hear p).countClean p).takeHello p h)

/-- R3: the down-channel sends the next packet handed to it, or IDLE. A packet that needs the link UP is dropped unsent when it
is not. -/
def State.sendDown (s : State) (p : Port) : State :=
  match (s.port p).waiting with
  | [] => s.updPort p (fun r => { r with lastSent := some .idle })
  | k :: rest =>
    if k.needsUp && decide ((s.port p).link.state ≠ .up) then s.updPort p (fun r => { r with waiting := rest })
    else s.updPort p (fun r => { r with waiting := rest, lastSent := some k })

/-- DOWN_CHANNEL_SEND (R3). -/
def execDownChannelSend (p : Port) (s : State) : Outcome :=
  .next (if (s.port p).link.state.sends then s.sendDown p else s)

/-- HELLO_TIMEOUT (R5). -/
def execHelloTimeout (p : Port) (s : State) : Outcome :=
  .next
    (if (s.port p).link.state = .awaitHello ∧ passed s.now (s.port p).link.helloDeadline = true then s.enterLost p .helloTimeout
     else s)

/-- ATTEMPT_DEADLINE (R9). -/
def execAttemptDeadline (p : Port) (s : State) : Outcome :=
  .next (if passed s.now ((s.port p).link.attempt.map Attempt.deadline) then s.failAttempt p else s)

/-- LOCK_LOSS (R17). -/
def execLockLoss (p : Port) (s : State) : Outcome :=
  .next (if (s.port p).link.lockLost s.now then s.enterLost p .lockLost else s)

/-- R14, R15: the window ends and the link stays UP: a new window starts at the end of the old one, the DEGRADED mark becomes
`mark`, and a change of it is reported with the window's count. -/
def State.nextWindow (s : State) (p : Port) (w : Window) (mark : Bool) : State :=
  let s1 := s.updLink p (fun l => { l with window := some ⟨w.start + ms 1000, 0⟩, degraded := mark })
  if (s.port p).link.degraded = mark then s1 else s1.linkEvent p .up (some w.count)

/-- R14: an error window of an UP link is judged at its end. -/
def State.judgeWindow (s : State) (p : Port) (w : Window) : State :=
  if (s.port p).profile.degradeThreshold < w.count then
    match (s.port p).link.current.bind Rate.lower with
    | some r => s.enterRetraining p r (some w.count)
    | none => s.nextWindow p w true
  else s.nextWindow p w false

/-- ERROR_WINDOW_END (R14). -/
def execErrorWindowEnd (p : Port) (s : State) : Outcome :=
  .next
    (match (s.port p).link.window with
     | some w => if (s.port p).link.state = .up ∧ w.start + ms 1000 ≤ s.now then s.judgeWindow p w else s
     | none => s)

/-- R21: what READ_CAMERA returns. -/
def PortRec.cameraReport (r : PortRec) : CameraReport :=
  { state := r.link.state, current := r.link.current, rateLimit := r.profile.rateLimit, identity := r.link.identity,
    degraded := r.link.degraded, changed := r.link.changed, lastCause := r.link.lastCause,
    windowCount := r.link.window.map Window.count, counters := r.counters }

/-- READ_CAMERA (R21): the reply reports CAMERA_CHANGED as it stood, and the mark is then clear. -/
def execReadCamera (m : Master) (port : Nat) (s : State) : Outcome :=
  .next (s.takeRequest m .readCamera true (onPort port (fun p s =>
    ({ result := .done, body := .camera (s.port p).cameraReport }, s.updLink p (fun l => { l with changed := false })))))

/-- SET_RATE_LIMIT (R22). -/
def execSetRateLimit (m : Master) (port rate : Nat) (s : State) : Outcome :=
  .next (s.takeRequest m .setRateLimit true (onPort port (fun p s =>
    match rateOf rate with
    | some r => ({ result := .done }, s.updPort p (fun t => { t with profile := { t.profile with rateLimit := r } }))
    | none => refusing .badRange s)))

/-- RETRAIN (R23). -/
def execRetrain (m : Master) (port : Nat) (s : State) : Outcome :=
  .next (s.takeRequest m .retrain true (onPort port (fun p s =>
    if (s.port p).link.state = .up then
      let r := ((s.port p).link.current.getD .r1250).min (s.port p).profile.rateLimit
      ({ result := .done }, s.enterRetraining p r none)
    else refusing .cameraUnavailable s)))

end Sys2Proof.Machine
end

