-- ==== Sys2Proof/Machine/MasterPorts.lean ====
section
/-! DEFINITION. The master port family (chapter 10): the fabric links, the SPI port, the outbound links, the requests of the
master port unit and the teardown of a master. -/

namespace Sys2Proof.Machine

/-! ## Arrivals and credit (R188 to R190, R203) -/

/-- R187, R203: one more framing error. -/
def MasterRec.countFraming (r : MasterRec) : MasterRec := { r with framingErrors := satInc r.framingErrors }

/-- R187, R189: one more protocol error. -/
def MasterRec.countProtocol (r : MasterRec) : MasterRec := { r with protocolErrors := satInc r.protocolErrors }

/-- R189: a credit message is due where the figure has changed and no message waits to carry it. -/
def MasterRec.noteCredit (r : MasterRec) : MasterRec :=
  if creditFigure r ≠ r.advertised ∧ messageWaits r = false then { r with creditDue := true } else r

/-- R189, R192: a request enters the request queue, or is a protocol error where it holds 8 entries. -/
def MasterRec.enqueue (e : RequestEntry) (r : MasterRec) : MasterRec :=
  if Config.requestEntries ≤ r.requests.length then r.countProtocol else { r with requests := r.requests ++ [e] }

/-- R189, R203: a record delivered by a fabric link. -/
def MasterRec.fabricRecord (record : List Byte) (sound fits : Bool) (r : MasterRec) : MasterRec :=
  if !sound then r.countFraming
  else
    match parseHeader record with
    | none => r.countFraming
    | some h =>
      if 1 < h.format ∨ h.length ≠ record.length then r.countFraming
      else if h.format = 0 then r
      else (r.enqueue (h.entry (h.fieldsOf record) fits)).noteCredit

/-- FABRIC_RECORD_ARRIVAL (R188, R189, R203): nothing is received while DETACHED. -/
def execFabricRecordArrival (a : Analysis) (record : List Byte) (sound fits : Bool) (s : State) : Outcome :=
  .next
    (if (s.master a.master).attached then s.updMaster a.master (MasterRec.fabricRecord record sound fits) else s)

/-- R191, R197: the head item of a transaction. -/
def MasterRec.headItem (r : MasterRec) : HeadItem :=
  match r.replies, r.notices with
  | x :: _, _ => .reply x
  | [], n :: _ => .notice n r.overrun
  | [], [] => .empty

/-- R191: what the fall of select fixes. -/
def MasterRec.newTxn (r : MasterRec) : SpiTxn :=
  { queueFull := decide (Config.requestEntries ≤ r.requests.length), status := statusByte r, head := r.headItem,
    headQueued := decide (r.headItem ≠ .empty), overflowed := false }

/-- R191: a transaction begins. -/
def MasterRec.openTxn (r : MasterRec) : MasterRec := { r with spi := some r.newTxn }

/-- SPI_SELECT_FALL (R191). -/
def execSpiSelectFall (s : State) : Outcome :=
  .next (if (s.master .C).spi.isSome then s else s.updMaster .C MasterRec.openTxn)

/-- R190, R203: the record shifted in, judged at the rise of select. -/
def MasterRec.spiRecord (mosi : List Byte) (onBoundary fits : Bool) (t : SpiTxn) (r : MasterRec) : MasterRec :=
  match parseHeader mosi with
  | none => r.countFraming
  | some h =>
    if h.length < 8 ∨ Config.spiRecordBytes < h.length ∨ onBoundary = false ∨ mosi.length < h.length ∨ 1 < h.format then
      r.countFraming
    else if h.format = 0 then r
    else if t.queueFull then r.countProtocol
    else r.enqueue (h.entry (h.fieldsOf mosi) fits)

/-- R191, R195, R205: the head item consumed leaves its queue; the last part of a reply frees its request's entry; a notice
that carried the overrun mark clears it unless a further overflow has occurred. -/
def MasterRec.consume (t : SpiTxn) (r : MasterRec) : MasterRec :=
  if !t.headQueued then r
  else
    match t.head with
    | .empty => r
    | .reply x => { r with replies := r.replies.drop 1, requests := if x.lastPart then r.requests.drop 1 else r.requests }
    | .notice _ mark => { r with notices := r.notices.drop 1, overrun := r.overrun && (!mark || t.overflowed) }

/-- R190, R191: the end of a transaction. -/
def MasterRec.closeTxn (mosi : List Byte) (onBoundary headOut fits : Bool) (r : MasterRec) : MasterRec :=
  match r.spi with
  | none => r
  | some t =>
    let r1 := r.spiRecord mosi onBoundary fits t
    let r2 := if headOut then r1.consume t else r1
    { r2 with spi := none }

/-- SPI_SELECT_RISE (R190, R191). -/
def execSpiSelectRise (mosi : List Byte) (onBoundary headOut fits : Bool) (s : State) : Outcome :=
  .next (if (s.master .C).spi.isSome then s.updMaster .C (MasterRec.closeTxn mosi onBoundary headOut fits) else s)

/-! ## The outbound links (R189, R195, R197) -/

/-- R197, R189: a message begins on a link, carrying the credit figure. -/
def MasterRec.begins (msg : OutMsg) (r : MasterRec) : MasterRec :=
  { r with sending := some ⟨msg, creditFigure r⟩, advertised := creditFigure r, creditDue := false }

/-- R197: the message a free link begins: a credit message, the oldest reply, the head notice with the overrun mark (R195),
the next fetch message. -/
def MasterRec.beginNext (r : MasterRec) : MasterRec :=
  if r.creditDue then r.begins .credit
  else
    match r.replies, r.notices, r.fetchOut with
    | x :: rest, _, _ => { r with replies := rest }.begins (.reply x true)
    | [], n :: rest, _ => { r with notices := rest, overrun := false }.begins (.notice n r.overrun)
    | [], [], f :: rest => { r with fetchOut := rest }.begins (.fetch f)
    | [], [], [] => r

/-- OUTBOUND_SEND_START (R197). -/
def execOutboundSendStart (a : Analysis) (s : State) : Outcome :=
  .next
    (if (s.master a.master).attached ∧ (s.master a.master).sending = none then s.updMaster a.master MasterRec.beginNext
     else s)

/-- R189: a message has been sent whole; a reply frees the entry of its request. -/
def MasterRec.sent (r : MasterRec) : MasterRec :=
  match r.sending with
  | none => r
  | some x =>
    let r1 := { r with sending := none }
    let r2 := match x.msg with
      | .reply _ true => { r1 with requests := r1.requests.drop 1 }
      | _ => r1
    r2.noteCredit

/-- OUTBOUND_SEND_COMPLETE (R189). -/
def execOutboundSendComplete (a : Analysis) (s : State) : Outcome :=
  .next (if (s.master a.master).sending.isSome then s.updMaster a.master MasterRec.sent else s)

/-! ## Teardown (R199, R129, R179) -/

/-- R199, step 1: a message that has begun is sent whole, but its reply frees no entry of the emptied queue. -/
def Sending.detached (x : Sending) : Sending :=
  match x.msg with
  | .reply r _ => { x with msg := .reply r false }
  | _ => x

/-- R199, steps 1 and 2; `own` keeps the entry of the DETACH being taken, the last one taken (R200). -/
def MasterRec.emptied (own : Bool) (r : MasterRec) : MasterRec :=
  { r with requests := if own then (r.requests.filter (fun e => !e.waiting)).getLast?.toList else []
           replies := [], notices := [], overrun := false, fetchOut := [], sending := r.sending.map Sending.detached
           spi := r.spi.map (fun t => { t with headQueued := false }), mask := NoticeMask.all, watermark := 1 }

/-- R129: one lens record at the teardown of a master. -/
def State.lensTeardown (m : Master) (s : State) (p : Port) : State :=
  let s1 := if (s.port p).lens.holder = some m then (s.updLens p LensRec.freed).seqHoldLapsed p else s
  s1.updLens p (fun l => if l.mover = some m then { l with mover := none } else l)

/-- R199: the teardown of a master, as one event. Notices to the torn-down master that its own steps produce are not queued to
it, so its queue stands empty at the end. -/
def State.teardown (s : State) (m : Master) (own : Bool) : State :=
  let s1 := s.updMaster m (MasterRec.emptied own)
  let s2 := match m.analysis with
    | some a => s1.storeTeardown a
    | none => s1
  let s3 := allPorts.foldl (State.lensTeardown m) s2
  let s4 := allPorts.foldl (fun t p => t.seqTeardown p m) s3
  s4.updMaster m (fun r => { r with notices := [], overrun := false })

/-- R188: the port becomes DETACHED; nothing is sent on it. -/
def MasterRec.detach (r : MasterRec) : MasterRec := { r with attached := false, sending := none, creditDue := false }

/-- FABRIC_LOCK_LOST (R188): a loss of lock lasting more than 1 ms on an ATTACHED port. -/
def execFabricLockLost (a : Analysis) (forUs : Nat) (s : State) : Outcome :=
  .next
    (if (s.master a.master).attached = true ∧ ms 1 < forUs then (s.updMaster a.master MasterRec.detach).teardown a.master false
     else s)

/-- R188: the port becomes ATTACHED, and advertises 8 free entries (R189). -/
def MasterRec.attach (r : MasterRec) : MasterRec := { r with attached := true, creditDue := true }

/-- FABRIC_LOCK_RETURN (R188). -/
def execFabricLockReturn (a : Analysis) (s : State) : Outcome :=
  .next (if (s.master a.master).attached then s else s.updMaster a.master MasterRec.attach)

/-! ## Requests of the unit (R192, R198, R200, R201) -/

/-- UNKNOWN_REQUEST_KIND (R192): the master's next request, of an unknown kind, is taken and answered BAD_REQUEST. -/
def execUnknownRequestKind (m : Master) (s : State) : Outcome :=
  .next
    (match (s.master m).nextRequest with
     | some e =>
       if knownKind e.kind then s
       else
         (s.updMaster m (fun r => { r with requests := takeFirst r.requests })).reply m e { result := .badRequest }
     | none => s)

/-- R198: whether a mask names notice kinds only. -/
def maskFits : Option (List Nat) → Bool
  | some l => l.all (within 1 10)
  | none => true

/-- SET_NOTICE_MASK (R198). -/
def execSetNoticeMask (m : Master) (enabled : Option (List Nat)) (watermark : Option Nat) (s : State) : Outcome :=
  .next (s.takeRequest m .setNoticeMask (maskFits enabled) (fun s =>
    let s1 := s.updMaster m (fun r =>
      { r with mask := (enabled.map NoticeMask.ofList).getD r.mask,
               watermark := (watermark.map (clampTo 1 32)).getD r.watermark })
    ({ result := .done
       clamped := (match watermark with
         | some w => clampEntry 1 w (clampTo 1 32 w)
         | none => [])
       body := .mask (s1.master m).mask (s1.master m).watermark }, s1)))

/-- DETACH (R200). -/
def execDetach (m : Master) (s : State) : Outcome :=
  .next (s.takeRequest m .detach true (fun s => ({ result := .done }, s.teardown m true)))

/-- R201: what READ_PART returns. -/
def State.partReport (s : State) : PartReport :=
  { name := "Hadmira VC-8", revision := 1, cameraPorts := 8, masterPorts := 3, triggerLines := 4, lastReset := s.lastReset, now := s.now,
    ports := [Master.A, .B, .C].map
      (fun m => ((s.master m).attached, (s.master m).protocolErrors, (s.master m).framingErrors)) }

/-- READ_PART (R201). -/
def execReadPart (m : Master) (s : State) : Outcome :=
  .next (s.takeRequest m .readPart true (answering (fun s => { result := .done, body := .part s.partReport })))

end Sys2Proof.Machine
end

