-- ==== Sys2Proof/Machine/Power.lean ====
section
/-! DEFINITION. The port power family (chapter 2): current samples, the start queue's events, the supply and the power
requests. -/

namespace Sys2Proof.Machine

/-- CURRENT_SAMPLE (2.5, R34, R35). -/
def execCurrentSample (p : Port) (mA : Nat) (s : State) : Outcome := .next (s.takeSample p mA)

/-- OVERLOAD (R35, R36): the sample that takes the overload run of an ON port to 20. -/
def execOverload (p : Port) (mA : Nat) (s : State) : Outcome :=
  .next (if (s.port p).power.completesOverload (sampleOf mA) then s.takeSample p mA else s)

/-- UNDERCURRENT (R39): the sample that takes the undercurrent run of an ON port to 500. -/
def execUndercurrent (p : Port) (mA : Nat) (s : State) : Outcome :=
  .next (if (s.port p).power.completesUnder (sampleOf mA) then s.takeSample p mA else s)

/-- R34: the inrush window has ended: the port is ON. -/
def PowerRec.enterOn (w : PowerRec) : PowerRec :=
  { w with state := .on, overloadRun := 0, underRun := 0, inrush := none }

/-- R34, R5: a port goes from INRUSH to ON. -/
def State.finishInrush (s : State) (p : Port) : State :=
  let s1 := ((s.updPower p PowerRec.enterOn).updMgr (fun g => { g with lastInrushEnd := some s.now })).updLink p
    LinkRec.enterAwait
  (s1.powerEvent false (s1.powerChange p .inrush none)).testHead

/-- INRUSH_END (R34). -/
def execInrushEnd (p : Port) (s : State) : Outcome :=
  .next
    (if (s.port p).power.state = .inrush ∧ passed s.now ((s.port p).power.inrush.map Prod.snd) = true then s.finishInrush p
     else s)

/-- STAGGER_GAP_END (R32): the gap has run out after the last inrush end. -/
def execStaggerGapEnd (s : State) : Outcome :=
  .next (if s.mgr.lastInrushEnd.isSome && s.gapPassed then s.testHead else s)

/-- QUEUE_HEAD_START (R32, R33): the head port starts. -/
def execQueueHeadStart (s : State) : Outcome := .next s.testHead

/-- SUPPLY_STATE_LOW (R41, R42): in NORMAL, below 20.0 V throughout the last 5 ms. -/
def execSupplyStateLow (highestMv forUs : Nat) (s : State) : Outcome :=
  .next (if s.mgr.supply = .normal ∧ highestMv < 20000 ∧ ms 5 ≤ forUs then s.supplyLow else s)

/-- SUPPLY_STATE_NORMAL (R41, R43, R44): in LOW, at or above 21.0 V throughout the last 100 ms, which began after the reset's
end. -/
def execSupplyStateNormal (lowestMv forUs : Nat) (s : State) : Outcome :=
  .next (if s.mgr.supply = .low ∧ 21000 ≤ lowestMv ∧ ms 100 ≤ forUs ∧ ms 100 ≤ s.now then s.supplyNormal else s)

/-- R28: a list of ports, where every entry lies in 0..7. -/
def portList : List Nat → Option (List Port)
  | [] => some []
  | n :: rest =>
    match portOf n, portList rest with
    | some p, some l => some (p :: l)
    | _, _ => none

/-- R28: whether the list of a PORT_POWER has 1 to 8 entries. -/
def portListFits (l : List Nat) : Bool := within 1 8 l.length

/-- R28: each entry admitted against the state the entries before it left; the entry results in list order. -/
def State.admitList : List Port → State → List Result × State
  | [], s => ([], s)
  | p :: rest, s =>
    let r := State.admitList rest (s.admitPort p)
    (s.admissionOutcome p :: r.1, r.2)

/-- PORT_POWER with action ON (R27, R28): the entries are one event, after which the head is tested. -/
def execPortPowerOn (m : Master) (ports : List Nat) (s : State) : Outcome :=
  .next (s.takeRequest m .portPower (portListFits ports) (fun s =>
    match portList ports with
    | none => refusing .badRange s
    | some l =>
      let r := s.admitList l
      ({ result := .done, body := .entryResults r.1 }, r.2.testJoined s.mgr.startQueue)))

/-- R30: one entry of an off list: the port is switched off, and leaves the restore set while the supply is LOW. -/
def State.offEntry (s : State) (p : Port) : State :=
  let s1 := s.switchOff p .request
  if s1.mgr.supply = .low then s1.updMgr (fun g => { g with restoreSet := g.restoreSet.filter (fun q => !(q == p)) }) else s1

/-- PORT_POWER with action OFF (R28, R30): the head is tested after the list where a port left an energized state (R37). -/
def execPortPowerOff (m : Master) (ports : List Nat) (s : State) : Outcome :=
  .next (s.takeRequest m .portPower (portListFits ports) (fun s =>
    match portList ports with
    | none => refusing .badRange s
    | some l =>
      let s1 := l.foldl State.offEntry s
      ({ result := .done, body := .entryResults (l.map (fun _ => Result.done)) },
       if l.any (fun p => (s.port p).power.state.energized) then s1.testHead else s1)))

/-- R46: what READ_POWER returns. -/
def State.powerReport (s : State) (p : Port) : PowerReport :=
  let r := s.port p
  { state := r.power.state, position := if r.power.state = .queued then positionOf p s.mgr.startQueue else none,
    sample := r.power.sample, peak := r.power.peak, committed := r.power.allotment, liveAllotment := r.profile.allotment,
    marks := r.marks, openSuspect := r.power.openSuspect, lastTrip := r.power.lastTrip, lastOff := r.power.lastOff,
    deenergized := r.power.deenergized, supply := s.mgr.supply, budget := s.mgr.budget, committedSum := s.mgr.committed,
    startQueue := s.mgr.startQueue }

/-- READ_POWER (R46). -/
def execReadPower (m : Master) (port : Nat) (s : State) : Outcome :=
  .next (s.takeRequest m .readPower true (onPort port (fun p =>
    answering (fun s => { result := .done, body := .power (s.powerReport p) }))))

/-- R40: the latch of a TRIPPED port and LOCKOUT are cleared. -/
def State.clearFault (s : State) (p : Port) : State :=
  let s1 := if (s.port p).power.state = .tripped then
      let t := s.updPower p (fun w => { w with state := .off, lastOff := some .cleared })
      t.powerEvent false (t.powerChange p .tripped (some (.off .cleared)))
    else s
  s1.updMarks p (fun k => { k with lockout := false })

/-- CLEAR_PORT_FAULT (R40). -/
def execClearPortFault (m : Master) (port : Nat) (s : State) : Outcome :=
  .next (s.takeRequest m .clearPortFault true (onPort port (fun p s => ({ result := .done }, s.clearFault p))))

end Sys2Proof.Machine
end

