-- ==== Sys2Proof/Machine/Presets.lean ====
section
/-! DEFINITION. The preset store family (chapter 7): the five write requests, the completion of a write, lock-down, the store
error and the reads. -/

namespace Sys2Proof.Machine

/-! ## Write requests (R144, R145) -/

/-- Whether a preset reads as one whose lock flag is set (R149). -/
def PresetStore.locked (st : PresetStore) (n : Fin 64) : Bool := ((st.preset n).map Preset.locked).getD false

/-- R145: the first four rows: busy, fault, a locked preset, lock-down. -/
def PresetStore.writeRefusal (st : PresetStore) (kind : WriteKind) (record : RecordName) : Option Result :=
  if st.write.isSome then some .storeBusy
  else if st.fault then some .storeFault
  else
    match kind, record with
    | .writePreset, .preset n | .erasePreset, .preset n => if st.locked n then some .presetLocked else none
    | .writePreset, _ | .erasePreset, _ => none
    | .writeProfile, _ | .writeCell, _ | .lockPreset, _ => if st.lockDown then some .lockedDown else none

/-- R145: a write of a record that passes the first rows starts. -/
def State.takeWrite (s : State) (m : Master) (kind : WriteKind) (record : RecordName) (content : NewContent)
    (clamps : List (Nat × Nat)) : Answer × State :=
  match s.presets.writeRefusal kind record with
  | some r => ({ result := r, clamped := clamps }, s)
  | none =>
    ({ result := .accepted, clamped := clamps },
     s.updPresets (fun st => st.startWrite ⟨record, kind, m, content, s.now⟩))

/-- R144: the targets of a WRITE_PRESET, clamped. -/
def PresetFields.clampedTargets (f : PresetFields) : PerAxis (Option Nat) := f.targets.map (Option.map (clampTo 0 4095))

/-- R144: one clamped target of a WRITE_PRESET. -/
def presetClamp (index : Nat) : Option Nat → List (Nat × Nat)
  | some t => clampEntry index t (clampTo 0 4095 t)
  | none => []

/-- R144: the clamped fields of a WRITE_PRESET; the targets are fields 3 to 5. -/
def PresetFields.clamps (f : PresetFields) : List (Nat × Nat) :=
  presetClamp 3 f.targets.focus ++ presetClamp 4 f.targets.iris ++ presetClamp 5 f.targets.zoom

/-- R144: the camera port of a preset, 255 for ANY (11.2); `none` where it is neither. -/
def presetPort (n : Nat) : Option (Option Port) := if n = 255 then some none else (portOf n).map some

/-- R144, R145: a WRITE_PRESET judged. -/
def State.takeWritePreset (s : State) (m : Master) (f : PresetFields) : Answer × State :=
  match presetNo f.number, presetPort f.port with
  | some n, some port =>
    if 2000 < f.settle then ({ result := .badRange, clamped := f.clamps }, s)
    else
      s.takeWrite m .writePreset (.preset n)
        (.preset (some { port := port, name := f.name, targets := f.clampedTargets, settle := f.settle, locked := false }))
        f.clamps
  | _, _ => ({ result := .badRange, clamped := f.clamps }, s)

/-- WRITE_PRESET (R144). -/
def execWritePreset (m : Master) (record : List Byte) (s : State) : Outcome :=
  .next (s.ofRecord m record (s.takeRequest m .writePreset (parsePreset record).isSome (fun s =>
    match parsePreset record with
    | some f => s.takeWritePreset m f
    | none => refusing .badRequest s)))

/-- ERASE_PRESET (R144). -/
def execErasePreset (m : Master) (preset : Nat) (s : State) : Outcome :=
  .next (s.takeRequest m .erasePreset true (fun s =>
    match presetNo preset with
    | none => refusing .badRange s
    | some n => s.takeWrite m .erasePreset (.preset n) (.preset none) []))

/-- WRITE_PROFILE (R144). -/
def execWriteProfile (m : Master) (port : Nat) (fields : RawProfile) (s : State) : Outcome :=
  .next (s.takeRequest m .writeProfile (parseProfile fields).isSome (fun s =>
    match parseProfile fields with
    | none => refusing .badRequest s
    | some (c, clamps) =>
      match portOf port with
      | none => ({ result := .badRange, clamped := clamps }, s)
      | some p => s.takeWrite m .writeProfile (.profile p) (.profile c) clamps))

/-- WRITE_CELL (R144, R145): a budget below the committed sum is refused in the last row. -/
def execWriteCell (m : Master) (fields : RawCell) (s : State) : Outcome :=
  .next (s.takeRequest m .writeCell (parseCell fields).isSome (fun s =>
    match parseCell fields with
    | none => refusing .badRequest s
    | some (c, clamps) =>
      if s.presets.writeRefusal .writeCell .cell = none ∧ c.budget < s.mgr.committed then
        ({ result := .overCommitted, clamped := clamps }, s)
      else s.takeWrite m .writeCell .cell (.cell c) clamps))

/-- R145, R149: a LOCK_PRESET that passes the first rows. -/
def State.takeLock (s : State) (m : Master) (n : Fin 64) (set : Bool) : Answer × State :=
  match s.presets.writeRefusal .lockPreset (.preset n), s.presets.preset n with
  | some r, _ => refusing r s
  | none, none => refusing .noSuch s
  | none, some c =>
    if c.locked = set then ({ result := .done }, s)
    else s.takeWrite m .lockPreset (.preset n) (.preset (some { c with locked := set })) []

/-- LOCK_PRESET (R144, R145, R149): action SET 0, CLEAR 1. -/
def execLockPreset (m : Master) (preset action : Nat) (s : State) : Outcome :=
  .next (s.takeRequest m .lockPreset (decide (action ≤ 1)) (fun s =>
    match presetNo preset with
    | none => refusing .badRange s
    | some n => s.takeLock m n (decide (action = 0))))

/-! ## Completion (R146, R147, R163) -/

/-- R146, R147: what the write's outcome leaves in the store. DESIGN CHOICE (log entry 62): a FAILED write leaves the record's former
content under the invalid mark, where no request can read it. -/
def PresetStore.finishWrite (st : PresetStore) (w : Write) (ok : Bool) : PresetStore :=
  if ok then { st.program w.record w.content with write := none } else { st with write := none, fault := true }

/-- R147, R163, R32: a write completes: the record, the live values, STORE_DONE to the writer, the test of the head where the
stagger gap has changed, and the LENS steps that waited for the preset, in port number order. -/
def State.completeWrite (s : State) (w : Write) (ok : Bool) : State :=
  let s1 := s.updPresets (fun st => st.finishWrite w ok)
  let s2 := if ok then s1.loadWritten w.content w.record else s1
  let s3 := s2.notify w.writer false (.storeDone w.record w.kind ok s2.presets.fault)
  let s4 := if s3.mgr.stagger = s.mgr.stagger then s3 else s3.testHead
  match w.record with
  | .preset n => allPorts.foldl (fun t p => t.seqStoreDone p n) s4
  | _ => s4

/-- STORE_WRITE_COMPLETE (R147). -/
def execStoreWriteComplete (matched : Bool) (s : State) : Outcome :=
  .next
    (match s.presets.write with
     | some w => s.completeWrite w matched
     | none => s)

/-! ## Lock-down and the store error (R148, R150) -/

/-- R150: whether the engine is writing a profile, the cell record or a LOCK_PRESET. -/
def PresetStore.settingsWrite (st : PresetStore) : Bool :=
  match st.write.map Write.kind with
  | some .writeProfile | some .writeCell | some .lockPreset => true
  | _ => false

/-- LOCK_DOWN (R150). -/
def execLockDown (m : Master) (s : State) : Outcome :=
  .next (s.takeRequest m .lockDown true (fun s =>
    if s.presets.lockDown then ({ result := .done }, s)
    else if s.presets.settingsWrite then refusing .storeBusy s
    else ({ result := .done }, s.updPresets (fun st => { st with lockDown := true }))))

/-- CLEAR_STORE_ERROR (R148). -/
def execClearStoreError (m : Master) (s : State) : Outcome :=
  .next (s.takeRequest m .clearStoreError true (fun s =>
    ({ result := .done }, s.updPresets (fun st => { st with fault := false }))))

/-! ## Reads (R152) -/

/-- READ_PRESET (R152). -/
def execReadPreset (m : Master) (preset : Nat) (s : State) : Outcome :=
  .next (s.takeRequest m .readPreset true (answering (fun s =>
    match presetNo preset with
    | none => { result := .badRange }
    | some n =>
      if s.presets.writing (.preset n) then { result := .storeBusy }
      else { result := .done, body := .preset n (s.presets.preset n) })))

/-- READ_PROFILE (R152). -/
def execReadProfile (m : Master) (port : Nat) (s : State) : Outcome :=
  .next (s.takeRequest m .readProfile true (onPort port (fun p => answering (fun s =>
    if s.presets.writing (.profile p) then { result := .storeBusy }
    else { result := .done, body := .profile (s.presets.profile p) (s.port p).profile }))))

/-- READ_CELL (R152). -/
def execReadCell (m : Master) (s : State) : Outcome :=
  .next (s.takeRequest m .readCell true (answering (fun s =>
    if s.presets.writing .cell then { result := .storeBusy }
    else
      { result := .done
        body := .cell s.presets.cellContent s.mgr.budget s.mgr.stagger (s.lines.map LineRec.settings) })))

/-- R152: what READ_STORE_STATUS returns. DESIGN CHOICE (log entry 63): the preset numbers stand in rising order. -/
def PresetStore.statusReport (st : PresetStore) : StoreStatusReport :=
  { write := st.write.map (fun w => (w.record, w.kind, w.writer, w.start)), fault := st.fault, lockDown := st.lockDown,
    loadReport := st.loadReport, held := allPresets.filter (fun n => (st.preset n).isSome),
    locked := allPresets.filter st.locked }

/-- READ_STORE_STATUS (R152). -/
def execReadStoreStatus (m : Master) (s : State) : Outcome :=
  .next (s.takeRequest m .readStoreStatus true (answering (fun s =>
    { result := .done, body := .storeStatus s.presets.statusReport })))

end Sys2Proof.Machine
end

