-- ==== Sys2Proof/Machine/Resets.lean ====
section
/-! DEFINITION. The two resets: POR (R72) and the warm reset (R71), each of which returns every block to the values its rules
give and reloads the live values from the records (R151, R153). -/

namespace Sys2Proof.Machine

/-- The state after a reset. Both keep the records and the DRAM's bytes; a warm reset keeps LOCKOUT, the break logs, FAULT and
lock-down, which POR clears (R24, R47, R65, R71, R72, R143). The commands that wait belong to the model and stay. -/
def State.afterReset (s : State) (kind : ResetKind) : State :=
  let st := s.presets
  let cell := st.cellContent
  { now := 0
    lastReset := kind
    ports := Vector.ofFn (fun p =>
      PortRec.afterReset (st.profile p) (decide (kind = .warm) && (s.port p).marks.lockout)
        (if kind = .warm then (s.port p).breakLog else []))
    mgr := PowerMgr.afterReset cell.budget cell.stagger
    engine := BreakEngine.reset
    store := Store.afterReset s.store.dram
    presets := st.afterReset kind
    lines := Vector.ofFn (fun l => LineRec.afterReset (cell.lines.get l))
    masters := mastersAfterReset
    pending := s.pending }

/-- POR: power-on reset (R72). -/
def execPor (s : State) : Outcome := .next (s.afterReset .por)

/-- WARM_RESET: assertion of the RESET pin (R71). -/
def execWarmReset (s : State) : Outcome := .next (s.afterReset .warm)

end Sys2Proof.Machine
end

