-- ==== Sys2Proof/Machine/Sequences.lean ====
section
/-! DEFINITION. The capture sequence family (chapter 8): step deadlines, the TRIGGER handover, the cadence and the sequence
requests. -/

namespace Sys2Proof.Machine

/-! ## Deadlines and waits -/

/-- Whether the step deadline of a context in a phase has passed. -/
def SeqCtx.due (now : Time) (f : Phase) (c : SeqCtx) : Bool := c.inPhase f && passed now c.deadline

/-- SETTLE_TIMEOUT (R164). -/
def execSettleTimeout (p : Port) (s : State) : Outcome :=
  .next (if (s.port p).seq.due s.now .settling then s.endRun p .lensStalled else s)

/-- AWAIT_TIMEOUT (R165). -/
def execAwaitTimeout (p : Port) (s : State) : Outcome :=
  .next (if (s.port p).seq.due s.now .awaiting then s.endRun p .awaitTimeout else s)

/-- R96, R169: the close timeout of a step with a bound frame: a frame FILLING is finalized PARTIAL first, and named where it was
stored. -/
def State.frameTimedOut (s : State) (p : Port) : State :=
  match (s.port p).seq.bound with
  | some (.frame id) =>
    if (s.port p).boundLive then
      let stored := ((s.frame? id).map FrameRec.stored).getD 0
      (s.finalize p ⟨true, false⟩ false).endRun p .frameTimeout { frame := if stored = 0 then none else some id }
    else s.endRun p .frameTimeout
  | _ => s.endRun p .frameTimeout

/-- CLOSE_TIMEOUT (R96, R169). -/
def execCloseTimeout (p : Port) (s : State) : Outcome :=
  .next
    (if (s.port p).seq.due s.now .openWait then s.endRun p .frameTimeout
     else if (s.port p).seq.due s.now .frameWait then s.frameTimedOut p
     else s)

/-- TRIGGER_HANDOVER (R166): a TRIGGER step in INTAKE_WAIT finds the intake no longer FILLING. -/
def execTriggerHandover (p : Port) (s : State) : Outcome :=
  .next
    (if (s.port p).seq.inPhase .intakeWait = true ∧ (s.port p).intake.state ≠ .filling then
       match (s.port p).seq.currentStep with
       | some st =>
         match st.kind with
         | .trigger exposure _ _ close => s.handTrigger p exposure (closeTimeoutOf close)
         | _ => s
       | none => s
     else s)

/-- DWELL_END (R170). -/
def execDwellEnd (p : Port) (s : State) : Outcome :=
  .next (if (s.port p).seq.due s.now .dwelling then s.completeStep p else s)

/-! ## Cadence (R175, R176) -/

/-- R176: a restart by the cadence, or a skip. -/
def State.cadenceRestart (s : State) (p : Port) : State :=
  match (s.port p).seq.starter with
  | none => s
  | some m =>
    let r := s.judgeStart p m
    if r = .done then s.startRun p m none
    else
      let s1 := s.updSeq p (fun c => { c with skips := satInc c.skips })
      s1.seqEvent p false (.skipped r (s1.port p).seq.skips) none

/-- R175: a cadence event finds the run in progress. -/
def State.cadenceOverrun (s : State) (p : Port) : State :=
  let s1 := s.updSeq p (fun c => { c with overruns := satInc c.overruns })
  s1.seqEvent p false (.overrun (s1.port p).seq.overruns) (s1.port p).seq.index

/-- R175: a cadence event. -/
def State.cadenceEvent (s : State) (p : Port) : State :=
  let s1 := s.updSeq p (fun c => { c with cadence := c.cadence.map (fun t => t + ms c.period) })
  let c := (s1.port p).seq
  if c.active then s1.cadenceOverrun p
  else if c.state = .ready ∧ c.ended.map Prod.fst = some .normal then s1.cadenceRestart p
  else s1

/-- CADENCE_DEADLINE (R175). -/
def execCadenceDeadline (p : Port) (s : State) : Outcome :=
  .next (if passed s.now (s.port p).seq.cadence then s.cadenceEvent p else s)

/-! ## Requests -/

/-- R157: a step list that passes its checks replaces the context's. -/
def SeqCtx.load (m : Master) (l : List Step) (c : SeqCtx) : SeqCtx :=
  { c with state := .ready, owner := some m, steps := some l, pageCount := pageCountOf l, recordCount := recordCountOf l,
           starter := none, ended := none, tookHold := false, runs := 0, overruns := 0, skips := 0, lastEdge := none,
           period := 0, cadence := none }

/-- R156, R157: a LOAD_SEQUENCE judged. -/
def State.takeLoad (s : State) (m : Master) (port : Nat) (l : List Step) : Answer × State :=
  match portOf port with
  | none => refusing .badRange s
  | some p =>
    if (s.port p).seq.active then refusing .sequenceActive s
    else
      match loadFailure l with
      | some (i, why) => ({ result := .sequenceInvalid, body := .invalid i why }, s)
      | none => ({ result := .done, body := .loaded (pageCountOf l) (recordCountOf l) }, s.updSeq p (SeqCtx.load m l))

/-- LOAD_SEQUENCE (R156, R157, R204). -/
def execLoadSequence (m : Master) (body : List Byte) (s : State) : Outcome :=
  .next (s.ofRecord m body (s.takeRequest m .loadSequence (parseLoad body).isSome (fun s =>
    match parseLoad body with
    | some (port, l) => s.takeLoad m port l
    | none => refusing .badRequest s)))

/-- R158: whether a cadence period is 0 or in its range. -/
def periodFits (t : Nat) : Bool := t == 0 || within 10 600000 t

/-- R158: the rows of START_SEQUENCE. -/
def State.startRefusal (s : State) (p : Port) (m : Master) : Result :=
  if (s.port p).seq.state = .empty then .noSuch
  else if (s.port p).seq.active then .sequenceActive
  else s.judgeStart p m

/-- START_SEQUENCE (R158, R159): the reply carries the run count, the reservation and the cadence deadline of the start. -/
def execStartSequence (m : Master) (port period : Nat) (s : State) : Outcome :=
  .next (s.takeRequest m .startSequence true (onPort port (fun p s =>
    if !periodFits period then refusing .badRange s
    else
      let r := s.startRefusal p m
      if r ≠ .done then refusing r s
      else
        let c := (s.port p).seq
        ({ result := .done
           body := .started (satInc c.runs) c.pageCount c.recordCount (if period = 0 then none else some (s.now + ms period)) },
         s.startRun p m (some period)))))

/-- R161: a HELD step starts. -/
def State.resume (s : State) (p : Port) : State :=
  match (s.port p).seq.currentStep with
  | some st => State.afterStart (s.startStep p st) p
  | none => s

/-- RESUME_SEQUENCE (R161). -/
def execResumeSequence (m : Master) (port : Nat) (s : State) : Outcome :=
  .next (s.takeRequest m .resumeSequence true (onPort port (fun p s =>
    if (s.port p).seq.state ≠ .held then refusing .notHeld s
    else if (s.port p).seq.starter ≠ some m then refusing .notPermitted s
    else ({ result := .done }, s.resume p))))

/-- HALT_SEQUENCE (R171). -/
def execHaltSequence (m : Master) (port : Nat) (s : State) : Outcome :=
  .next (s.takeRequest m .haltSequence true (onPort port (fun p s =>
    if !(s.port p).seq.active then refusing .notRunning s
    else if (s.port p).seq.starter ≠ some m ∧ m ≠ .C then refusing .notPermitted s
    else ({ result := .done }, s.endRun p .halted))))

/-- R178: what READ_SEQUENCE returns; an EMPTY context returns its state and counts alone. -/
def State.sequenceBody (s : State) (p : Port) : ReplyBody :=
  let c := (s.port p).seq
  let l := (s.port p).lens
  if c.state = .empty then .emptySequence c.state c.runs c.overruns c.skips
  else .sequence { c with steps := none } (c.steps.getD []) l.holder l.implicit

/-- READ_SEQUENCE (R178). -/
def execReadSequence (m : Master) (port : Nat) (s : State) : Outcome :=
  .next (s.takeRequest m .readSequence true (onPort port (fun p =>
    answering (fun s => { result := .done, body := s.sequenceBody p }))))

end Sys2Proof.Machine
end

