-- ==== Sys2Proof/Machine/Triggers.lean ====
section
/-! DEFINITION. The trigger line family (chapter 9): the debounce filter, edges and their delivery, FIRE and the trigger
requests. -/

namespace Sys2Proof.Machine

/-! ## Samples (R181) -/

/-- The interval between samples of a line, µs (R181). -/
def sampleInterval : Nat := 10

/-- R181: the length of the run after a sample. -/
def LineRec.runAfter (v : Level) (r : LineRec) : Nat := if r.runLevel = some v then r.runCount + 1 else 1

/-- R181: the run cleared. -/
def LineRec.noRun (r : LineRec) : LineRec := { r with runLevel := none, runCount := 0 }

/-- R181: a sample that goes on with a run, or accepts its level. -/
def LineRec.extend (v : Level) (r : LineRec) : LineRec :=
  if r.settings.debounce ≤ r.runAfter v then { r.noRun with accepted := some v }
  else { r with runLevel := some v, runCount := r.runAfter v }

/-- R181: one sample taken into the filter. -/
def LineRec.sample (v : Level) (r : LineRec) : LineRec :=
  let t := { r with sampled := v }
  if r.accepted = some v then t.noRun else t.extend v

/-- R181: whether a sample makes an accepted transition. -/
def LineRec.transits (v : Level) (r : LineRec) : Bool :=
  r.accepted.isSome && decide (r.accepted ≠ some v) && decide (r.settings.debounce ≤ r.runAfter v)

/-- R181: the stamp of a transition: the time of the first sample of its run. -/
def LineRec.stampOf (now : Time) (v : Level) (r : LineRec) : Time := now - (r.runAfter v - 1) * sampleInterval

/-! ## Edges (R182, R183) -/

/-- R182: whether a transition to a level is an edge of the chosen polarity. -/
def LineSettings.isEdge (v : Level) (t : LineSettings) : Bool :=
  t.enable && (match t.polarity with
    | .rising => decide (v = .high)
    | .falling => decide (v = .low))

/-- R182: whether an edge lies within the hold-off. -/
def LineRec.heldOff (stamp : Time) (r : LineRec) : Bool :=
  match r.lastEdge with
  | some t => decide (stamp < t + ms r.settings.holdOff)
  | none => false

/-- R183, R165: whether a context awaits line `l`. -/
def SeqCtx.awaits (l : LineNo) (c : SeqCtx) : Bool :=
  c.inPhase .awaiting && (match c.currentStep with
    | some st =>
      match st.kind with
      | .await n _ => n == l.val
      | _ => false
    | none => false)

/-- R183, R184: an unsequenced trigger: a TRIGGER handed over, and the pending origin set. -/
def State.fireUnsequenced (s : State) (p : Port) (exposure : Option Nat) (origin : PendingOrigin) : State :=
  (s.handDown p (.trigger exposure)).updIntake p (fun i => { i with pendingOrigin := some origin })

/-- R183: an accepted edge of line `l` at one camera. -/
def State.deliverEdge (l : LineNo) (stamp : Time) (s : State) (p : Port) : State :=
  let r := s.port p
  if r.seq.awaits l then (s.updSeq p (fun c => { c with lastEdge := some stamp })).completeStep p
  else if r.seq.active then s.updCounters p (fun c => { c with earlyEdges := satInc c.earlyEdges })
  else if r.link.state ≠ .up ∨ r.intake.state = .filling then
    s.updCounters p (fun c => { c with triggersNotSent := satInc c.triggersNotSent })
  else s.fireUnsequenced p none (.triggerLine l)

/-- The ports of a route mask, in port number order. -/
def routePorts (mask : BitVec 8) : List Port := allPorts.filter (fun p => mask.getLsbD p.val)

/-- R182: an edge with its stamp: ignored under the hold-off, or accepted and delivered. -/
def State.takeEdge (s : State) (l : LineNo) (stamp : Time) : State :=
  let r := s.lines.get l
  if r.heldOff stamp then s.updLine l (fun r => { r with ignoredCount := satInc r.ignoredCount })
  else
    (routePorts r.settings.route).foldl (State.deliverEdge l stamp)
      (s.updLine l (fun r => { r with lastEdge := some stamp, acceptedCount := satInc r.acceptedCount }))

/-- R181, R182: one sample of a line. -/
def State.takeLevel (s : State) (l : LineNo) (v : Level) : State :=
  let r := s.lines.get l
  let s1 := s.updLine l (LineRec.sample v)
  if r.transits v && r.settings.isEdge v then s1.takeEdge l (r.stampOf s.now v) else s1

/-- TRIGGER_LINE_SAMPLE (R181). -/
def execTriggerLineSample (l : LineNo) (level : Level) (s : State) : Outcome := .next (s.takeLevel l level)

/-- ACCEPTED_TRANSITION (R182): the sample that completes a run against the accepted level. -/
def execAcceptedTransition (l : LineNo) (level : Level) (s : State) : Outcome :=
  .next (if (s.lines.get l).transits level then s.takeLevel l level else s)

/-! ## Requests (R184 to R186) -/

/-- FIRE (R184). -/
def execFire (m : Master) (port : Nat) (exposure : Option Nat) (s : State) : Outcome :=
  .next (s.takeRequest m .fire true (onPort port (fun p s =>
    if !optWithin 10 1000000 exposure then refusing .badRange s
    else if (s.port p).seq.active then refusing .sequenceActive s
    else if (s.port p).link.state ≠ .up then refusing .cameraUnavailable s
    else if (s.port p).intake.state = .filling then refusing .cameraBusy s
    else ({ result := .done }, s.fireUnsequenced p exposure (.softFire m)))))

/-- R185: the settings with each field given replacing the one in force. -/
def LineSettings.replaced (t : LineSettings) (r : RawLine) : LineSettings :=
  { enable := r.enable.getD t.enable, polarity := (r.polarity.bind polarityOf).getD t.polarity,
    debounce := (r.debounce.map (clampTo 1 255)).getD t.debounce, holdOff := (r.holdOff.map (clampTo 0 1000)).getD t.holdOff,
    route := (r.route.map (BitVec.ofNat 8)).getD t.route }

/-- R185: the clamped fields; debounce is field 3 and hold-off field 4. -/
def lineClamps (r : RawLine) : List (Nat × Nat) :=
  (match r.debounce with
    | some d => clampEntry 3 d (clampTo 1 255 d)
    | none => []) ++
  (match r.holdOff with
    | some h => clampEntry 4 h (clampTo 0 1000 h)
    | none => [])

/-- SET_TRIGGER_LINE (R185). DESIGN CHOICE (log entry 58): a refusal with BAD_RANGE lists no clamped field, whatever the debounce
and the hold-off given. -/
def execSetTriggerLine (m : Master) (line : Nat) (settings : RawLine) (s : State) : Outcome :=
  .next (s.takeRequest m .setTriggerLine (polarityFits settings.polarity) (fun s =>
    match lineOf line with
    | none => refusing .badRange s
    | some l =>
      if !optWithin 0 255 settings.route then refusing .badRange s
      else
        let s1 := s.updLine l (fun r => { r with settings := r.settings.replaced settings })
        ({ result := .done, clamped := lineClamps settings, body := .line (s1.lines.get l).settings }, s1)))

/-- READ_TRIGGERS (R186): the reply leaves the filter's run out. -/
def execReadTriggers (m : Master) (s : State) : Outcome :=
  .next (s.takeRequest m .readTriggers true (answering (fun s =>
    { result := .done
      body := .triggers (s.lines.toList.map LineRec.noRun)
        (allPorts.map (fun p => ((s.port p).counters.triggersNotSent, (s.port p).counters.earlyEdges))) })))

end Sys2Proof.Machine
end

