-- ==== Sys2Proof/Machine/Dispatch.lean ====
section
/-! DEFINITION. The meaning of each command, one arm per constructor, each one direct call. -/

namespace Sys2Proof.Machine

def exec (i : Instr) (s : State) : Host.Outcome State Fault Refusal :=
  match i with
  | .por => Sys2Proof.Machine.execPor s
  | .warmReset => Sys2Proof.Machine.execWarmReset s
  | .checkFailedPacket p rate body => Sys2Proof.Machine.execCheckFailedPacket p rate body s
  | .malformedPacket p rate => Sys2Proof.Machine.execMalformedPacket p rate s
  | .idle p rate => Sys2Proof.Machine.execIdle p rate s
  | .hello p rate h => Sys2Proof.Machine.execHello p rate h s
  | .lensReport p rate entries => Sys2Proof.Machine.execLensReport p rate entries s
  | .frameOpen p rate frameNo width lines => Sys2Proof.Machine.execFrameOpen p rate frameNo width lines s
  | .line p rate k payload => Sys2Proof.Machine.execLine p rate k payload s
  | .frameClose p rate c => Sys2Proof.Machine.execFrameClose p rate c s
  | .inactivityTimeout p => Sys2Proof.Machine.execInactivityTimeout p s
  | .dramWriteGrant => Sys2Proof.Machine.execDramWriteGrant s
  | .fetchReadGrant => Sys2Proof.Machine.execFetchReadGrant s
  | .downChannelSend p => Sys2Proof.Machine.execDownChannelSend p s
  | .helloTimeout p => Sys2Proof.Machine.execHelloTimeout p s
  | .attemptDeadline p => Sys2Proof.Machine.execAttemptDeadline p s
  | .lockLoss p => Sys2Proof.Machine.execLockLoss p s
  | .errorWindowEnd p => Sys2Proof.Machine.execErrorWindowEnd p s
  | .currentSample p mA => Sys2Proof.Machine.execCurrentSample p mA s
  | .overload p mA => Sys2Proof.Machine.execOverload p mA s
  | .undercurrent p mA => Sys2Proof.Machine.execUndercurrent p mA s
  | .inrushEnd p => Sys2Proof.Machine.execInrushEnd p s
  | .staggerGapEnd => Sys2Proof.Machine.execStaggerGapEnd s
  | .queueHeadStart => Sys2Proof.Machine.execQueueHeadStart s
  | .supplyStateLow highestMv forUs => Sys2Proof.Machine.execSupplyStateLow highestMv forUs s
  | .supplyStateNormal lowestMv forUs => Sys2Proof.Machine.execSupplyStateNormal lowestMv forUs s
  | .dischargeEnd => Sys2Proof.Machine.execDischargeEnd s
  | .acquisitionRepetition samples => Sys2Proof.Machine.execAcquisitionRepetition samples s
  | .acquisitionEnd => Sys2Proof.Machine.execAcquisitionEnd s
  | .lensDeadline p axis => Sys2Proof.Machine.execLensDeadline p axis s
  | .storeWriteComplete matched => Sys2Proof.Machine.execStoreWriteComplete matched s
  | .settleTimeout p => Sys2Proof.Machine.execSettleTimeout p s
  | .awaitTimeout p => Sys2Proof.Machine.execAwaitTimeout p s
  | .closeTimeout p => Sys2Proof.Machine.execCloseTimeout p s
  | .triggerHandover p => Sys2Proof.Machine.execTriggerHandover p s
  | .dwellEnd p => Sys2Proof.Machine.execDwellEnd p s
  | .cadenceDeadline p => Sys2Proof.Machine.execCadenceDeadline p s
  | .triggerLineSample l level => Sys2Proof.Machine.execTriggerLineSample l level s
  | .acceptedTransition l level => Sys2Proof.Machine.execAcceptedTransition l level s
  | .fabricRecordArrival a record sound fits => Sys2Proof.Machine.execFabricRecordArrival a record sound fits s
  | .spiSelectFall => Sys2Proof.Machine.execSpiSelectFall s
  | .spiSelectRise mosi onBoundary headOut fits => Sys2Proof.Machine.execSpiSelectRise mosi onBoundary headOut fits s
  | .outboundSendStart a => Sys2Proof.Machine.execOutboundSendStart a s
  | .outboundSendComplete a => Sys2Proof.Machine.execOutboundSendComplete a s
  | .fabricLockLost a forUs => Sys2Proof.Machine.execFabricLockLost a forUs s
  | .fabricLockReturn a => Sys2Proof.Machine.execFabricLockReturn a s
  | .unknownRequestKind m => Sys2Proof.Machine.execUnknownRequestKind m s
  | .readCamera m port => Sys2Proof.Machine.execReadCamera m port s
  | .setRateLimit m port rate => Sys2Proof.Machine.execSetRateLimit m port rate s
  | .retrain m port => Sys2Proof.Machine.execRetrain m port s
  | .portPowerOn m ports => Sys2Proof.Machine.execPortPowerOn m ports s
  | .portPowerOff m ports => Sys2Proof.Machine.execPortPowerOff m ports s
  | .readPower m port => Sys2Proof.Machine.execReadPower m port s
  | .clearPortFault m port => Sys2Proof.Machine.execClearPortFault m port s
  | .sweep m port averaging => Sys2Proof.Machine.execSweep m port averaging s
  | .readBreakLog m port => Sys2Proof.Machine.execReadBreakLog m port s
  | .subscribe m port => Sys2Proof.Machine.execSubscribe m port s
  | .unsubscribe m port => Sys2Proof.Machine.execUnsubscribe m port s
  | .setFramePolicy m holdLimit policy => Sys2Proof.Machine.execSetFramePolicy m holdLimit policy s
  | .fetch m frame first count => Sys2Proof.Machine.execFetch m frame first count s
  | .release m frame => Sys2Proof.Machine.execRelease m frame s
  | .listFrames m named skip => Sys2Proof.Machine.execListFrames m named skip s
  | .readStore m => Sys2Proof.Machine.execReadStore m s
  | .takeLens m port => Sys2Proof.Machine.execTakeLens m port s
  | .giveLens m port => Sys2Proof.Machine.execGiveLens m port s
  | .breakHold m port => Sys2Proof.Machine.execBreakHold m port s
  | .moveLens m port targets settle => Sys2Proof.Machine.execMoveLens m port targets settle s
  | .stopLens m port => Sys2Proof.Machine.execStopLens m port s
  | .recallPreset m port preset => Sys2Proof.Machine.execRecallPreset m port preset s
  | .readLens m port => Sys2Proof.Machine.execReadLens m port s
  | .writePreset m record => Sys2Proof.Machine.execWritePreset m record s
  | .erasePreset m preset => Sys2Proof.Machine.execErasePreset m preset s
  | .writeProfile m port fields => Sys2Proof.Machine.execWriteProfile m port fields s
  | .writeCell m fields => Sys2Proof.Machine.execWriteCell m fields s
  | .lockPreset m preset action => Sys2Proof.Machine.execLockPreset m preset action s
  | .lockDown m => Sys2Proof.Machine.execLockDown m s
  | .clearStoreError m => Sys2Proof.Machine.execClearStoreError m s
  | .readPreset m preset => Sys2Proof.Machine.execReadPreset m preset s
  | .readProfile m port => Sys2Proof.Machine.execReadProfile m port s
  | .readCell m => Sys2Proof.Machine.execReadCell m s
  | .readStoreStatus m => Sys2Proof.Machine.execReadStoreStatus m s
  | .loadSequence m body => Sys2Proof.Machine.execLoadSequence m body s
  | .startSequence m port period => Sys2Proof.Machine.execStartSequence m port period s
  | .resumeSequence m port => Sys2Proof.Machine.execResumeSequence m port s
  | .haltSequence m port => Sys2Proof.Machine.execHaltSequence m port s
  | .readSequence m port => Sys2Proof.Machine.execReadSequence m port s
  | .fire m port exposure => Sys2Proof.Machine.execFire m port exposure s
  | .setTriggerLine m line settings => Sys2Proof.Machine.execSetTriggerLine m line settings s
  | .readTriggers m => Sys2Proof.Machine.execReadTriggers m s
  | .setNoticeMask m enabled watermark => Sys2Proof.Machine.execSetNoticeMask m enabled watermark s
  | .detach m => Sys2Proof.Machine.execDetach m s
  | .readPart m => Sys2Proof.Machine.execReadPart m s

end Sys2Proof.Machine
end

