-- ==== Sys2Proof/WellFormed.lean ====
section
/-! DEFINITION. The bounds that the layouts of chapter 11 and the blocks' own inputs put on a command's operands, one check for
each shape. An operand outside a rule's range but within its field's width is well-formed: the rule refuses or clamps it. -/

namespace Sys2Proof

/-- The payload of the longest LINE packet (11.3). -/
def lineBytes : Nat := 32768

/-- The longest record on a fabric port (11.1). -/
def recordBytes : Nat := 65535

/-- A one-byte field. -/
def isByte (n : Nat) : Bool := decide (n < 256)

/-- A two-byte field. -/
def isWord (n : Nat) : Bool := decide (n < 65536)

/-- A four-byte field that may be absent. -/
def isLong : Option Nat → Bool
  | some n => decide (n < 4294967296)
  | none => true

/-- Whether a HELLO's fields fit the layout of its packet (11.3): a body of 49 bytes has 24 bytes of model and 16 of serial. -/
def helloForm (h : HelloBody) : Bool :=
  isByte h.modelLength && isByte h.serialLength && isByte h.rateCode && isWord h.powerClass && isByte h.speed.focus &&
    isByte h.speed.iris && isByte h.speed.zoom && decide (h.bodyLength ≤ 32770) &&
    (if h.bodyLength = 49 then decide (h.model.length = 24) && decide (h.serial.length = 16)
     else decide (h.model.length ≤ 24) && decide (h.serial.length ≤ 16))

/-- Whether no axis is named twice. -/
def axesOnce : List Axis → Bool
  | [] => true
  | a :: rest => !rest.contains a && axesOnce rest

/-- Whether a LENS_REPORT has at most three entries, for different axes, with positions of 0..4095 (R133, R206). -/
def reportForm (l : List ReportEntry) : Bool :=
  decide (l.length ≤ 3) && axesOnce (l.map ReportEntry.axis) && l.all (fun e => decide (e.position ≤ 4095))

/-- Whether a command's operands fit. -/
def Instr.wellFormed : Instr → Bool
  | .por => true
  | .warmReset => true
  | .checkFailedPacket _ _ body =>
    match body with
    | some (k, payload) => isWord k && decide (payload.length ≤ lineBytes)
    | none => true
  | .malformedPacket _ _ => true
  | .idle _ _ => true
  | .hello _ _ h => helloForm h
  | .lensReport _ _ entries => reportForm entries
  | .frameOpen _ _ frameNo width lines => isWord frameNo && isWord width && isWord lines
  | .line _ _ k payload => isWord k && decide (payload.length ≤ lineBytes)
  | .frameClose _ _ c => isWord c
  | .inactivityTimeout _ => true
  | .dramWriteGrant => true
  | .fetchReadGrant => true
  | .downChannelSend _ => true
  | .helloTimeout _ => true
  | .attemptDeadline _ => true
  | .lockLoss _ => true
  | .errorWindowEnd _ => true
  | .currentSample _ _ => true
  | .overload _ _ => true
  | .undercurrent _ _ => true
  | .inrushEnd _ => true
  | .staggerGapEnd => true
  | .queueHeadStart => true
  | .supplyStateLow _ _ => true
  | .supplyStateNormal _ _ => true
  | .dischargeEnd => true
  | .acquisitionRepetition samples => decide (samples.length = Config.traceSamples)
  | .acquisitionEnd => true
  | .lensDeadline _ _ => true
  | .storeWriteComplete _ => true
  | .settleTimeout _ => true
  | .awaitTimeout _ => true
  | .closeTimeout _ => true
  | .triggerHandover _ => true
  | .dwellEnd _ => true
  | .cadenceDeadline _ => true
  | .triggerLineSample _ _ => true
  | .acceptedTransition _ _ => true
  | .fabricRecordArrival _ record _ _ => decide (record.length ≤ recordBytes)
  | .spiSelectFall => true
  | .spiSelectRise _ _ _ _ => true
  | .outboundSendStart _ => true
  | .outboundSendComplete _ => true
  | .fabricLockLost _ _ => true
  | .fabricLockReturn _ => true
  | .unknownRequestKind _ => true
  | .readCamera _ _ => true
  | .setRateLimit _ _ _ => true
  | .retrain _ _ => true
  | .portPowerOn _ _ => true
  | .portPowerOff _ _ => true
  | .readPower _ _ => true
  | .clearPortFault _ _ => true
  | .sweep _ _ _ => true
  | .readBreakLog _ _ => true
  | .subscribe _ _ => true
  | .unsubscribe _ _ => true
  | .setFramePolicy _ _ _ => true
  | .fetch _ _ _ _ => true
  | .release _ _ => true
  | .listFrames _ _ _ => true
  | .readStore _ => true
  | .takeLens _ _ => true
  | .giveLens _ _ => true
  | .breakHold _ _ => true
  | .moveLens _ _ _ _ => true
  | .stopLens _ _ => true
  | .recallPreset _ _ _ => true
  | .readLens _ _ => true
  | .writePreset _ record => decide (record.length + 8 ≤ recordBytes)
  | .erasePreset _ _ => true
  | .writeProfile _ _ _ => true
  | .writeCell _ _ => true
  | .lockPreset _ _ _ => true
  | .lockDown _ => true
  | .clearStoreError _ => true
  | .readPreset _ _ => true
  | .readProfile _ _ => true
  | .readCell _ => true
  | .readStoreStatus _ => true
  | .loadSequence _ body => decide (body.length + 8 ≤ recordBytes)
  | .startSequence _ _ _ => true
  | .resumeSequence _ _ => true
  | .haltSequence _ _ => true
  | .readSequence _ _ => true
  | .fire _ _ exposure => isLong exposure
  | .setTriggerLine _ _ _ => true
  | .readTriggers _ => true
  | .setNoticeMask _ _ _ => true
  | .detach _ => true
  | .readPart _ => true

end Sys2Proof
end

