-- ==== Sys2Proof/Safety.lean ====
section
/-! DEFINITION. The terms in which claims about the hub are stated: what a request is and when it is next, and the
invariants of the hub's state. -/

namespace Sys2Proof.Machine

/-! ## Requests -/

/-- The master and the kind of a request; no other command has one. -/
def requestOf : Instr → Option (Master × RequestKind)
  | .por => none
  | .warmReset => none
  | .checkFailedPacket _ _ _ => none
  | .malformedPacket _ _ => none
  | .idle _ _ => none
  | .hello _ _ _ => none
  | .lensReport _ _ _ => none
  | .frameOpen _ _ _ _ _ => none
  | .line _ _ _ _ => none
  | .frameClose _ _ _ => none
  | .inactivityTimeout _ => none
  | .dramWriteGrant => none
  | .fetchReadGrant => none
  | .downChannelSend _ => none
  | .helloTimeout _ => none
  | .attemptDeadline _ => none
  | .lockLoss _ => none
  | .errorWindowEnd _ => none
  | .currentSample _ _ => none
  | .overload _ _ => none
  | .undercurrent _ _ => none
  | .inrushEnd _ => none
  | .staggerGapEnd => none
  | .queueHeadStart => none
  | .supplyStateLow _ _ => none
  | .supplyStateNormal _ _ => none
  | .dischargeEnd => none
  | .acquisitionRepetition _ => none
  | .acquisitionEnd => none
  | .lensDeadline _ _ => none
  | .storeWriteComplete _ => none
  | .settleTimeout _ => none
  | .awaitTimeout _ => none
  | .closeTimeout _ => none
  | .triggerHandover _ => none
  | .dwellEnd _ => none
  | .cadenceDeadline _ => none
  | .triggerLineSample _ _ => none
  | .acceptedTransition _ _ => none
  | .fabricRecordArrival _ _ _ _ => none
  | .spiSelectFall => none
  | .spiSelectRise _ _ _ _ => none
  | .outboundSendStart _ => none
  | .outboundSendComplete _ => none
  | .fabricLockLost _ _ => none
  | .fabricLockReturn _ => none
  | .unknownRequestKind _ => none
  | .readCamera m _ => some (m, .readCamera)
  | .setRateLimit m _ _ => some (m, .setRateLimit)
  | .retrain m _ => some (m, .retrain)
  | .portPowerOn m _ => some (m, .portPower)
  | .portPowerOff m _ => some (m, .portPower)
  | .readPower m _ => some (m, .readPower)
  | .clearPortFault m _ => some (m, .clearPortFault)
  | .sweep m _ _ => some (m, .sweep)
  | .readBreakLog m _ => some (m, .readBreakLog)
  | .subscribe m _ => some (m, .subscribe)
  | .unsubscribe m _ => some (m, .unsubscribe)
  | .setFramePolicy m _ _ => some (m, .setFramePolicy)
  | .fetch m _ _ _ => some (m, .fetch)
  | .release m _ => some (m, .release)
  | .listFrames m _ _ => some (m, .listFrames)
  | .readStore m => some (m, .readStore)
  | .takeLens m _ => some (m, .takeLens)
  | .giveLens m _ => some (m, .giveLens)
  | .breakHold m _ => some (m, .breakHold)
  | .moveLens m _ _ _ => some (m, .moveLens)
  | .stopLens m _ => some (m, .stopLens)
  | .recallPreset m _ _ => some (m, .recallPreset)
  | .readLens m _ => some (m, .readLens)
  | .writePreset m _ => some (m, .writePreset)
  | .erasePreset m _ => some (m, .erasePreset)
  | .writeProfile m _ _ => some (m, .writeProfile)
  | .writeCell m _ => some (m, .writeCell)
  | .lockPreset m _ _ => some (m, .lockPreset)
  | .lockDown m => some (m, .lockDown)
  | .clearStoreError m => some (m, .clearStoreError)
  | .readPreset m _ => some (m, .readPreset)
  | .readProfile m _ => some (m, .readProfile)
  | .readCell m => some (m, .readCell)
  | .readStoreStatus m => some (m, .readStoreStatus)
  | .loadSequence m _ => some (m, .loadSequence)
  | .startSequence m _ _ => some (m, .startSequence)
  | .resumeSequence m _ => some (m, .resumeSequence)
  | .haltSequence m _ => some (m, .haltSequence)
  | .readSequence m _ => some (m, .readSequence)
  | .fire m _ _ => some (m, .fire)
  | .setTriggerLine m _ _ => some (m, .setTriggerLine)
  | .readTriggers m => some (m, .readTriggers)
  | .setNoticeMask m _ _ => some (m, .setNoticeMask)
  | .detach m => some (m, .detach)
  | .readPart m => some (m, .readPart)

/-- R192, R203: whether the fields of a request fit its kind, as far as its operands say. -/
def fieldsFit : Instr → Bool
  | .por => true
  | .warmReset => true
  | .checkFailedPacket _ _ _ => true
  | .malformedPacket _ _ => true
  | .idle _ _ => true
  | .hello _ _ _ => true
  | .lensReport _ _ _ => true
  | .frameOpen _ _ _ _ _ => true
  | .line _ _ _ _ => true
  | .frameClose _ _ _ => true
  | .inactivityTimeout _ => true
  | .dramWriteGrant => true
  | .fetchReadGrant => true
  | .downChannelSend _ => true
  | .helloTimeout _ => true
  | .attemptDeadline _ => true
  | .lockLoss _ => true
  | .errorWindowEnd _ => true
  | .currentSample _ _ => true
  | .overload _ _ => true
  | .undercurrent _ _ => true
  | .inrushEnd _ => true
  | .staggerGapEnd => true
  | .queueHeadStart => true
  | .supplyStateLow _ _ => true
  | .supplyStateNormal _ _ => true
  | .dischargeEnd => true
  | .acquisitionRepetition _ => true
  | .acquisitionEnd => true
  | .lensDeadline _ _ => true
  | .storeWriteComplete _ => true
  | .settleTimeout _ => true
  | .awaitTimeout _ => true
  | .closeTimeout _ => true
  | .triggerHandover _ => true
  | .dwellEnd _ => true
  | .cadenceDeadline _ => true
  | .triggerLineSample _ _ => true
  | .acceptedTransition _ _ => true
  | .fabricRecordArrival _ _ _ _ => true
  | .spiSelectFall => true
  | .spiSelectRise _ _ _ _ => true
  | .outboundSendStart _ => true
  | .outboundSendComplete _ => true
  | .fabricLockLost _ _ => true
  | .fabricLockReturn _ => true
  | .unknownRequestKind _ => true
  | .readCamera _ _ => true
  | .setRateLimit _ _ _ => true
  | .retrain _ _ => true
  | .portPowerOn _ ports => portListFits ports
  | .portPowerOff _ ports => portListFits ports
  | .readPower _ _ => true
  | .clearPortFault _ _ => true
  | .sweep _ _ _ => true
  | .readBreakLog _ _ => true
  | .subscribe _ _ => true
  | .unsubscribe _ _ => true
  | .setFramePolicy _ _ policy => policyFits policy
  | .fetch _ _ _ _ => true
  | .release _ _ => true
  | .listFrames _ _ _ => true
  | .readStore _ => true
  | .takeLens _ _ => true
  | .giveLens _ _ => true
  | .breakHold _ _ => true
  | .moveLens _ _ _ _ => true
  | .stopLens _ _ => true
  | .recallPreset _ _ _ => true
  | .readLens _ _ => true
  | .writePreset _ record => (parsePreset record).isSome
  | .erasePreset _ _ => true
  | .writeProfile _ _ fields => (parseProfile fields).isSome
  | .writeCell _ fields => (parseCell fields).isSome
  | .lockPreset _ _ action => decide (action ≤ 1)
  | .lockDown _ => true
  | .clearStoreError _ => true
  | .readPreset _ _ => true
  | .readProfile _ _ => true
  | .readCell _ => true
  | .readStoreStatus _ => true
  | .loadSequence _ body => (parseLoad body).isSome
  | .startSequence _ _ _ => true
  | .resumeSequence _ _ => true
  | .haltSequence _ _ => true
  | .readSequence _ _ => true
  | .fire _ _ _ => true
  | .setTriggerLine _ _ settings => polarityFits settings.polarity
  | .readTriggers _ => true
  | .setNoticeMask _ enabled _ => maskFits enabled
  | .detach _ => true
  | .readPart _ => true

/-- The bytes of the fields of a request that 11.2 lays out byte by byte. -/
def recordOf : Instr → Option (List Byte)
  | .writePreset _ record => some record
  | .loadSequence _ body => some body
  | _ => none

/-- The camera port a request names, for the requests whose BAD_RANGE reply lists no clamped field. -/
def portNamed : Instr → Option Nat
  | .por => none
  | .warmReset => none
  | .checkFailedPacket _ _ _ => none
  | .malformedPacket _ _ => none
  | .idle _ _ => none
  | .hello _ _ _ => none
  | .lensReport _ _ _ => none
  | .frameOpen _ _ _ _ _ => none
  | .line _ _ _ _ => none
  | .frameClose _ _ _ => none
  | .inactivityTimeout _ => none
  | .dramWriteGrant => none
  | .fetchReadGrant => none
  | .downChannelSend _ => none
  | .helloTimeout _ => none
  | .attemptDeadline _ => none
  | .lockLoss _ => none
  | .errorWindowEnd _ => none
  | .currentSample _ _ => none
  | .overload _ _ => none
  | .undercurrent _ _ => none
  | .inrushEnd _ => none
  | .staggerGapEnd => none
  | .queueHeadStart => none
  | .supplyStateLow _ _ => none
  | .supplyStateNormal _ _ => none
  | .dischargeEnd => none
  | .acquisitionRepetition _ => none
  | .acquisitionEnd => none
  | .lensDeadline _ _ => none
  | .storeWriteComplete _ => none
  | .settleTimeout _ => none
  | .awaitTimeout _ => none
  | .closeTimeout _ => none
  | .triggerHandover _ => none
  | .dwellEnd _ => none
  | .cadenceDeadline _ => none
  | .triggerLineSample _ _ => none
  | .acceptedTransition _ _ => none
  | .fabricRecordArrival _ _ _ _ => none
  | .spiSelectFall => none
  | .spiSelectRise _ _ _ _ => none
  | .outboundSendStart _ => none
  | .outboundSendComplete _ => none
  | .fabricLockLost _ _ => none
  | .fabricLockReturn _ => none
  | .unknownRequestKind _ => none
  | .readCamera _ port => some port
  | .setRateLimit _ port _ => some port
  | .retrain _ port => some port
  | .portPowerOn _ _ => none
  | .portPowerOff _ _ => none
  | .readPower _ port => some port
  | .clearPortFault _ port => some port
  | .sweep _ _ _ => none
  | .readBreakLog _ port => some port
  | .subscribe _ port => some port
  | .unsubscribe _ port => some port
  | .setFramePolicy _ _ _ => none
  | .fetch _ _ _ _ => none
  | .release _ _ => none
  | .listFrames _ _ _ => none
  | .readStore _ => none
  | .takeLens _ port => some port
  | .giveLens _ port => some port
  | .breakHold _ port => some port
  | .moveLens _ port _ _ => some port
  | .stopLens _ port => some port
  | .recallPreset _ port _ => some port
  | .readLens _ port => some port
  | .writePreset _ _ => none
  | .erasePreset _ _ => none
  | .writeProfile _ _ _ => none
  | .writeCell _ _ => none
  | .lockPreset _ _ _ => none
  | .lockDown _ => none
  | .clearStoreError _ => none
  | .readPreset _ _ => none
  | .readProfile _ port => some port
  | .readCell _ => none
  | .readStoreStatus _ => none
  | .loadSequence _ _ => none
  | .startSequence _ port _ => some port
  | .resumeSequence _ port => some port
  | .haltSequence _ port => some port
  | .readSequence _ port => some port
  | .fire _ port _ => some port
  | .setTriggerLine _ _ _ => none
  | .readTriggers _ => none
  | .setNoticeMask _ _ _ => none
  | .detach _ => none
  | .readPart _ => none

/-- `e` is the next request of master `m`, and of kind `k`: the one that the row of that kind takes. That a request arrives as bytes
and is taken later by the row of its kind is the model's choice (log entry 6). -/
def Next (s : State) (m : Master) (k : RequestKind) (e : RequestEntry) : Prop :=
  (s.master m).nextRequest = some e ∧ e.kind = k.code

/-- R192, R193: `e` is the next request of master `m`, of kind `k`, well-formed, and `m` may use the kind: the block that owns
the request judges it. -/
def Reaches (s : State) (m : Master) (k : RequestKind) (e : RequestEntry) : Prop :=
  Next s m k e ∧ e.malformed = false ∧ k.permits m = true

/-- The state in which master `m`'s next request has been taken and nothing else has changed. -/
def State.taken (s : State) (m : Master) : State := s.updMaster m (fun r => { r with requests := takeFirst r.requests })

/-- Master `m`'s next request has been taken and answered, and nothing else has changed. -/
def State.answered (s : State) (m : Master) (e : RequestEntry) (a : Answer) : State := (s.taken m).reply m e a

/-! ## Frames -/

/-- Nothing outside port `p`'s record has changed. -/
def SameBut (s t : State) (p : Port) : Prop :=
  (∀ q : Port, q ≠ p → t.port q = s.port q) ∧ t.now = s.now ∧ t.lastReset = s.lastReset ∧ t.mgr = s.mgr ∧
  t.engine = s.engine ∧ t.store = s.store ∧ t.presets = s.presets ∧ t.lines = s.lines ∧ t.masters = s.masters ∧
  t.pending = s.pending

/-- What a port's neighbours leave alone: its lens, its sequence, its frame intake, its counters, its waiting packets, its break
log, its live profile and its subscribers. -/
def PortRec.sameTraffic (r u : PortRec) : Prop :=
  u.lens = r.lens ∧ u.seq = r.seq ∧ u.intake = r.intake ∧ u.counters = r.counters ∧ u.waiting = r.waiting ∧
  u.breakLog = r.breakLog ∧ u.profile = r.profile ∧ u.subscribers = r.subscribers

/-- What a change of port `p`'s power leaves alone: the traffic of every other port, the timebase, the preset store, the trigger
lines and the queue of commands. The start queue's head may start and the engine may take an entry. -/
def SameTraffic (s t : State) (p : Port) : Prop :=
  (∀ q : Port, q ≠ p → (s.port q).sameTraffic (t.port q)) ∧ (t.port p).profile = (s.port p).profile ∧
  (t.port p).breakLog = (s.port p).breakLog ∧ (t.port p).subscribers = (s.port p).subscribers ∧ t.now = s.now ∧
  t.lastReset = s.lastReset ∧ t.presets = s.presets ∧ t.lines = s.lines ∧ t.pending = s.pending

/-- Nothing has changed outside port `p`'s record, the frame store and the records of the masters. -/
def SameOutside (s t : State) (p : Port) : Prop :=
  (∀ q : Port, q ≠ p → t.port q = s.port q) ∧ t.now = s.now ∧ t.lastReset = s.lastReset ∧ t.mgr = s.mgr ∧
  t.engine = s.engine ∧ t.presets = s.presets ∧ t.lines = s.lines ∧ t.pending = s.pending

/-- R172: the run of port `p` has ended with a status: the context READY with its reservation returned, an implicit hold of the
starter freed, the cadence cancelled unless NORMAL; nothing else has changed but the records of the masters. -/
def RunEnded (s t : State) (p : Port) (status : EndStatus) : Prop :=
  SameBut { s with store := t.store, masters := t.masters } t p ∧
  t.store = { s.store with
    reservedPages := s.store.reservedPages - (s.port p).seq.reservedPages
    reservedRecords := s.store.reservedRecords - (s.port p).seq.reservedRecords } ∧
  t.port p = { s.port p with
    lens :=
      if (s.port p).lens.implicit = true ∧ (s.port p).lens.holder ≠ none ∧
          (s.port p).lens.holder = (s.port p).seq.starter then
        { (s.port p).lens with holder := none, implicit := false }
      else (s.port p).lens
    seq := { (s.port p).seq with
      state := .ready, ended := some (status, (s.port p).seq.index.getD 0), index := none, phase := none, deadline := none,
      bound := none, reservedPages := 0, reservedRecords := 0
      period := if status = .normal then (s.port p).seq.period else 0
      cadence := if status = .normal then (s.port p).seq.cadence else none } }

/-- No port's record, the timebase, the supply and power accounts, the engine, the store, the presets or the lines have
changed; only the records of the masters may have. -/
def SameButMasters (s t : State) : Prop :=
  (∀ q : Port, t.port q = s.port q) ∧ t.now = s.now ∧ t.lastReset = s.lastReset ∧ t.mgr = s.mgr ∧ t.engine = s.engine ∧
  t.store = s.store ∧ t.presets = s.presets ∧ t.lines = s.lines ∧ t.pending = s.pending

/-- R131: the move of a lens. Each target for an axis of the camera is handed down in a LENS_GOTO and becomes that axis's target,
with its deadline after the travel time, the allowance and 500 ms; a STALLED axis that is not moved goes to IDLE; and a move without
an axis of the camera changes nothing. -/
def Moves (s u : State) (p : Port) (goto : PerAxis (Option Nat)) (allowance : Nat) (mover : Option Master) : Prop :=
  SameBut s u p ∧ ∃ moved : PerAxis (Option Nat),
    (∀ x : Axis, moved.get x = if ((s.port p).lens.axes.get x).isSome then goto.get x else none) ∧
    ((∀ x : Axis, moved.get x = none) → u.port p = s.port p) ∧
    ((∃ (x : Axis) (v : Nat), moved.get x = some v) →
      u.port p = { s.port p with
        waiting := (s.port p).waiting ++ [.lensGoto moved]
        lens := { (s.port p).lens with mover := mover, axes := (u.port p).lens.axes } } ∧
      ∀ (x : Axis) (a : AxisRec), (s.port p).lens.axes.get x = some a →
        (moved.get x = none → a.motion ≠ .stalled → (u.port p).lens.axes.get x = some a) ∧
        (moved.get x = none → a.motion = .stalled →
          (u.port p).lens.axes.get x = some { a with target := none, motion := .idle, deadline := none }) ∧
        (∀ v dist, moved.get x = some v → 0 < a.speed → dist = (a.position.elim 4095 (fun q => max q v - min q v)) →
          (u.port p).lens.axes.get x = some { a with
            target := some v, motion := .moving
            deadline := some (s.now + ((dist + a.speed - 1) / a.speed + allowance + 500) * 1000) }))

/-- R111: `v` is the one record of its id, READY and without a pin, and was READY before every other such record: by ready time,
then by handover. -/
def OldestUnpinned (st : Store) (v : FrameRec) : Prop :=
  v.state = .ready ∧ v.pins = ⟨0, 0⟩ ∧ st.frames.filter (fun x => x.id == v.id) = [v] ∧
  ∀ x ∈ st.frames, x.state = .ready → x.pins = ⟨0, 0⟩ → x ≠ v →
    v.readyTime.getD 0 < x.readyTime.getD 0 ∨
    (v.readyTime.getD 0 = x.readyTime.getD 0 ∧ v.handover.getD 0 < x.handover.getD 0)

/-- R111: no record is READY without a pin. -/
def NoVictim (st : Store) : Prop := ∀ x ∈ st.frames, x.state = .ready → 0 < x.pins.a ∨ 0 < x.pins.b

/-- R112: the state in which each reader of a frame has been offered FRAME_DROPPED (RECLAIMED). -/
def State.toldReclaimed (s : State) (v : FrameRec) : State :=
  let told := fun (t : State) (m : Master) => t.notify m false (.frameDropped v.id v.port .reclaimed true)
  let s1 := if v.readers.a = true then told s .A else s
  if v.readers.b = true then told s1 .B else s1

/-- R75: a FRAME_OPEN at an intake that is not IDLE does what it does on the state `u`, in which the previous frame has ended: the
intake is IDLE, its pending origin kept, the packet has been heard, and nothing outside the port, the store and the masters has
changed. -/
def OpensOver (s u : State) (p : Port) (no w n : Nat) : Prop :=
  exec (.frameOpen p (s.port p).link.listen no w n) s = exec (.frameOpen p (s.port p).link.listen no w n) u ∧
  SameOutside s u p ∧ (u.port p).link = { (s.port p).link with lastPacket := some s.now } ∧
  (u.port p).intake = { (s.port p).intake with
    state := .idle, openFrame := none, bound := none, width := none, declaredWidth := none, lines := none, capacity := none
    highest := none, cutOff := false, cause := none, counts := none }

/-- R86: line `k` of frame `f` at port `p` is stored: buffered at the intake, cut or zero-extended to the frame's width, with the
packet heard; the frame's record becomes `g`, which counts it, `bad` being whether it was damaged or of another width than the
declared one, and counts the lines from `next` to `k` - 1 missing; and these read as zeros in the pages of `g`, every other byte of
the DRAM as before. Which pages `g` has beside those of `f`, and what is left of its step reservation, is not said here. -/
def StoresLine (s t : State) (p : Port) (f g : FrameRec) (next k : Nat) (payload : List Byte) (bad : Bool) : Prop :=
  t.port p = { s.port p with
    link := { (s.port p).link with lastPacket := some s.now }
    intake := { (s.port p).intake with
      lastActivity := some s.now, highest := some k
      buffers := (s.port p).intake.buffers ++
        [⟨f.id, k, (payload ++ List.replicate (f.width - payload.length) 0).take f.width⟩] } } ∧
  t.frame? f.id = some g ∧
  g = { f with
    pages := g.pages, stepReserved := g.stepReserved
    stored := k + 1, missing := f.missing + (k - next)
    damaged := if bad = true then f.damaged + 1 else f.damaged
    firstDamaged := if bad = true then some (f.firstDamaged.getD k) else f.firstDamaged
    tags := { f.tags with gaps := f.tags.gaps || decide (next < k), damaged := f.tags.damaged || bad } } ∧
  (s.store.dram.wf = true →
    (∀ b a, next * f.width ≤ b → b < k * f.width → frameAddr g.pages b = some a → t.store.dram.read a = 0) ∧
    (∀ a, (∀ b, next * f.width ≤ b → b < k * f.width → frameAddr g.pages b ≠ some a) →
      t.store.dram.read a = s.store.dram.read a))

/-- R82, R86: the lines buffered at port `p` have places of their own in frame `f`: different indices below its stored lines, none
longer than its width, its pages and the free ones all different; and the DRAM's list has its form. -/
def BuffersApart (s : State) (p : Port) (f : FrameRec) : Prop :=
  s.store.dram.wf = true ∧ (f.pages ++ s.store.freeList).Nodup ∧
  (s.port p).intake.buffers.Pairwise (fun x y => x.index ≠ y.index) ∧
  ∀ b ∈ (s.port p).intake.buffers, b.index < f.stored ∧ b.bytes.length ≤ f.width

/-- R141, R144: the five fields of a trigger line in a WRITE_CELL are all given, with the settings and the clamped entries they come
to; `base` is the place of the line's enable in the order of the fields. -/
def LineGiven (base : Nat) (r : RawLine) (f : LineSettings) (clamps : List (Nat × Nat)) : Prop :=
  ∃ en po db ho ro, r = ⟨some en, some po, some db, some ho, some ro⟩ ∧ po ≤ 1 ∧
    f = { enable := en, polarity := if po = 0 then .rising else .falling, debounce := max 1 (min 255 db)
          holdOff := min 1000 ho, route := BitVec.ofNat 8 (min 255 ro) } ∧
    clamps = (if 1 ≤ db ∧ db ≤ 255 then [] else [(base + 2, max 1 (min 255 db))]) ++
      (if ho ≤ 1000 then [] else [(base + 3, 1000)]) ++ (if ro ≤ 255 then [] else [(base + 4, 255)])

/-- R155, R156: the faults of step `i` of a list of `n` steps, reason by reason. -/
def StepFault (n i : Nat) (st : Step) : LoadReason → Prop
  | .count => False
  | .chain => ¬ (st.chain = true ↔ i + 1 < n)
  | .flag => (st.lenient = true ∨ st.discard = true) ∧ st.kind.isTrigger = false
  | .range =>
    match st.kind with
    | .lens preset targets allowance =>
      (∃ v, preset = some v ∧ 63 < v) ∨ (∃ (x : Axis) (v : Nat), targets.get x = some v ∧ 4095 < v) ∨
        ∃ v, allowance = some v ∧ 2000 < v
    | .settle timeout => timeout < 10 ∨ 10000 < timeout
    | .await line timeout => 3 < line ∨ 60000 < timeout
    | .trigger exposure lines width close =>
      (∃ v, exposure = some v ∧ (v < 10 ∨ 1000000 < v)) ∨ lines < 1 ∨ 16384 < lines ∨ width < 16 ∨ 32768 < width ∨
        width % 16 ≠ 0 ∨ ∃ v, close = some v ∧ (v < 10 ∨ 60000 < v)
    | .dwell time => time < 1 ∨ 60000 < time
  | .size =>
    match st.kind with
    | .trigger _ lines width _ => 67108864 < lines * width
    | .lens .. | .settle .. | .await .. | .dwell .. => False
  | .lensSource =>
    match st.kind with
    | .lens preset targets _ => (preset ≠ none ↔ ∃ (x : Axis) (v : Nat), targets.get x = some v)
    | .settle .. | .await .. | .trigger .. | .dwell .. => False

/-- Whether a step's parameters fit their fields (11.2): a byte for a preset number and a line, two bytes for times, counts and
positions, four for an exposure; 65 535 is no value of an optional two-byte field. -/
def StepKind.fitsFields : StepKind → Bool
  | .lens preset t allowance =>
    decide (preset.getD 0 < 256) && decide (t.focus.getD 0 < absentWord) && decide (t.iris.getD 0 < absentWord) &&
      decide (t.zoom.getD 0 < absentWord) && decide (allowance.getD 0 < absentWord)
  | .settle t => decide (t < 65536)
  | .await line t => decide (line < 256) && decide (t < 65536)
  | .trigger exposure lines width close =>
    decide (exposure.getD 0 < 4294967296) && decide (lines < 65536) && decide (width < 65536) &&
      decide (close.getD 0 < absentWord)
  | .dwell t => decide (t < 65536)

/-- Whether a command is an up-channel packet of port `p` at a rate with the form its kind requires (11.3, R6, R206). -/
def soundPacket (p : Port) (rate : Rate) : Instr → Prop
  | .idle q r => q = p ∧ r = rate
  | .hello q r h => q = p ∧ r = rate ∧ h.bodyLength = 49
  | .lensReport q r _ => q = p ∧ r = rate
  | .frameOpen q r _ _ _ => q = p ∧ r = rate
  | .line q r _ _ => q = p ∧ r = rate
  | .frameClose q r _ => q = p ∧ r = rate
  | _ => False

/-! ## Invariants -/

/-- R196: every master's attention line is asserted exactly when its queues and its watermark call for it. -/
def State.attentionFollows (s : State) : Prop :=
  ∀ m : Master, (s.master m).attention = attentionDue (decide (m = .C)) (s.master m)

/-- R98: every page 0..4095 is on the free list or in the page list of one frame, once. -/
def Store.pagesKept (st : Store) : Prop := (st.freeList ++ st.frames.flatMap FrameRec.pages).Perm fullFreeList

/-- The bounds of the queues and the logs: R3, R65, R114, R187. -/
def State.queuesBounded (s : State) : Prop :=
  (∀ p : Port, (s.port p).waiting.length ≤ 16 ∧ (s.port p).breakLog.length ≤ 4) ∧
  (∀ a : Analysis, (s.store.readers.get a).fetches.length ≤ 4) ∧
  (∀ m : Master, (s.master m).requests.length ≤ 8 ∧ (s.master m).notices.length ≤ 32)

/-- The committed allotments of the eight ports, added up. -/
def State.allotted (s : State) : Nat := (allPorts.map (fun p => (s.port p).power.allotment.getD 0)).sum

/-- R24 to R27, R32, R19: the accounts of the power manager. A port commits an allotment exactly in QUEUED, INRUSH and ON; the
committed sum is the sum of the allotments and lies within the budget admissions are judged by; the start queue holds ports in
QUEUED; and a port whose receiver is connected is ON. -/
def State.powerAccounts (s : State) : Prop :=
  (∀ p : Port, (s.port p).power.allotment.isSome = (s.port p).power.state.committed) ∧
  s.mgr.committed = s.allotted ∧
  s.mgr.committed ≤ s.effectiveBudget ∧
  (∀ p ∈ s.mgr.startQueue, (s.port p).power.state = .queued) ∧
  (∀ p : Port, (s.port p).link.state.connected = true → (s.port p).power.state = .on)

/-- The port is held for a sweep (R47). -/
def PortRec.held (r : PortRec) : Bool := r.marks.sweepPending || r.marks.testing

/-- R47 to R49, R53: the accounts of the break finder. A port with a mark set is OFF or TRIPPED; an entry of the queue has its
port's SWEEP_PENDING set, the current entry its SWEEP_PENDING in DISCHARGE_WAIT and its TESTING in ACQUIRING; no port stands
twice in the queue and the engine together; and an IDLE engine holds no entry. -/
def State.sweepAccounts (s : State) : Prop :=
  (∀ p : Port, ((s.port p).held || (s.port p).marks.lockout) = true →
    (s.port p).power.state = .off ∨ (s.port p).power.state = .tripped) ∧
  (∀ e ∈ s.engine.queue, (s.port e.port).marks.sweepPending = true) ∧
  (∀ e, s.engine.current = some e →
    (s.engine.state = .dischargeWait ∧ (s.port e.port).marks.sweepPending = true) ∨
    (s.engine.state = .acquiring ∧ (s.port e.port).marks.testing = true)) ∧
  ((s.engine.current.toList ++ s.engine.queue).map SweepEntry.port).Nodup

/-- R154: a context that is RUNNING or HELD has its camera's link UP. -/
def State.sequencesUp (s : State) : Prop :=
  ∀ p : Port, (s.port p).seq.active = true → (s.port p).link.state = .up

/-- What is left of a port's traffic when its link has left UP (R3, R12, R95, R138, R173): no context RUNNING or HELD, no frame
in the intake, no pending origin, every axis IDLE at a position UNKNOWN, no error window and no DEGRADED mark, and no TRIGGER
or lens packet waiting. -/
def PortRec.quiet (r : PortRec) : Prop :=
  r.seq.active = false ∧ r.intake.state = .idle ∧ r.intake.pendingOrigin = none ∧ r.link.window = none ∧
  r.link.degraded = false ∧ (∀ k ∈ r.waiting, k.needsUp = false) ∧
  (∀ x : Axis, ∀ a, r.lens.axes.get x = some a → a.motion = .idle ∧ a.position = none ∧ a.target = none ∧ a.deadline = none)

end Sys2Proof.Machine
end

