-- ==== Sys2Proof/Certificates/Slice0/Obligations.lean ====
section
/-! DEFINITION. The statements for the provers: what the commands do, by the rules of the spec, and what every step keeps. -/

section

open Sys2Proof Sys2Proof.Machine

/-! ## The queue of commands, resets and invariants -/

/-- A step with a command at the front of the queue is that command's meaning on the state with the queue's rest. -/
def Obligations.StepRunsTheFrontCommand : Prop :=
  ∀ (c : Instr) (rest : List Instr) (s : State),
    step { s with pending := c :: rest } = exec c { s with pending := rest }

/-- The model's choice (log entry 1): with no command waiting, a step lets one microsecond pass and changes nothing else. -/
def Obligations.EmptyQueueTicksTheTimebase : Prop :=
  ∀ s : State, s.pending = [] → step s = .next { s with now := (s.now + 1) % 2 ^ 64 }

/-- The model's choices: every command completes in a next state, none faults or refuses (log entry 3); the queue of waiting
commands is kept, over the resets too (log entries 2 and 8); and a command takes no time (log entry 1), but that the two resets
set the timebase to 0, as R71 and R72 say. -/
def Obligations.EveryCommandCompletes : Prop :=
  ∀ (c : Instr) (s : State), ∃ t, exec c s = .next t ∧ t.pending = s.pending ∧
    ((c = .por ∨ c = .warmReset) → t.now = 0) ∧ (c ≠ .por → c ≠ .warmReset → t.now = s.now)

/-- What the two resets leave, block by block and field by field: the live values come from the records as they read, with the
defaults where a record is invalid, and the load report lists the invalid records. The model's choices among it: that the bytes of
the stacked DRAM stay (log entry 10), that the queue of commands stays (log entry 8), a line's sampled level until the first sample
(log entry 47), the content of a record whose write was abandoned (log entry 62), and the values of fields that no table lists, such as
the down-channel's waiting packets (log entry 9). -/
def Obligations.ResetsReturnEveryBlock : Prop :=
  ∀ (s : State) (warm : Bool), ∃ t, exec (if warm then .warmReset else .por) s = .next t ∧
    t.now = 0 ∧ t.lastReset = (if warm then .warm else .por) ∧ t.pending = s.pending ∧
    (∀ p : Port, t.port p =
      { link :=
          { state := .down, listen := .r1250, current := none, identity := none, lastSerial := none, helloDeadline := none,
            attempt := none, lastPacket := none, window := none, degraded := false, changed := false, lastCause := none }
        counters := ⟨0, 0, 0, 0, 0⟩, waiting := [], lastSent := none
        power :=
          { state := .off, allotment := none, inrush := none, sample := none, peak := none, overloadRun := 0, underRun := 0,
            openSuspect := false, lastTrip := none, lastOff := none, deenergized := 0 }
        marks := ⟨false, false, warm && (s.port p).marks.lockout⟩
        breakLog := if warm then (s.port p).breakLog else []
        profile :=
          if (s.presets.profiles.get p).valid = true then (s.presets.profiles.get p).content
          else
            { installedLength := 0, velocity := 660, offset := 0, allotment := 500, inrushWindow := 50, helloTimeout := 2000,
              rateLimit := .r5000, degradeThreshold := 32, sweepThreshold := 200, blindCount := 16, averaging := 16,
              powerAtStart := false, autoSweep := true, autoRestore := true }
        intake :=
          { state := .idle, openFrame := none, bound := none, width := none, declaredWidth := none, lines := none,
            capacity := none, highest := none, cutOff := false, cause := none, counts := none, lastActivity := none,
            pendingOrigin := none, buffers := [] }
        subscribers := ⟨false, false⟩, lens := ⟨⟨none, none, none⟩, none, false, none⟩
        seq :=
          { state := .empty, owner := none, steps := none, pageCount := 0, recordCount := 0, starter := none, index := none,
            phase := none, deadline := none, bound := none, reservedPages := 0, reservedRecords := 0, tookHold := false,
            ended := none, lastEdge := none, period := 0, cadence := none, runs := 0, overruns := 0, skips := 0 } }) ∧
    t.mgr =
      { budget := if s.presets.cell.valid = true then s.presets.cell.content.budget else 4000
        stagger := if s.presets.cell.valid = true then s.presets.cell.content.stagger else 10
        committed := 0, startQueue := [], lastInrushEnd := none, supply := .low, restoreSet := [], startUpPending := true } ∧
    t.engine =
      { queue := [], state := .idle, current := none, params := none, dischargeEnd := none, acquisitionEnd := none,
        buffer := List.replicate 1024 0, repetitions := 0 } ∧
    t.store =
      { freeList := List.range 4096, frames := [], nextId := 1, handovers := 0, reservedPages := 0, reservedRecords := 0,
        readers := ⟨⟨[], 64, .keepNewest, []⟩, ⟨[], 64, .keepNewest, []⟩⟩, lastFetch := .B, lastPort := 7,
        dram := s.store.dram } ∧
    t.presets =
      { presets := s.presets.presets, profiles := s.presets.profiles, cell := s.presets.cell, write := none
        fault := warm && s.presets.fault, lockDown := warm && s.presets.lockDown
        loadReport :=
          ((List.finRange 64).filter (fun i => !(s.presets.presets.get i).valid)).map RecordName.preset ++
            ((List.finRange 8).filter (fun p => !(s.presets.profiles.get p).valid)).map RecordName.profile ++
            (if s.presets.cell.valid = true then [] else [.cell]) } ∧
    (∀ l : LineNo, t.lines.get l =
      { settings :=
          if s.presets.cell.valid = true then s.presets.cell.content.lines.get l
          else { enable := false, polarity := .rising, debounce := 5, holdOff := 0, route := 0 }
        sampled := .low, accepted := none, runLevel := none, runCount := 0, lastEdge := none, acceptedCount := 0
        ignoredCount := 0 }) ∧
    (∀ m : Master, t.master m =
      { attached := decide (m = .C), requests := [], replies := [], notices := [], overrun := false
        mask := ⟨true, true, true, true, true, true, true, true, true, true⟩, watermark := 1, attention := false
        protocolErrors := 0, framingErrors := 0, fetchOut := [], sending := none, advertised := 8, creditDue := false
        spi := none })

/-- The state right after reset meets every invariant stated below. That the state right after reset is the hub after POR on a new
part is the model's reading (log entry 7); the reset values that no table gives are its choice (log entry 9). -/
def Obligations.ResetMeetsTheInvariants : Prop :=
  State.reset.attentionFollows ∧ State.reset.store.dram.wf = true ∧ State.reset.store.pagesKept ∧
  State.reset.queuesBounded ∧ State.reset.powerAccounts ∧ State.reset.sweepAccounts ∧ State.reset.sequencesUp

/-- R196: after every step from a state whose attention lines follow, each master's line is asserted exactly while its notice
queue holds an urgent notice, or its routine notices reach its watermark, or, for C, a reply waits. -/
def Obligations.AttentionLinesFollowTheQueues : Prop :=
  ∀ s t : State, s.attentionFollows → step s = .next t → t.attentionFollows ∧
    ∀ m : Master, (t.master m).attention = true ↔
      (∃ n ∈ (t.master m).notices, n.urgent = true) ∨
      (t.master m).watermark ≤ ((t.master m).notices.filter (fun n => !n.urgent)).length ∨
      (m = .C ∧ (t.master m).replies ≠ [])

/-- Every step keeps the stacked DRAM's list in its canonical form. That a byte nothing has written reads as 0 is the model's
choice (log entry 10). -/
def Obligations.DramKeepsItsCanonicalForm : Prop :=
  ∀ s t : State, s.store.dram.wf = true → step s = .next t → t.store.dram.wf = true

/-- R98: every step keeps each of the 4096 pages on the free list or in the page list of one frame, once. -/
def Obligations.PagesAreFreeOrInOneFrame : Prop :=
  ∀ s t : State, s.store.pagesKept → step s = .next t → t.store.pagesKept ∧
    t.store.freeList.length + (t.store.frames.map (fun f => f.pages.length)).sum = 4096

/-- Every step keeps the bounds of the queues: 16 packets, 4 break records, 4 fetches, 8 requests, 32 notices. -/
def Obligations.QueuesStayWithinTheirBounds : Prop :=
  ∀ s t : State, s.queuesBounded → step s = .next t → t.queuesBounded

/-- Every step keeps the power manager's and the break finder's accounts, and every active sequence on a link that is UP. -/
def Obligations.HubAccountsAreKept : Prop :=
  ∀ s t : State, s.powerAccounts → s.sweepAccounts → s.sequencesUp → step s = .next t →
    t.powerAccounts ∧ t.sweepAccounts ∧ t.sequencesUp

/-- Whatever command takes a link out of UP leaves no traffic behind on the port: a property of one transition, under the accounts
that every step keeps. -/
def Obligations.LeavingUpQuietensThePort : Prop :=
  ∀ (c : Instr) (s t : State) (p : Port), s.powerAccounts → s.sweepAccounts → exec c s = .next t →
    (s.port p).link.state = .up → (t.port p).link.state ≠ .up → (t.port p).quiet

/-! ## Encodings -/

/-- The bytes of every up-channel packet of sound form spell that packet. That the axis and the settled flag of a LENS_REPORT's entry
take one byte each is the model's choice (log entry 57). -/
def Obligations.UpPacketsRoundTrip : Prop :=
  ∀ (p : Port) (rate : Rate) (c : Instr) (l : List Byte), c.wellFormed = true → soundPacket p rate c →
    upPacketBytes c = some l → upPacketOf p rate l = c

/-- The fourteen bytes of every sequence step whose parameters fit their fields spell that step. What the bytes of an absent preset
number and an absent exposure are is the model's choice (log entry 38). -/
def Obligations.SequenceStepsRoundTrip : Prop :=
  ∀ st : Step, st.kind.fitsFields = true → st.bytes.length = 14 ∧ parseStep st.bytes = some st

/-! ## Requests at the master port unit -/

/-- R193: a request of a kind its port may not use gets NOT_PERMITTED, and nothing else is changed. That the reply lists no
clamped field is the model's reading (log entry 36). -/
def Obligations.ReservedKindsAreNotPermitted : Prop :=
  ∀ (c : Instr) (s : State) (m : Master) (k : RequestKind) (e : RequestEntry), requestOf c = some (m, k) → Next s m k e →
    e.malformed = false → fieldsFit c = true →
    ((m ≠ .C ∧ k ∈ [.writeProfile, .writeCell, .lockPreset, .lockDown, .clearStoreError, .clearPortFault, .breakHold,
        .setTriggerLine]) ∨
      (m = .C ∧ k ∈ [.subscribe, .unsubscribe, .fetch, .release, .setFramePolicy])) →
    exec c s = .next (s.answered m e { result := .notPermitted })

/-- R192: a malformed request gets BAD_REQUEST whatever its kind, and so does the next request where its kind is unknown; nothing
else is changed. Of a record's fields the bytes decide what the manual lays out: a kind without fields has none, a WRITE_PRESET
and a LOAD_SEQUENCE have 11.2's form, and their rows act on the very bytes received. A row whose request is not its master's next
changes nothing (the model's choice, log entries 3 and 6). That the reply lists no clamped field is the model's reading (log entry
36), and so is which kinds UNKNOWN_REQUEST_KIND takes (log entry 44). -/
def Obligations.MalformedRequestsAreRefused : Prop :=
  (∀ (c : Instr) (s : State) (m : Master) (k : RequestKind) (e : RequestEntry), requestOf c = some (m, k) → Next s m k e →
    (∀ l, recordOf c = some l → e.fields = l) → (e.malformed = true ∨ fieldsFit c = false) →
    exec c s = .next (s.answered m e { result := .badRequest })) ∧
  (∀ (s : State) (m : Master) (e : RequestEntry), (s.master m).nextRequest = some e → (e.kind = 0 ∨ 44 < e.kind) →
    exec (.unknownRequestKind m) s = .next (s.answered m e { result := .badRequest })) ∧
  (∀ (h : Header) (fields : List Byte) (fits : Bool), h.credit = 0 → h.part = 0 →
    (h.kind ∈ [15, 28, 29, 32, 33, 41, 43, 44] → ((h.entry fields fits).malformed = true ↔ fields ≠ [])) ∧
    (h.kind = 23 → ((h.entry fields fits).malformed = true ↔ parsePreset fields = none)) ∧
    (h.kind = 34 → ((h.entry fields fits).malformed = true ↔ parseLoad fields = none)) ∧
    (h.kind ∉ [15, 28, 29, 32, 33, 41, 43, 44, 23, 34] → fits = false → (h.entry fields fits).malformed = true) ∧
    (h.kind ∉ [15, 28, 29, 32, 33, 41, 43, 44, 23, 34, 11, 14, 42] → fields = [] →
      (h.entry fields fits).malformed = true) ∧
    (h.kind ∉ [15, 28, 29, 32, 33, 41, 43, 44, 23, 34] → fits = true → fields ≠ [] →
      (h.entry fields fits).malformed = false)) ∧
  (∀ (c : Instr) (s : State) (m : Master) (k : RequestKind), requestOf c = some (m, k) →
    (∀ e, Next s m k e → ∃ l, recordOf c = some l ∧ e.fields ≠ l) → exec c s = .next s)

/-- A camera port outside 0..7 gets BAD_RANGE, and nothing else is changed. That the BAD_RANGE of a MOVE_LENS lists no clamped
target is the model's reading (log entry 36). -/
def Obligations.PortsOutsideTheRangeAreRefused : Prop :=
  ∀ (c : Instr) (s : State) (m : Master) (k : RequestKind) (e : RequestEntry) (n : Nat), requestOf c = some (m, k) →
    Reaches s m k e → fieldsFit c = true → portNamed c = some n → 7 < n →
    exec c s = .next (s.answered m e { result := .badRange })

/-! ## Requests that read -/

/-- The requests that only read are answered from the state as it stands, field by field, and change nothing but the queues of
their master. LIST_FRAMES is refused where A or B names another master, where C names neither A nor B, and at a skip above 511;
that the named master is judged before the skip is the model's choice (log entry 52), and so is the order of the preset numbers of
READ_STORE_STATUS (log entry 63). That READ_SEQUENCE of an EMPTY context returns the counts of runs, overruns and skips beside its
state and nothing else, and that READ_TRIGGERS leaves the filter's run out, is the model's reading (log entry 41). -/
def Obligations.ReadRequestsAnswerFromTheState : Prop :=
  ∀ (s : State) (m : Master) (e : RequestEntry),
    (∀ n p, portOf n = some p →
      (Reaches s m .readPower e → exec (.readPower m n) s =
        .next (s.answered m e
          { result := .done
            body := .power
              { state := (s.port p).power.state
                position := if (s.port p).power.state = .queued then
                  (s.mgr.startQueue.findIdx? (fun q => q == p)).map (fun i => i + 1) else none
                sample := (s.port p).power.sample, peak := (s.port p).power.peak
                committed := (s.port p).power.allotment, liveAllotment := (s.port p).profile.allotment
                marks := (s.port p).marks, openSuspect := (s.port p).power.openSuspect
                lastTrip := (s.port p).power.lastTrip, lastOff := (s.port p).power.lastOff
                deenergized := (s.port p).power.deenergized, supply := s.mgr.supply, budget := s.mgr.budget
                committedSum := s.mgr.committed, startQueue := s.mgr.startQueue } })) ∧
      (Reaches s m .readBreakLog e → exec (.readBreakLog m n) s =
        .next (s.answered m e
          { result := .done
            body := .breakLog
              { records := (s.port p).breakLog.reverse, marks := (s.port p).marks
                position := (s.engine.queue.findIdx? (fun x => x.port == p)).map (fun i => i + 1)
                engine := s.engine.state, current := s.engine.current.map SweepEntry.port
                acquisitionEnd := s.engine.acquisitionEnd } })) ∧
      (Reaches s m .readLens e → exec (.readLens m n) s =
        .next (s.answered m e
          { result := .done, body := .lens ⟨(s.port p).link.state, (s.port p).lens, (s.port p).seq.state⟩ })) ∧
      (Reaches s m .readSequence e →
        ((s.port p).seq.state = .empty → exec (.readSequence m n) s =
          .next (s.answered m e
            { result := .done
              body := .emptySequence .empty (s.port p).seq.runs (s.port p).seq.overruns (s.port p).seq.skips })) ∧
        ((s.port p).seq.state ≠ .empty → exec (.readSequence m n) s =
          .next (s.answered m e
            { result := .done
              body := .sequence { (s.port p).seq with steps := none } ((s.port p).seq.steps.getD [])
                (s.port p).lens.holder (s.port p).lens.implicit }))) ∧
      (Reaches s m .readProfile e → exec (.readProfile m n) s =
        .next (s.answered m e
          (if s.presets.write.map Write.record = some (.profile p) then { result := .storeBusy }
           else
            { result := .done
              body := .profile
                (if (s.presets.profiles.get p).valid = true then (s.presets.profiles.get p).content else Profile.default)
                (s.port p).profile })))) ∧
    (∀ n, Reaches s m .readPreset e → exec (.readPreset m n) s =
      .next (s.answered m e
        (if h : n < 64 then
          (if s.presets.write.map Write.record = some (.preset ⟨n, h⟩) then { result := .storeBusy }
           else
            { result := .done
              body := .preset ⟨n, h⟩
                (if (s.presets.presets.get ⟨n, h⟩).valid = true then (s.presets.presets.get ⟨n, h⟩).content else none) })
         else { result := .badRange }))) ∧
    (Reaches s m .readCell e → exec (.readCell m) s =
      .next (s.answered m e
        (if s.presets.write.map Write.record = some .cell then { result := .storeBusy }
         else
          { result := .done
            body := .cell (if s.presets.cell.valid = true then s.presets.cell.content else Cell.default) s.mgr.budget
              s.mgr.stagger (s.lines.map LineRec.settings) }))) ∧
    (Reaches s m .readStoreStatus e → exec (.readStoreStatus m) s =
      .next (s.answered m e
        { result := .done
          body := .storeStatus
            { write := s.presets.write.map (fun w => (w.record, w.kind, w.writer, w.start))
              fault := s.presets.fault, lockDown := s.presets.lockDown, loadReport := s.presets.loadReport
              held := (List.finRange 64).filter
                (fun i => (s.presets.presets.get i).valid && (s.presets.presets.get i).content.isSome)
              locked := (List.finRange 64).filter
                (fun i => (s.presets.presets.get i).valid &&
                  ((s.presets.presets.get i).content.map Preset.locked).getD false) } })) ∧
    (Reaches s m .readStore e → exec (.readStore m) s =
      .next (s.answered m e
        { result := .done
          body := .store
            { freePages := s.store.freeList.length, reservedPages := s.store.reservedPages
              freeRecords := 512 - s.store.frames.length, reservedRecords := s.store.reservedRecords
              filling := (s.store.frames.filter (fun f => decide (f.state = .filling))).length
              ready := (s.store.frames.filter (fun f => decide (f.state = .ready))).length
              subscribers := (List.finRange 8).map (fun p => (s.port p).subscribers)
              lists :=
                ⟨⟨s.store.readers.a.ready.length, s.store.readers.a.holdLimit, s.store.readers.a.policy,
                    s.store.readers.a.fetches.length⟩,
                  ⟨s.store.readers.b.ready.length, s.store.readers.b.holdLimit, s.store.readers.b.policy,
                    s.store.readers.b.fetches.length⟩⟩ } })) ∧
    (Reaches s m .readTriggers e → ∃ lines ports, exec (.readTriggers m) s =
        .next (s.answered m e { result := .done, body := .triggers lines ports }) ∧
      lines.map LineRec.settings = s.lines.toList.map LineRec.settings ∧
      lines.map LineRec.sampled = s.lines.toList.map LineRec.sampled ∧
      lines.map LineRec.accepted = s.lines.toList.map LineRec.accepted ∧
      lines.map LineRec.lastEdge = s.lines.toList.map LineRec.lastEdge ∧
      lines.map LineRec.acceptedCount = s.lines.toList.map LineRec.acceptedCount ∧
      lines.map LineRec.ignoredCount = s.lines.toList.map LineRec.ignoredCount ∧
      ports = (List.finRange 8).map (fun p => ((s.port p).counters.triggersNotSent, (s.port p).counters.earlyEdges))) ∧
    (Reaches s m .readPart e → exec (.readPart m) s =
      .next (s.answered m e
        { result := .done
          body := .part
            { name := "Hadmira VC-8", revision := 1, cameraPorts := 8, masterPorts := 3, triggerLines := 4
              lastReset := s.lastReset, now := s.now
              ports :=
                [((s.master .A).attached, (s.master .A).protocolErrors, (s.master .A).framingErrors),
                  ((s.master .B).attached, (s.master .B).protocolErrors, (s.master .B).framingErrors),
                  ((s.master .C).attached, (s.master .C).protocolErrors, (s.master .C).framingErrors)] } })) ∧
    (∀ (named : Option Master) (skip : Option Nat), Reaches s m .listFrames e →
      (m ≠ .C → (∃ x, named = some x ∧ x ≠ m) →
        exec (.listFrames m named skip) s = .next (s.answered m e { result := .notPermitted })) ∧
      (m = .C → (named = none ∨ named = some .C) →
        exec (.listFrames m named skip) s = .next (s.answered m e { result := .badRequest })) ∧
      (∀ a : Analysis, ((m = a.master ∧ (named = none ∨ named = some m)) ∨ (m = .C ∧ named = some a.master)) →
        (511 < skip.getD 0 →
          exec (.listFrames m named skip) s = .next (s.answered m e { result := .badRange })) ∧
        (skip.getD 0 ≤ 511 → exec (.listFrames m named skip) s =
          .next (s.answered m e
            { result := .done
              body := .frames
                ⟨(s.store.readers.get a).ready.length, (s.store.readers.get a).holdLimit, (s.store.readers.get a).policy,
                  (s.store.readers.get a).fetches.length⟩
                ((((s.store.readers.get a).ready.drop (skip.getD 0)).take 32).filterMap (fun id =>
                  (s.frame? id).map (fun f =>
                    { id := f.id, port := f.port, origin := f.origin, cameraNo := f.cameraNo, cameraLines := f.cameraLines
                      openTime := f.openTime, readyTime := f.readyTime.getD 0, width := f.width, lines := f.lines
                      stored := f.stored, missing := f.missing, damaged := f.damaged, firstDamaged := f.firstDamaged
                      tags := f.tags, snapshot := f.snapshot, readers := f.readers, pins := f.pins.get a }))) }))))

/-! ## Camera links -/

/-- READ_CAMERA reports the link part of the port record and clears CAMERA_CHANGED; SET_RATE_LIMIT sets the live rate limit.
RETRAIN takes an UP link to RETRAINING at the lower of its rate and the live rate limit with a new attempt, announces the
departure and hands a RATE_SET down; in any other link state it is refused. That a new attempt starts with the mark of a packet
heard clear is the model's reading (log entry 22). -/
def Obligations.LinkRequestsAct : Prop :=
  (∀ (s : State) (m : Master) (e : RequestEntry) (n : Nat) (p : Port), portOf n = some p →
    (Reaches s m .readCamera e → exec (.readCamera m n) s =
      .next (((s.taken m).updLink p (fun l => { l with changed := false })).reply m e
        { result := .done
          body := .camera
            { state := (s.port p).link.state, current := (s.port p).link.current,
              rateLimit := (s.port p).profile.rateLimit, identity := (s.port p).link.identity,
              degraded := (s.port p).link.degraded, changed := (s.port p).link.changed,
              lastCause := (s.port p).link.lastCause, windowCount := (s.port p).link.window.map Window.count,
              counters := (s.port p).counters } })) ∧
    (Reaches s m .setRateLimit e → ∀ r : Rate, exec (.setRateLimit m n r.code) s =
      .next (((s.taken m).updPort p (fun t => { t with profile := { t.profile with rateLimit := r } })).reply m e
        { result := .done })) ∧
    (Reaches s m .setRateLimit e → ∀ k : Nat, 2 < k → exec (.setRateLimit m n k) s =
      .next (s.answered m e { result := .badRange }))) ∧
  (∀ (s : State) (m : Master) (e : RequestEntry) (n : Nat) (p : Port), portOf n = some p → Reaches s m .retrain e →
    ((s.port p).link.state = .up →
      ∃ (t : State) (r : Rate), exec (.retrain m n) s = .next (t.reply m e { result := .done }) ∧
        r = ((s.port p).link.current.getD .r1250).min (s.port p).profile.rateLimit ∧ SameOutside s t p ∧
        (t.port p).link.state = .retraining ∧ (t.port p).link.current = some r ∧ (t.port p).link.listen = r ∧
        (t.port p).link.attempt = some { start := s.now, deadline := s.now + 200000, cleanStart := none, heard := false } ∧
        (t.port p).quiet ∧
        (((s.port p).waiting.filter (fun k => !k.needsUp)).length < 16 →
          (t.port p).waiting = (s.port p).waiting.filter (fun k => !k.needsUp) ++ [.rateSet r])) ∧
    ((s.port p).link.state ≠ .up → exec (.retrain m n) s = .next (s.answered m e { result := .cameraUnavailable })))

/-- IDLE and malformed packets: at another rate than the listen rate, or with the receiver disconnected, nothing changes;
otherwise the last-packet time is recorded, and in a training attempt the packet starts the clean run, stands within it, or, 10 ms
or more after its start, takes the link UP with an error window and a LINK_EVENT. A malformed packet does the same and is stray.
That an attempt keeps a mark of a packet heard, clear at its start, is the model's reading (log entry 22). -/
def Obligations.CheckPassedPacketsCountTowardTheCleanRun : Prop :=
  ∀ (s : State) (p : Port) (rate : Rate),
    (((s.port p).link.state = .down ∨ (s.port p).link.state = .testing ∨ rate ≠ (s.port p).link.listen) →
      exec (.idle p rate) s = .next s ∧ exec (.malformedPacket p rate) s = .next s) ∧
    (((s.port p).link.state = .awaitHello ∨ (s.port p).link.state = .up ∨ (s.port p).link.state = .lost) →
      rate = (s.port p).link.listen → (s.port p).link.attempt = none →
      ∃ t, exec (.idle p rate) s = .next t ∧ SameBut s t p ∧
        t.port p = { s.port p with link := { (s.port p).link with lastPacket := some s.now } }) ∧
    (∀ a, ((s.port p).link.state = .training ∨ (s.port p).link.state = .retraining) → rate = (s.port p).link.listen →
      (s.port p).link.attempt = some a →
      (a.cleanStart = none →
        ∃ t, exec (.idle p rate) s = .next t ∧ SameBut s t p ∧
          t.port p = { s.port p with link :=
            { (s.port p).link with
              lastPacket := some s.now, attempt := some { a with heard := true, cleanStart := some s.now } } }) ∧
      (∀ c, a.cleanStart = some c → s.now < c + 10000 →
        ∃ t, exec (.idle p rate) s = .next t ∧ SameBut s t p ∧
          t.port p = { s.port p with link :=
            { (s.port p).link with lastPacket := some s.now, attempt := some { a with heard := true } } }) ∧
      (∀ c, a.cleanStart = some c → c + 10000 ≤ s.now →
        ∃ t, SameBut s t p ∧
          t.port p = { s.port p with link :=
            { (s.port p).link with
              state := .up, lastPacket := some s.now, attempt := none, window := some ⟨s.now, 0⟩ } } ∧
          exec (.idle p rate) s =
            .next (t.notifyAll false
              (.linkEvent
                { port := p, previous := (s.port p).link.state, new := .up, rate := (s.port p).link.current, cause := none,
                  degraded := (s.port p).link.degraded, changed := (s.port p).link.changed, windowCount := none })))) ∧
    ((s.port p).link.state ≠ .down → (s.port p).link.state ≠ .testing → rate = (s.port p).link.listen →
      ∃ t : State, exec (.idle p rate) s = .next t ∧
        exec (.malformedPacket p rate) s =
          .next (t.updCounters p (fun c => { c with stray := if c.stray < 4294967295 then c.stray + 1 else c.stray })))

/-- Check-failed packets count in every state in which the receiver is connected; in UP they count in the error window too, and a
LINE is handed to the intake marked damaged; in a training attempt above 1.25 Gb/s they start a new attempt at the next lower rate
with a RATE_SET, and in one at 1.25 Gb/s they take the link into LOST with TRAIN_FAILED: with auto-sweep clear it stays there and
an urgent LINK_EVENT goes to every master, with auto-sweep set the port is switched off and a sweep is queued. That a new attempt
starts with the mark of a packet heard clear is the model's reading (log entry 22). -/
def Obligations.CheckFailedPacketsCountAndFailAttempts : Prop :=
  ∀ (s : State) (p : Port) (rate : Rate) (c : Counters), rate = (s.port p).link.listen →
    c = { (s.port p).counters with
          checkFailed := if (s.port p).counters.checkFailed < 4294967295 then (s.port p).counters.checkFailed + 1
            else (s.port p).counters.checkFailed } →
    (∀ body, ((s.port p).link.state = .awaitHello ∨ (s.port p).link.state = .lost) → (s.port p).link.attempt = none →
      ∃ t, exec (.checkFailedPacket p rate body) s = .next t ∧ SameBut s t p ∧
        t.port p = { s.port p with link := { (s.port p).link with lastPacket := some s.now }, counters := c }) ∧
    (∀ w, (s.port p).link.state = .up → (s.port p).link.attempt = none → (s.port p).link.window = some w →
      w.count < 4294967295 →
      ∃ t, exec (.checkFailedPacket p rate none) s = .next t ∧ SameBut s t p ∧
        t.port p = { s.port p with
          link := { (s.port p).link with lastPacket := some s.now, window := some ⟨w.start, w.count + 1⟩ }, counters := c } ∧
        ∀ k payload, exec (.checkFailedPacket p rate (some (k, payload))) s = .next (t.takeLine p k payload true)) ∧
    (∀ body r, ((s.port p).link.state = .training ∨ (s.port p).link.state = .retraining) →
      (s.port p).link.current = some rate → rate.lower = some r → (s.port p).waiting.length < 16 →
      ∃ t, exec (.checkFailedPacket p rate body) s = .next t ∧ SameBut s t p ∧
        t.port p = { s.port p with
          counters := c, waiting := (s.port p).waiting ++ [.rateSet r],
          link := { (s.port p).link with
            lastPacket := some s.now, current := some r, listen := r,
            attempt := some { start := s.now, deadline := s.now + 200000, cleanStart := none, heard := false } } }) ∧
    (∀ body, ((s.port p).link.state = .training ∨ (s.port p).link.state = .retraining) →
      (s.port p).link.current = some .r1250 →
      ((s.port p).profile.autoSweep = false →
        ∃ t : State, SameBut s t p ∧
          t.port p = { s.port p with
            counters := c
            link := { (s.port p).link with
              state := .lost, lastCause := some .trainFailed, current := none, attempt := none, window := none
              listen := .r1250, helloDeadline := none, lastPacket := some s.now } } ∧
          exec (.checkFailedPacket p rate body) s = .next (t.notifyAll true
            (.linkEvent
              { port := p, previous := (s.port p).link.state, new := .lost, rate := none, cause := some .trainFailed
                degraded := (s.port p).link.degraded, changed := (s.port p).link.changed, windowCount := none }))) ∧
      ((s.port p).profile.autoSweep = true → (s.port p).power.state = .on → (s.port p).held = false →
        (∀ q ∈ s.mgr.startQueue, (s.port q).power.state = .queued) → (∀ e ∈ s.engine.queue, e.port ≠ p) →
        ∃ t, exec (.checkFailedPacket p rate body) s = .next t ∧ SameTraffic s t p ∧ (t.port p).link.state = .down ∧
          (t.port p).link.lastCause = some .powerOff ∧ (t.port p).counters = c ∧
          (t.port p).power.state = .off ∧ (t.port p).power.lastOff = some .linkLost ∧
          (t.port p).power.deenergized = s.now ∧ (t.port p).marks.sweepPending = true))

/-- A HELLO in AWAIT_HELLO, LOST or UP: a malformed one is stray; a well-formed one is recorded, and either starts training at the
lower of the camera's and the port's rate, or, with a power class above the committed allotment, takes the link DOWN and the port
OFF. One in TRAINING or RETRAINING is recorded and starts a new attempt likewise; that it counts toward the clean run first, and
with 10 ms of it is taken from UP, is the model's reading (log entry 19). That a new attempt starts with the mark of a packet
heard clear is the model's reading (log entry 22). -/
def Obligations.HelloIsRecordedAndStartsTraining : Prop :=
  (∀ (s : State) (p : Port) (h : HelloBody), (s.port p).link.attempt = none →
    ((s.port p).link.state = .awaitHello ∨ (s.port p).link.state = .lost ∨ (s.port p).link.state = .up) →
    (HelloBody.wellFormed h = false →
      ∃ t, exec (.hello p (s.port p).link.listen h) s = .next t ∧ SameBut s t p ∧
        t.port p = { s.port p with
          link := { (s.port p).link with lastPacket := some s.now }
          counters := { (s.port p).counters with
            stray := if (s.port p).counters.stray < 4294967295 then (s.port p).counters.stray + 1
              else (s.port p).counters.stray } }) ∧
    (∀ i r, HelloBody.wellFormed h = true → i = HelloBody.identity h → i.powerClass ≤ (s.port p).power.allotment.getD 0 →
      r = i.maxRate.min (s.port p).profile.rateLimit →
      ∃ t, exec (.hello p (s.port p).link.listen h) s = .next t ∧ SameOutside s t p ∧
        (t.port p).link.state = .training ∧ (t.port p).link.current = some r ∧ (t.port p).link.listen = r ∧
        (t.port p).link.attempt = some { start := s.now, deadline := s.now + 200000, cleanStart := none, heard := false } ∧
        (t.port p).link.identity = some i ∧ (t.port p).link.lastSerial = some i.serial ∧
        (t.port p).link.helloDeadline = none ∧ (t.port p).link.lastCause = (s.port p).link.lastCause ∧
        ((t.port p).link.changed = true ↔ (s.port p).link.changed = true ∨
          ∃ old, (s.port p).link.lastSerial = some old ∧ old ≠ i.serial) ∧
        (∀ x : Axis, (t.port p).lens.axes.get x = (i.speeds.get x).map (fun v =>
          { speed := v, position := none, target := none, motion := .idle, deadline := none })) ∧
        (t.port p).power = (s.port p).power ∧
        ((s.port p).link.state ≠ .up → (s.port p).waiting.length < 16 →
          (t.port p).waiting = (s.port p).waiting ++ [.welcome r] ∧ t.store = s.store ∧ t.masters = s.masters) ∧
        ((s.port p).link.state = .up → (t.port p).quiet)) ∧
    (HelloBody.wellFormed h = true → (s.port p).power.allotment.getD 0 < h.powerClass → (s.port p).power.state = .on →
      ∃ t, exec (.hello p (s.port p).link.listen h) s = .next t ∧ SameTraffic s t p ∧ (t.port p).link.state = .down ∧
        (t.port p).link.lastCause = some .classOverAllotment ∧ (t.port p).link.identity = some (HelloBody.identity h) ∧
        (t.port p).power.state = .off ∧ (t.port p).power.lastOff = some .classOverAllotment ∧
        (t.port p).power.allotment = none ∧ (t.port p).power.deenergized = s.now ∧ (t.port p).marks = (s.port p).marks)) ∧
  (∀ (s : State) (p : Port) (rate : Rate) (h : HelloBody), HelloBody.wellFormed h = false →
    exec (.hello p rate h) s = exec (.malformedPacket p rate) s) ∧
  (∀ (s : State) (p : Port) (h : HelloBody) (a : Attempt) (i : Identity) (r : Rate),
    ((s.port p).link.state = .training ∨ (s.port p).link.state = .retraining) → (s.port p).link.attempt = some a →
    HelloBody.wellFormed h = true → i = HelloBody.identity h → i.powerClass ≤ (s.port p).power.allotment.getD 0 →
    r = i.maxRate.min (s.port p).profile.rateLimit →
    ∃ t, exec (.hello p (s.port p).link.listen h) s = .next t ∧ SameOutside s t p ∧
      (t.port p).link.state = .training ∧ (t.port p).link.current = some r ∧ (t.port p).link.listen = r ∧
      (t.port p).link.attempt = some { start := s.now, deadline := s.now + 200000, cleanStart := none, heard := false } ∧
      (t.port p).link.identity = some i ∧ (t.port p).link.lastSerial = some i.serial ∧
      (t.port p).link.helloDeadline = none ∧ (t.port p).power = (s.port p).power ∧
      ((∀ c, a.cleanStart = some c → s.now < c + 10000) → (s.port p).waiting.length < 16 →
        (t.port p).waiting = (s.port p).waiting ++ [.welcome r] ∧ (t.port p).seq = (s.port p).seq ∧
        (t.port p).intake = (s.port p).intake ∧ t.store = s.store ∧ t.masters = s.masters) ∧
      (∀ c, a.cleanStart = some c → c + 10000 ≤ s.now → (t.port p).quiet))

/-- The down-channel in TRAINING, RETRAINING and UP sends the packet handed to it first, or IDLE where none waits, and in every
other state nothing. A packet that needs the link UP is not sent in training. That nothing is sent in DOWN, TESTING, AWAIT_HELLO
and LOST, and that what waits then keeps its place, is the model's reading (log entry 21). -/
def Obligations.DownChannelSendsInOrder : Prop :=
  ∀ (s : State) (p : Port),
    (((s.port p).link.state = .training ∨ (s.port p).link.state = .retraining ∨ (s.port p).link.state = .up) →
      ((s.port p).waiting = [] → ∃ t, exec (.downChannelSend p) s = .next t ∧ SameBut s t p ∧
        t.port p = { s.port p with lastSent := some .idle }) ∧
      (∀ k rest, (s.port p).waiting = k :: rest → (k.needsUp = false ∨ (s.port p).link.state = .up) →
        ∃ t, exec (.downChannelSend p) s = .next t ∧ SameBut s t p ∧
          t.port p = { s.port p with waiting := rest, lastSent := some k }) ∧
      (∀ k rest, (s.port p).waiting = k :: rest → k.needsUp = true → (s.port p).link.state ≠ .up →
        ∃ t, exec (.downChannelSend p) s = .next t ∧ SameBut s t p ∧ t.port p = { s.port p with waiting := rest })) ∧
    (((s.port p).link.state = .down ∨ (s.port p).link.state = .testing ∨ (s.port p).link.state = .awaitHello ∨
        (s.port p).link.state = .lost) → exec (.downChannelSend p) s = .next s)

/-- The deadlines that take a link into LOST: the hello timeout in AWAIT_HELLO, the deadline of an attempt at 1.25 Gb/s, and 50 ms
of silence in UP or after the first packet of an attempt. With auto-sweep clear the link stays LOST and an urgent LINK_EVENT goes
to every master's queue; with it set the port is switched off and held for a sweep. An attempt at a higher rate steps down. Before
their time the deadlines change nothing. That a command before its time changes nothing, and that it may come at any time from
then on, is the model's choice (log entries 3 and 4). When the watch of 50 ms runs in an attempt, by its mark of a packet heard,
is its reading (log entry 22). -/
def Obligations.LinkDeadlinesLeadToLost : Prop :=
  ∀ (s : State) (p : Port),
    (∀ (c : Instr) (why : LinkCause),
      ((c = .helloTimeout p ∧ why = .helloTimeout ∧ (s.port p).link.state = .awaitHello ∧
          ∃ d, (s.port p).link.helloDeadline = some d ∧ d ≤ s.now) ∨
        (c = .attemptDeadline p ∧ why = .trainFailed ∧ (s.port p).link.current = some .r1250 ∧
          ((s.port p).link.state = .training ∨ (s.port p).link.state = .retraining) ∧
          ∃ a, (s.port p).link.attempt = some a ∧ a.deadline ≤ s.now) ∨
        (c = .lockLoss p ∧ why = .lockLost ∧
          ((s.port p).link.state = .up ∨
            (((s.port p).link.state = .training ∨ (s.port p).link.state = .retraining) ∧
              ∃ a, (s.port p).link.attempt = some a ∧ a.heard = true)) ∧
          ∃ d, (s.port p).link.lastPacket = some d ∧ d + 50000 ≤ s.now)) →
      ((s.port p).profile.autoSweep = false →
        ∃ t : State, exec c s = .next (t.notifyAll true
            (.linkEvent
              { port := p, previous := (s.port p).link.state, new := .lost, rate := none, cause := some why
                degraded := if (s.port p).link.state = .up then false else (s.port p).link.degraded
                changed := (s.port p).link.changed, windowCount := none })) ∧
          SameOutside s t p ∧ (t.port p).link.state = .lost ∧
          (t.port p).link.lastCause = some why ∧ (t.port p).link.current = none ∧ (t.port p).link.attempt = none ∧
          (t.port p).link.window = none ∧ (t.port p).link.listen = .r1250 ∧ (t.port p).link.helloDeadline = none ∧
          (t.port p).power = (s.port p).power ∧ (t.port p).marks = (s.port p).marks ∧
          ((s.port p).link.state = .up → (t.port p).quiet)) ∧
      ((s.port p).profile.autoSweep = true → (s.port p).power.state = .on → (s.port p).held = false →
        (∀ q ∈ s.mgr.startQueue, (s.port q).power.state = .queued) → (∀ e ∈ s.engine.queue, e.port ≠ p) →
        ∃ t, exec c s = .next t ∧ SameTraffic s t p ∧ (t.port p).link.state = .down ∧
          (t.port p).link.lastCause = some .powerOff ∧
          (t.port p).power.state = .off ∧ (t.port p).power.lastOff = some .linkLost ∧
          (t.port p).power.deenergized = s.now ∧ (t.port p).marks.sweepPending = true)) ∧
    (∀ a r q, (s.port p).link.attempt = some a → a.deadline ≤ s.now →
      ((s.port p).link.state = .training ∨ (s.port p).link.state = .retraining) →
      (s.port p).link.current = some q → q.lower = some r → (s.port p).waiting.length < 16 →
      ∃ t, exec (.attemptDeadline p) s = .next t ∧ SameBut s t p ∧
        t.port p = { s.port p with
          waiting := (s.port p).waiting ++ [.rateSet r]
          link := { (s.port p).link with
            current := some r, listen := r,
            attempt := some { start := s.now, deadline := s.now + 200000, cleanStart := none, heard := false } } }) ∧
    ((∀ d, (s.port p).link.helloDeadline = some d → s.now < d) → exec (.helloTimeout p) s = .next s) ∧
    ((∀ a, (s.port p).link.attempt = some a → s.now < a.deadline) → exec (.attemptDeadline p) s = .next s) ∧
    ((∀ d, (s.port p).link.lastPacket = some d → s.now < d + 50000) → exec (.lockLoss p) s = .next s)

/-- The error window of an UP link is judged 1000 ms after its start: within the threshold, or over it at 1.25 Gb/s, the link
stays UP with a new window and the DEGRADED mark clear or set, a change of the mark being reported; over it at a higher rate the
link retrains at the next lower rate. That a command before its time changes nothing, and that it may come at any time from then
on, is the model's choice (log entries 3 and 4). That a new attempt starts with the mark of a packet heard clear is the model's
reading (log entry 22). -/
def Obligations.ErrorWindowsAreJudgedAtTheirEnd : Prop :=
  ∀ (s : State) (p : Port) (w : Window), (s.port p).link.window = some w → (s.port p).link.state = .up →
    (s.now < w.start + 1000000 → exec (.errorWindowEnd p) s = .next s) ∧
    (w.start + 1000000 ≤ s.now →
      (∀ mark : Bool,
        ((mark = false ∧ w.count ≤ (s.port p).profile.degradeThreshold) ∨
          (mark = true ∧ (s.port p).profile.degradeThreshold < w.count ∧ (s.port p).link.current = some .r1250)) →
        ∃ t, SameBut s t p ∧
          t.port p = { s.port p with link :=
            { (s.port p).link with window := some ⟨w.start + 1000000, 0⟩, degraded := mark } } ∧
          ((s.port p).link.degraded = mark → exec (.errorWindowEnd p) s = .next t) ∧
          ((s.port p).link.degraded ≠ mark → exec (.errorWindowEnd p) s =
            .next (t.notifyAll false
              (.linkEvent
                { port := p, previous := .up, new := .up, rate := (s.port p).link.current, cause := none, degraded := mark,
                  changed := (s.port p).link.changed, windowCount := some w.count })))) ∧
      (∀ q r, (s.port p).profile.degradeThreshold < w.count → (s.port p).link.current = some q → q.lower = some r →
        ∃ t, exec (.errorWindowEnd p) s = .next t ∧ SameOutside s t p ∧ (t.port p).link.state = .retraining ∧
          (t.port p).link.current = some r ∧ (t.port p).link.listen = r ∧ (t.port p).quiet ∧
          (t.port p).link.attempt =
            some { start := s.now, deadline := s.now + 200000, cleanStart := none, heard := false }))

/-! ## Port power -/

/-- A current sample below every limit is taken into the port's power record: its reading in every state, the peak in INRUSH, the
two runs in ON. The sample that completes the undercurrent run of an ON port: without auto-sweep the port stays ON as OPEN_SUSPECT
and the masters are told; with it the port is switched off and a sweep is queued. That UNDERCURRENT is the sample that completes
the run is the model's reading (log entry 12), and so is that the run returns to 0 with OPEN_SUSPECT (log entry 14). -/
def Obligations.CurrentSamplesAreJudged : Prop :=
  (∀ (s : State) (p : Port) (mA v : Nat), v = min mA 5000 →
    ((s.port p).power.state ≠ .inrush → (s.port p).power.state ≠ .on →
      ∃ t, exec (.currentSample p mA) s = .next t ∧ SameBut s t p ∧
        t.port p = { s.port p with power := { (s.port p).power with sample := some v } }) ∧
    (∀ a, (s.port p).power.state = .inrush → (s.port p).power.allotment = some a → v ≤ 2500 → v ≤ 3 * a →
      ∃ t, exec (.currentSample p mA) s = .next t ∧ SameBut s t p ∧
        t.port p = { s.port p with power :=
          { (s.port p).power with sample := some v, peak := some (max ((s.port p).power.peak.getD 0) v) } }) ∧
    (∀ a overRun under, (s.port p).power.state = .on → (s.port p).power.allotment = some a → v ≤ 2500 →
      overRun = (if a * 5 / 4 < v then (s.port p).power.overloadRun + 1 else 0) → overRun < 20 →
      under = (if (s.port p).power.openSuspect = true then 0 else if v < 15 then (s.port p).power.underRun + 1 else 0) →
      under < 500 →
      ∃ t, exec (.currentSample p mA) s = .next t ∧ SameBut s t p ∧
        t.port p = { s.port p with power :=
          { (s.port p).power with sample := some v, overloadRun := overRun, underRun := under } })) ∧
  (∀ (s : State) (p : Port) (mA a : Nat) (c : Instr), (c = .currentSample p mA ∨ c = .undercurrent p mA) → mA < 15 →
    (s.port p).power.state = .on → (s.port p).power.allotment = some a → 12 ≤ a → (s.port p).power.openSuspect = false →
    499 ≤ (s.port p).power.underRun →
    ((s.port p).profile.autoSweep = false →
      ∃ t ev, SameBut s t p ∧
        t.port p = { s.port p with power :=
          { (s.port p).power with sample := some mA, overloadRun := 0, underRun := 0, openSuspect := true } } ∧
        exec c s = .next (t.notifyAll false (.powerEvent ev)) ∧ ev.port = some p ∧ ev.cause = some .undercurrent ∧
        ev.openSuspect = some true ∧ ev.committed = s.mgr.committed) ∧
    ((s.port p).profile.autoSweep = true → (s.port p).link.state ≠ .testing → (s.port p).marks.testing = false →
      ∃ t, exec c s = .next t ∧ SameTraffic s t p ∧ (t.port p).power.state = .off ∧
        (t.port p).power.lastOff = some .undercurrent ∧ (t.port p).power.allotment = none ∧
        (t.port p).power.deenergized = s.now ∧ (t.port p).power.openSuspect = false ∧
        t.mgr.committed = s.mgr.committed - a ∧ (t.port p).link.state = .down ∧ (t.port p).link.helloDeadline = none ∧
        ((s.port p).link.state ≠ .down → (t.port p).link.lastCause = some .powerOff) ∧
        (t.port p).marks.sweepPending = true ∧ (t.port p).marks.lockout = (s.port p).marks.lockout))

/-- A sample above the hard limit, above three allotments in INRUSH, or completing the overload run in ON trips the port: the
allotment is released, the link goes DOWN and with auto-sweep a short is swept. That OVERLOAD is the sample that completes the run
is the model's reading (log entry 12). -/
def Obligations.PortsTripOnTheirLimits : Prop :=
  ∀ (s : State) (p : Port) (mA v a : Nat) (c : Instr) (why : TripCause), v = min mA 5000 →
    (s.port p).power.allotment = some a → (s.port p).link.state ≠ .testing → (s.port p).marks.testing = false →
    p ∉ s.mgr.startQueue →
    ((c = .currentSample p mA ∧ why = .short ∧
        ((s.port p).power.state = .inrush ∨ (s.port p).power.state = .on) ∧ 2500 < v) ∨
      (c = .currentSample p mA ∧ why = .inrushOver ∧ (s.port p).power.state = .inrush ∧ v ≤ 2500 ∧ 3 * a < v) ∨
      ((c = .currentSample p mA ∨ c = .overload p mA) ∧ why = .overload ∧ (s.port p).power.state = .on ∧ v ≤ 2500 ∧
        a * 5 / 4 < v ∧ 19 ≤ (s.port p).power.overloadRun)) →
    ∃ t, exec c s = .next t ∧ SameTraffic s t p ∧ (t.port p).power.state = .tripped ∧ (t.port p).power.allotment = none ∧
      (t.port p).power.lastTrip = some why ∧ (t.port p).power.lastOff = (s.port p).power.lastOff ∧
      (t.port p).power.sample = some v ∧ (t.port p).power.deenergized = s.now ∧ (t.port p).power.overloadRun = 0 ∧
      (t.port p).power.underRun = 0 ∧ (t.port p).power.openSuspect = false ∧ (t.port p).power.inrush = none ∧
      t.mgr.committed = s.mgr.committed - a ∧ (t.port p).link.state = .down ∧ (t.port p).link.helloDeadline = none ∧
      ((s.port p).link.state ≠ .down → (t.port p).link.lastCause = some .powerOff) ∧
      ((s.port p).link.state = .up → (t.port p).quiet) ∧
      (t.port p).marks.lockout = (s.port p).marks.lockout ∧
      ((t.port p).marks.sweepPending = true ↔
        (s.port p).marks.sweepPending = true ∨ (why = .short ∧ (s.port p).profile.autoSweep = true))

/-- At the end of its inrush window a port goes ON and its link awaits HELLO; before it nothing changes. Where the stagger gap is
not 0 no other port starts with it, and where it is 0 the head of the start queue does. The head of the start queue enters INRUSH
when no port is in INRUSH and the stagger gap has passed since the last inrush end; otherwise it waits. That a command before its
time changes nothing, and that it may come at any time from then on, is the model's choice (log entries 3 and 4). When the head of
the start queue is tested is its reading (log entry 15). -/
def Obligations.StartQueueStartsPortByPort : Prop :=
  (∀ (s : State) (p : Port) (b d : Time), (s.port p).power.state = .inrush → (s.port p).power.inrush = some (b, d) →
    p ∉ s.mgr.startQueue →
    (s.now < d → exec (.inrushEnd p) s = .next s) ∧
    (d ≤ s.now →
      ∃ t, exec (.inrushEnd p) s = .next t ∧ SameTraffic s t p ∧
        t.port p = { s.port p with
          power := { (s.port p).power with state := .on, overloadRun := 0, underRun := 0, inrush := none }
          link := { (s.port p).link with state := .awaitHello, listen := .r1250, lastPacket := none } } ∧
        t.mgr.lastInrushEnd = some s.now ∧ t.mgr.committed = s.mgr.committed ∧ t.store = s.store ∧ t.engine = s.engine ∧
        (s.mgr.stagger ≠ 0 → t.mgr.startQueue = s.mgr.startQueue ∧ ∀ q : Port, q ≠ p → t.port q = s.port q) ∧
        (∀ h rest, s.mgr.stagger = 0 → s.mgr.startQueue = h :: rest →
          (∀ q : Port, q ≠ p → (s.port q).power.state ≠ .inrush) → (t.port h).power.state = .inrush))) ∧
  (∀ (s : State) (c : Instr),
    (∀ p rest, s.mgr.startQueue = p :: rest → (∀ q : Port, (s.port q).power.state ≠ .inrush) →
      ((c = .queueHeadStart ∧ ∀ d, s.mgr.lastInrushEnd = some d → d + s.mgr.stagger * 1000 ≤ s.now) ∨
        (c = .staggerGapEnd ∧ ∃ d, s.mgr.lastInrushEnd = some d ∧ d + s.mgr.stagger * 1000 ≤ s.now)) →
      ∃ t, exec c s = .next t ∧ SameBut { s with mgr := t.mgr } t p ∧
        t.mgr = { s.mgr with startQueue := rest.filter (fun q => !(q == p)) } ∧
        t.port p = { s.port p with
          power := { (s.port p).power with
            state := .inrush, inrush := some (s.now, s.now + (s.port p).profile.inrushWindow * 1000), peak := some 0,
            overloadRun := 0, underRun := 0 }
          link := { (s.port p).link with helloDeadline := some (s.now + (s.port p).profile.helloTimeout * 1000) } }) ∧
    ((c = .queueHeadStart ∨ c = .staggerGapEnd) →
      (s.mgr.startQueue = [] ∨ (∃ q : Port, (s.port q).power.state = .inrush) ∨
        ∃ d, s.mgr.lastInrushEnd = some d ∧ s.now < d + s.mgr.stagger * 1000) →
      exec c s = .next s))

/-- The supply state enters LOW: every committed port is switched off into the restore set, the start queue and the committed sum
are empty; ports in OFF or TRIPPED are left as they are, and so is a port held for a sweep, with the sweep. That the restore set
stands in port number order is the model's choice (log entry 63). The supply state enters NORMAL: the ports of the restore set
with auto-restore, and once after a reset the ports with power-at-start, are admitted where nothing stands against them; every
other port is left as it is. That the two commands carry the extreme reading and for how long it held, and change nothing without
their conditions, is the model's choice (log entries 3 and 16). -/
def Obligations.SupplyStatesSwitchPorts : Prop :=
  (∀ (s : State) (high forUs : Nat), s.mgr.supply = .normal →
    ((20000 ≤ high ∨ forUs < 5000) → exec (.supplyStateLow high forUs) s = .next s) ∧
    (high < 20000 → 5000 ≤ forUs →
      (∀ p : Port, ((s.port p).power.state = .inrush ∨ (s.port p).power.state = .on) → (s.port p).link.state ≠ .testing) →
      ∃ t, exec (.supplyStateLow high forUs) s = .next t ∧ t.mgr.supply = .low ∧ t.mgr.committed = 0 ∧
        t.mgr.startQueue = [] ∧ t.mgr.restoreSet = allPorts.filter (fun p => (s.port p).power.state.committed) ∧
        t.mgr.budget = s.mgr.budget ∧ t.mgr.stagger = s.mgr.stagger ∧ t.mgr.startUpPending = s.mgr.startUpPending ∧
        t.now = s.now ∧ t.engine = s.engine ∧ t.presets = s.presets ∧ t.lines = s.lines ∧
        (s.sweepAccounts → ∀ p : Port, (s.port p).held = true → t.port p = s.port p) ∧
        ∀ p : Port,
          (((s.port p).power.state = .off ∨ (s.port p).power.state = .tripped) → t.port p = s.port p) ∧
          ((s.port p).power.state = .queued →
            t.port p = { s.port p with power :=
              { (s.port p).power with state := .off, lastOff := some .supply, allotment := none } }) ∧
          (((s.port p).power.state = .inrush ∨ (s.port p).power.state = .on) →
            (t.port p).power.state = .off ∧ (t.port p).power.lastOff = some .supply ∧
            (t.port p).power.allotment = none ∧ (t.port p).power.deenergized = s.now ∧
            (t.port p).power.overloadRun = 0 ∧ (t.port p).power.underRun = 0 ∧ (t.port p).power.openSuspect = false ∧
            (t.port p).link.state = .down ∧ (t.port p).link.helloDeadline = none ∧
            (t.port p).marks = (s.port p).marks ∧ (t.port p).profile = (s.port p).profile ∧
            ((s.port p).link.state = .up → (t.port p).quiet)))) ∧
  (∀ (s : State) (low forUs : Nat) (back : Port → Prop), s.mgr.supply = .low →
    ((low < 21000 ∨ forUs < 100000 ∨ s.now < 100000) → exec (.supplyStateNormal low forUs) s = .next s) ∧
    (21000 ≤ low → 100000 ≤ forUs → 100000 ≤ s.now →
      (∀ p, back p ↔ (p ∈ s.mgr.restoreSet ∧ (s.port p).profile.autoRestore = true) ∨
        (s.mgr.startUpPending = true ∧ (s.port p).profile.powerAtStart = true)) →
      (∀ p, back p → (s.port p).power.state = .off ∧ (s.port p).held = false ∧ (s.port p).marks.lockout = false) →
      s.mgr.committed + (allPorts.map (fun p => (s.port p).profile.allotment)).sum ≤ s.effectiveBudget →
      ∃ t, exec (.supplyStateNormal low forUs) s = .next t ∧ t.mgr.supply = .normal ∧ t.mgr.restoreSet = [] ∧
        t.mgr.startUpPending = false ∧ t.now = s.now ∧ t.store = s.store ∧ t.engine = s.engine ∧ t.presets = s.presets ∧
        t.lines = s.lines ∧
        (∀ p, ¬ back p → t.port p = s.port p) ∧
        (∀ p, back p → (t.port p).power.allotment = some (s.port p).profile.allotment ∧
          ((t.port p).power.state = .queued ∨ (t.port p).power.state = .inrush) ∧
          (s.port p).sameTraffic (t.port p) ∧ (t.port p).marks = (s.port p).marks ∧
          (t.port p).link.state = (s.port p).link.state)))

/-- PORT_POWER ON: a list that names a port outside 0..7 is refused whole; a port with LOCKOUT, held for a sweep, TRIPPED, under a
LOW supply, already committed or over the budget gets its result and is left as it is; and an OFF port that passes is QUEUED, or
starts at once where the queue was empty, no port is in INRUSH and the gap has passed; where one of the three fails it stays
QUEUED. Of several entries each is judged on the state the entries before it left, in list order, and the head is tested once,
after the list. That the head of the start queue is tested at the end of the event, after the whole list, is the model's reading
(log entry 15). -/
def Obligations.PortPowerOnAdmitsPorts : Prop :=
  ∀ (s : State) (m : Master) (e : RequestEntry), Reaches s m .portPower e →
    (∀ ports : List Nat, 1 ≤ ports.length → ports.length ≤ 8 → (∃ n ∈ ports, 7 < n) →
      exec (.portPowerOn m ports) s = .next (s.answered m e { result := .badRange }) ∧
      exec (.portPowerOff m ports) s = .next (s.answered m e { result := .badRange })) ∧
    (∀ n p (r : Result), portOf n = some p →
      (((s.port p).marks.lockout = true ∧ r = .portLockedOut) ∨
        ((s.port p).marks.lockout = false ∧ (s.port p).held = true ∧ r = .portTesting) ∨
        ((s.port p).marks.lockout = false ∧ (s.port p).held = false ∧ (s.port p).power.state = .tripped ∧
          r = .portTripped) ∨
        ((s.port p).marks.lockout = false ∧ (s.port p).held = false ∧ (s.port p).power.state ≠ .tripped ∧
          s.mgr.supply = .low ∧ r = .supplyLow) ∨
        ((s.port p).marks.lockout = false ∧ (s.port p).held = false ∧ s.mgr.supply = .normal ∧
          (s.port p).power.state.committed = true ∧ r = .done) ∨
        ((s.port p).marks.lockout = false ∧ (s.port p).held = false ∧ s.mgr.supply = .normal ∧
          (s.port p).power.state = .off ∧ s.effectiveBudget < s.mgr.committed + (s.port p).profile.allotment ∧
          r = .overBudget)) →
      exec (.portPowerOn m [n]) s = .next (s.answered m e { result := .done, body := .entryResults [r] })) ∧
    (∀ n p, portOf n = some p → (s.port p).marks.lockout = false → (s.port p).held = false → s.mgr.supply = .normal →
      (s.port p).power.state = .off → s.mgr.committed + (s.port p).profile.allotment ≤ s.effectiveBudget →
      ((s.mgr.startQueue ≠ [] ∨ (∃ q : Port, (s.port q).power.state = .inrush) ∨
          ∃ d, s.mgr.lastInrushEnd = some d ∧ s.now < d + s.mgr.stagger * 1000) →
        ∃ t, exec (.portPowerOn m [n]) s = .next (t.reply m e { result := .done, body := .entryResults [.done] }) ∧
          SameBut { s.taken m with mgr := t.mgr } t p ∧
          t.mgr = { s.mgr with
            committed := s.mgr.committed + (s.port p).profile.allotment, startQueue := s.mgr.startQueue ++ [p] } ∧
          t.port p = { s.port p with power :=
            { (s.port p).power with state := .queued, allotment := some (s.port p).profile.allotment } }) ∧
      (s.mgr.startQueue = [] → (∀ q : Port, (s.port q).power.state ≠ .inrush) →
        (∀ d, s.mgr.lastInrushEnd = some d → d + s.mgr.stagger * 1000 ≤ s.now) →
        ∃ t, exec (.portPowerOn m [n]) s = .next (t.reply m e { result := .done, body := .entryResults [.done] }) ∧
          SameBut { s.taken m with mgr := t.mgr } t p ∧
          t.mgr = { s.mgr with committed := s.mgr.committed + (s.port p).profile.allotment } ∧
          t.port p = { s.port p with
            power := { (s.port p).power with
              state := .inrush, allotment := some (s.port p).profile.allotment,
              inrush := some (s.now, s.now + (s.port p).profile.inrushWindow * 1000), peak := some 0, overloadRun := 0,
              underRun := 0 }
            link := { (s.port p).link with helloDeadline := some (s.now + (s.port p).profile.helloTimeout * 1000) } })) ∧
    (∀ n k p q a b, portOf n = some p → portOf k = some q → s.mgr.supply = .normal →
      (∀ x, (x = p ∨ x = q) →
        (s.port x).marks.lockout = false ∧ (s.port x).held = false ∧ (s.port x).power.state = .off) →
      a = (s.port p).profile.allotment → b = (s.port q).profile.allotment → s.mgr.committed + a ≤ s.effectiveBudget →
      ((s.mgr.startQueue ≠ [] ∨ (∃ x : Port, (s.port x).power.state = .inrush) ∨
          ∃ d, s.mgr.lastInrushEnd = some d ∧ s.now < d + s.mgr.stagger * 1000) →
        (p ≠ q → s.mgr.committed + a + b ≤ s.effectiveBudget →
          ∃ t : State, exec (.portPowerOn m [n, k]) s =
              .next (t.reply m e { result := .done, body := .entryResults [.done, .done] }) ∧
            t = { s.taken m with mgr := t.mgr, ports := t.ports } ∧
            t.mgr = { s.mgr with
              committed := s.mgr.committed + a + b, startQueue := s.mgr.startQueue ++ [p, q] } ∧
            (∀ x, (x = p ∨ x = q) → t.port x = { s.port x with power :=
              { (s.port x).power with state := .queued, allotment := some (s.port x).profile.allotment } }) ∧
            (∀ x, x ≠ p → x ≠ q → t.port x = s.port x)) ∧
        ((p = q ∨ s.effectiveBudget < s.mgr.committed + a + b) →
          ∃ t : State, exec (.portPowerOn m [n, k]) s =
              .next (t.reply m e
                { result := .done, body := .entryResults [.done, if p = q then .done else .overBudget] }) ∧
            SameBut { s.taken m with mgr := t.mgr } t p ∧
            t.mgr = { s.mgr with committed := s.mgr.committed + a, startQueue := s.mgr.startQueue ++ [p] } ∧
            t.port p = { s.port p with power := { (s.port p).power with state := .queued, allotment := some a } })) ∧
      (s.mgr.startQueue = [] → (∀ x : Port, (s.port x).power.state ≠ .inrush) →
        (∀ d, s.mgr.lastInrushEnd = some d → d + s.mgr.stagger * 1000 ≤ s.now) →
        (p ≠ q → s.mgr.committed + a + b ≤ s.effectiveBudget →
          ∃ t : State, exec (.portPowerOn m [n, k]) s =
              .next (t.reply m e { result := .done, body := .entryResults [.done, .done] }) ∧
            t.mgr = { s.mgr with committed := s.mgr.committed + a + b, startQueue := [q] } ∧
            (t.port p).power.state = .inrush ∧ (t.port q).power.state = .queued ∧
            (∀ x, x ≠ p → x ≠ q → t.port x = s.port x)) ∧
        ((p = q ∨ s.effectiveBudget < s.mgr.committed + a + b) →
          ∃ t : State, exec (.portPowerOn m [n, k]) s =
              .next (t.reply m e
                { result := .done, body := .entryResults [.done, if p = q then .done else .overBudget] }) ∧
            SameBut { s.taken m with mgr := t.mgr } t p ∧
            t.mgr = { s.mgr with committed := s.mgr.committed + a } ∧ (t.port p).power.state = .inrush ∧
            (t.port p).power.allotment = some a)))

/-- PORT_POWER OFF leaves a port in OFF or TRIPPED as it is, takes a QUEUED port out of the start queue, and switches an energized
port off with its link; under a LOW supply the ports of the list leave the restore set. CLEAR_PORT_FAULT clears LOCKOUT and the latch
of a TRIPPED port, which every master is told in a routine POWER_EVENT. That its OPEN_SUSPECT mark is absent is the model's choice
(log entry 49). -/
def Obligations.PortPowerOffAndFaultsClear : Prop :=
  ∀ (s : State) (m : Master) (e : RequestEntry) (n : Nat) (p : Port), portOf n = some p →
    (Reaches s m .portPower e → s.mgr.supply = .normal →
      ((s.port p).power.state.committed = false →
        exec (.portPowerOff m [n]) s = .next (s.answered m e { result := .done, body := .entryResults [.done] })) ∧
      ((s.port p).power.state = .queued →
        ∃ t : State, SameBut { s.taken m with mgr := t.mgr } t p ∧
          t.mgr = { s.mgr with
            committed := s.mgr.committed - (s.port p).power.allotment.getD 0
            startQueue := s.mgr.startQueue.filter (fun q => !(q == p)) } ∧
          t.port p = { s.port p with power :=
            { (s.port p).power with state := .off, lastOff := some .request, allotment := none } } ∧
          exec (.portPowerOff m [n]) s =
            .next ((t.notifyAll false (.powerEvent
              { port := some p, change := some (.queued, .off), cause := some (.off .request), sample := none
                refusal := none, sweepQueued := none, openSuspect := none, restoreSet := none, notRestored := none
                committed := s.mgr.committed - (s.port p).power.allotment.getD 0 })).reply m e
              { result := .done, body := .entryResults [.done] })) ∧
      (((s.port p).power.state = .inrush ∨ (s.port p).power.state = .on) → (s.port p).link.state ≠ .testing →
        ∃ t, exec (.portPowerOff m [n]) s = .next (t.reply m e { result := .done, body := .entryResults [.done] }) ∧
          SameTraffic s t p ∧ (t.port p).power.state = .off ∧ (t.port p).power.lastOff = some .request ∧
          (t.port p).power.allotment = none ∧ (t.port p).power.deenergized = s.now ∧
          t.mgr.committed = s.mgr.committed - (s.port p).power.allotment.getD 0 ∧ (t.port p).link.state = .down ∧
          (t.port p).link.helloDeadline = none ∧ (t.port p).marks = (s.port p).marks ∧
          ((s.port p).link.state = .up → (t.port p).quiet))) ∧
    (∀ ports : List Nat, Reaches s m .portPower e → 1 ≤ ports.length → ports.length ≤ 8 →
      (∀ k ∈ ports, ∃ q, portOf k = some q ∧ (s.port q).power.state.committed = false) →
      (s.mgr.supply = .normal → exec (.portPowerOff m ports) s =
        .next (s.answered m e { result := .done, body := .entryResults (ports.map (fun _ => .done)) })) ∧
      (s.mgr.supply = .low →
        ∃ t : State, exec (.portPowerOff m ports) s =
            .next (t.reply m e { result := .done, body := .entryResults (ports.map (fun _ => .done)) }) ∧
          t = { s.taken m with mgr :=
            { s.mgr with restoreSet := s.mgr.restoreSet.filter (fun q => !(ports.contains q.val)) } })) ∧
    (Reaches s .C .clearPortFault e →
      ((s.port p).power.state ≠ .tripped →
        ∃ t, exec (.clearPortFault .C n) s = .next (t.reply .C e { result := .done }) ∧ SameBut (s.taken .C) t p ∧
          t.port p = { s.port p with marks := { (s.port p).marks with lockout := false } }) ∧
      ((s.port p).power.state = .tripped →
        ∃ t : State, SameBut (s.taken .C) t p ∧
          t.port p = { s.port p with
            power := { (s.port p).power with state := .off, lastOff := some .cleared }
            marks := { (s.port p).marks with lockout := false } } ∧
          exec (.clearPortFault .C n) s =
            .next ((t.notifyAll false (.powerEvent
              { port := some p, change := some (.tripped, .off), cause := some (.off .cleared), sample := none
                refusal := none, sweepQueued := none, openSuspect := none, restoreSet := none, notRestored := none
                committed := s.mgr.committed })).reply .C e { result := .done })))

/-! ## Break finding -/

/-- SWEEP: BAD_RANGE, PORT_POWERED, DONE for a port held already, and otherwise ACCEPTED with an entry in the queue, which an IDLE
engine takes at once; the override is listed as clamped whatever the result. At the discharge end the engine enters ACQUIRING with
the parameters of the entry and the live profile; each repetition adds its samples into the running sums, index by index. The
places of the clamped fields are the model's reading (log entry 36). That a command before its time changes nothing, and that it
may come at any time from then on, is the model's choice (log entries 3 and 4). When the k-th repetition may be taken is its
reading (log entry 23). -/
def Obligations.SweepsAreQueuedAndAcquired : Prop :=
  (∀ (s : State) (m : Master) (e : RequestEntry) (n : Nat) (av : Option Nat) (clamps : List (Nat × Nat)),
    Reaches s m .sweep e →
    clamps = av.elim [] (fun v => if v = reduceAveraging v then [] else [(1, reduceAveraging v)]) →
    (7 < n → exec (.sweep m n av) s = .next (s.answered m e { result := .badRange, clamped := clamps })) ∧
    (∀ p entry, portOf n = some p → entry = SweepEntry.mk p .request (some m) (av.map reduceAveraging) →
      ((s.port p).power.state.committed = true →
        exec (.sweep m n av) s = .next (s.answered m e { result := .portPowered, clamped := clamps })) ∧
      ((s.port p).power.state.committed = false → (s.port p).held = true →
        exec (.sweep m n av) s = .next (s.answered m e { result := .done, clamped := clamps })) ∧
      ((s.port p).power.state.committed = false → (s.port p).held = false →
        (s.engine.state ≠ .idle →
          ∃ t, exec (.sweep m n av) s = .next (t.reply m e { result := .accepted, clamped := clamps }) ∧
            SameBut { s.taken m with engine := t.engine } t p ∧
            t.engine = { s.engine with queue := s.engine.queue ++ [entry] } ∧
            t.port p = { s.port p with marks := { (s.port p).marks with sweepPending := true } }) ∧
        (s.engine.state = .idle → s.engine.queue = [] → s.now < (s.port p).power.deenergized + 100000 →
          ∃ t, exec (.sweep m n av) s = .next (t.reply m e { result := .accepted, clamped := clamps }) ∧
            SameBut { s.taken m with engine := t.engine } t p ∧
            t.engine = { s.engine with
              state := .dischargeWait, current := some entry
              dischargeEnd := some ((s.port p).power.deenergized + 100000) } ∧
            t.port p = { s.port p with marks := { (s.port p).marks with sweepPending := true } }) ∧
        (s.engine.state = .idle → s.engine.queue = [] → (s.port p).power.deenergized + 100000 ≤ s.now →
          ∃ t, exec (.sweep m n av) s = .next (t.reply m e { result := .accepted, clamped := clamps }) ∧
            SameBut { s.taken m with engine := t.engine } t p ∧ t.engine.state = .acquiring ∧
            t.engine.current = some entry ∧ t.engine.queue = [] ∧ t.engine.repetitions = 0 ∧
            t.port p = { s.port p with
              marks := { (s.port p).marks with sweepPending := false, testing := true }
              link := { (s.port p).link with state := .testing } })))) ∧
  (∀ (s : State) (e : SweepEntry), s.engine.current = some e →
    (∀ d, s.engine.state = .dischargeWait → s.engine.dischargeEnd = some d →
      (s.now < d → exec .dischargeEnd s = .next s) ∧
      (d ≤ s.now → ∃ t q, exec .dischargeEnd s = .next t ∧ SameBut { s with engine := t.engine } t e.port ∧
        t.port e.port = { s.port e.port with
          marks := { (s.port e.port).marks with sweepPending := false, testing := true }
          link := { (s.port e.port).link with state := .testing } } ∧
        q = SweepParams.mk (e.averaging.getD (reduceAveraging (s.port e.port).profile.averaging))
          (s.port e.port).profile.installedLength (s.port e.port).profile.velocity (s.port e.port).profile.offset
          (s.port e.port).profile.sweepThreshold (s.port e.port).profile.blindCount ∧
        t.engine = { s.engine with
          state := .acquiring, params := some q, buffer := List.replicate 1024 0, repetitions := 0
          acquisitionEnd := some (s.now + q.averaging * 2000) })) ∧
    (∀ d q samples, s.engine.state = .acquiring → s.engine.params = some q → s.engine.acquisitionEnd = some d →
      s.engine.repetitions < q.averaging → s.engine.buffer.length = 1024 → samples.length = 1024 →
      (s.now + (q.averaging - (s.engine.repetitions + 1)) * 2000 < d →
        exec (.acquisitionRepetition samples) s = .next s) ∧
      (d ≤ s.now + (q.averaging - (s.engine.repetitions + 1)) * 2000 →
        ∃ t, exec (.acquisitionRepetition samples) s = .next t ∧ t = { s with engine := t.engine } ∧
          t.engine = { s.engine with buffer := t.engine.buffer, repetitions := s.engine.repetitions + 1 } ∧
          t.engine.buffer.length = 1024 ∧
          ∀ i : Nat, i < 1024 → t.engine.buffer.getD i 0 = s.engine.buffer.getD i 0 + (samples.getD i 0).toInt)))

/-- At the acquisition end the record of the averaged trace joins the port's log, the link goes from TESTING to DOWN, the kind
decides LOCKOUT, SWEEP_DONE goes to every master, and the engine is free and takes the next entry. A sweep that a master asked
for, one whose kind locks out, one without auto-restore and one that ends under a LOW supply restore nothing; any other asks for
power: the port is admitted, or the refusal is reported, in a POWER_EVENT whose OPEN_SUSPECT mark is absent by the model's choice
(log entry 49). Before the last repetition nothing changes. That a command before its time changes nothing, and that it may come
at any time from then on, is the model's choice (log entries 3 and 4). That the end takes all repetitions is its reading (log
entry 23). -/
def Obligations.SweepEndsAreRecorded : Prop :=
  ∀ (s : State) (e : SweepEntry) (q : SweepParams) (d : Time), s.engine.state = .acquiring → s.engine.current = some e →
    s.engine.params = some q → s.engine.acquisitionEnd = some d →
    ((s.engine.repetitions ≠ q.averaging ∨ s.now < d) → exec .acquisitionEnd s = .next s) ∧
    (∀ (r : BreakRecord) (locks : Bool) (u : PortRec) (g : BreakEngine), s.engine.repetitions = q.averaging → d ≤ s.now →
      r = breakRecord s.now e.cause q (averagedTrace q.averaging s.engine.buffer) →
      locks = decide (r.kind = .short ∨ r.kind = .open ∨ r.kind = .cameraShort) →
      u = { s.port e.port with
        breakLog := (if 4 ≤ (s.port e.port).breakLog.length then (s.port e.port).breakLog.drop 1
          else (s.port e.port).breakLog) ++ [r]
        link := { (s.port e.port).link with state := .down, lastCause := some .sweepEnd }
        marks := { (s.port e.port).marks with testing := false, lockout := (s.port e.port).marks.lockout || locks } } →
      g = { s.engine with state := .idle, current := none, params := none, dischargeEnd := none, acquisitionEnd := none } →
      ((e.cause = .request ∨ locks = true ∨ (s.port e.port).profile.autoRestore = false ∨ s.mgr.supply = .low) →
        ∃ t, exec .acquisitionEnd s = .next t ∧ t = { s with ports := t.ports, engine := t.engine, masters := t.masters } ∧
          t.masters = (s.notifyAll locks (.sweepDone e.port e.requester r u.marks.lockout false)).masters ∧
          (s.engine.queue = [] →
            t.engine = g ∧ t.port e.port = u ∧ ∀ x : Port, x ≠ e.port → t.port x = s.port x) ∧
          (∀ e2 rest discharge, s.engine.queue = e2 :: rest → e2.port ≠ e.port →
            discharge = (s.port e2.port).power.deenergized + 100000 →
            t.port e.port = u ∧ (∀ x : Port, x ≠ e.port → x ≠ e2.port → t.port x = s.port x) ∧
            (s.now < discharge →
              t.port e2.port = s.port e2.port ∧
              t.engine = { g with
                queue := rest, state := .dischargeWait, current := some e2, dischargeEnd := some discharge }) ∧
            (∀ q2, discharge ≤ s.now →
              q2 = SweepParams.mk (e2.averaging.getD (reduceAveraging (s.port e2.port).profile.averaging))
                (s.port e2.port).profile.installedLength (s.port e2.port).profile.velocity (s.port e2.port).profile.offset
                (s.port e2.port).profile.sweepThreshold (s.port e2.port).profile.blindCount →
              t.port e2.port = { s.port e2.port with
                marks := { (s.port e2.port).marks with sweepPending := false, testing := true }
                link := { (s.port e2.port).link with state := .testing } } ∧
              t.engine = { g with
                queue := rest, state := .acquiring, current := some e2, params := some q2, dischargeEnd := some discharge
                buffer := List.replicate 1024 0, repetitions := 0
                acquisitionEnd := some (s.now + q2.averaging * 2000) }))) ∧
      (∀ sent, e.cause ≠ .request → locks = false → (s.port e.port).profile.autoRestore = true → s.mgr.supply = .normal →
        s.engine.queue = [] → (s.port e.port).marks.lockout = false → (s.port e.port).marks.sweepPending = false →
        (s.port e.port).power.state = .off → sent = s.notifyAll false (.sweepDone e.port e.requester r false true) →
        (s.mgr.committed + (s.port e.port).profile.allotment ≤ s.effectiveBudget →
          ∃ t, exec .acquisitionEnd s = .next t ∧ t.engine = g ∧ t.masters = sent.masters ∧
            (t.port e.port).power.allotment = some (s.port e.port).profile.allotment ∧
            ((t.port e.port).power.state = .queued ∨ (t.port e.port).power.state = .inrush) ∧
            (t.port e.port).breakLog = u.breakLog ∧ (t.port e.port).breakLog.getLast? = some r ∧
            (t.port e.port).marks = u.marks) ∧
        (s.effectiveBudget < s.mgr.committed + (s.port e.port).profile.allotment →
          ∃ t, exec .acquisitionEnd s = .next t ∧ SameBut { s with masters := t.masters, engine := g } t e.port ∧
            t.port e.port = u ∧
            t.masters = (sent.notifyAll false (.powerEvent
              { port := some e.port, change := none, cause := none, sample := none,
                refusal := some (.sweepRestore, .overBudget), sweepQueued := none, openSuspect := none, restoreSet := none,
                notRestored := none, committed := s.mgr.committed })).masters)))

/-- R55: the averaging of a sweep. -/
def Obligations.AveragingIsReducedToAPowerOfTwo : Prop :=
  (∀ v, reduceAveraging v ∈ [1, 2, 4, 8, 16, 32, 64]) ∧ reduceAveraging 0 = 1 ∧ (∀ v, 64 < v → reduceAveraging v = 64) ∧
  (∀ v, 1 ≤ v → v ≤ 64 → reduceAveraging v ≤ v ∧ v < 2 * reduceAveraging v) ∧
  (∀ k, k ≤ 6 → reduceAveraging (2 ^ k) = 2 ^ k) ∧
  reduceAveraging 24 = 16 ∧ reduceAveraging 48 = 32 ∧ reduceAveraging 3 = 2 ∧
  (∀ fields c clamps, parseProfile fields = some (c, clamps) → 1 ≤ c.averaging ∧ c.averaging ≤ 64) ∧
  (∀ (s : State) (m : Master) (e : RequestEntry) (n : Nat) (p : Port) (v : Nat), portOf n = some p → Reaches s m .sweep e →
    (s.port p).power.state.committed = false → (s.port p).held = false →
    ∃ t, exec (.sweep m n (some v)) s = .next t ∧
      ∃ x ∈ t.engine.current.toList ++ t.engine.queue, x.port = p ∧ x.averaging = some (reduceAveraging v)) ∧
  (∀ v f, (sweepParams (some v) f).averaging = v ∧ (sweepParams none f).averaging = reduceAveraging f.averaging) ∧
  (∀ now cause q trace, (breakRecord now cause q trace).averaging = q.averaging)

/-- R58 and R59: with a launch level of 64 or more in magnitude, the threshold is the larger of 8 and |L| P / 1000; the crossing
is the first index from the blind count on whose deviation reaches it; the peak is the largest deviation there; and with no
crossing the result is CLEAR at distance 0, whatever the installed length, and does not lock the port out; with one the
computation goes on to a position. -/
def Obligations.CrossingIsTheFirstIndexAtTheThreshold : Prop :=
  ∀ (now : Time) (cause : SweepCause) (q : SweepParams) (trace : List Int) (l : Int) (t : Nat), trace.length = 1024 →
    12 ≤ q.blind → q.blind ≤ 255 → 50 ≤ q.threshold → q.threshold ≤ 900 → (∀ x ∈ trace, -2048 ≤ x ∧ x ≤ 2047) →
    l = launchLevel trace → 64 ≤ l.natAbs → t = max 8 (l.natAbs * q.threshold / 1000) →
    3 ≤ l.natAbs * q.threshold / 1000 ∧ t ≤ 1843 ∧ crossThreshold (-2048) 900 = 1843 ∧
    (breakRecord now cause q trace).launch = l ∧ (breakRecord now cause q trace).threshold = some t ∧
    (∀ i, (breakRecord now cause q trace).crossing = some i ↔
      q.blind ≤ i ∧ i ≤ 1023 ∧ t ≤ (trace.getD i 0 - l).natAbs ∧
        ∀ j, q.blind ≤ j → j < i → (trace.getD j 0 - l).natAbs < t) ∧
    ((breakRecord now cause q trace).position.isSome = (breakRecord now cause q trace).crossing.isSome) ∧
    (∃ m, (breakRecord now cause q trace).peak = some m ∧
      (∀ j, q.blind ≤ j → j ≤ 1023 → (trace.getD j 0 - l).natAbs ≤ m) ∧
      (∃ j, q.blind ≤ j ∧ j ≤ 1023 ∧ (trace.getD j 0 - l).natAbs = m) ∧
      ((∀ j, q.blind ≤ j → j ≤ 1023 → (trace.getD j 0 - l).natAbs < t) →
        m < t ∧ (breakRecord now cause q trace).kind = .clear ∧ (breakRecord now cause q trace).distance = 0 ∧
        (breakRecord now cause q trace).crossing = none ∧ (breakRecord now cause q trace).position = none ∧
        BreakKind.clear.locksOut = false))

/-- R56, R57, R60 and R61: the averaged trace is each sum divided by N and the launch level the sum of a[4] to a[11] divided by 8, both
rounded down; with a crossing index i the position is (i - 1) × 16 + f, the fraction f given by the threshold and the deviations
before and at the crossing. Every break record's distance lies in 0..75 896 mm and its position in 176..16 367, and the near-end
short has neither. -/
def Obligations.BreakDistancesAreBounded : Prop :=
  (∀ (n : Nat) (sums : List Int), 0 < n →
    (averagedTrace n sums).length = sums.length ∧
    ∀ (i : Nat) (x a : Int), i < sums.length → x = sums.getD i 0 → a = (averagedTrace n sums).getD i 0 →
      n * a ≤ x ∧ x < n * (a + 1) ∧ (-2048 * n ≤ x → x ≤ 2047 * n → -2048 ≤ a ∧ a ≤ 2047)) ∧
  averagedTrace 16 [-37, 37] = [-3, 2] ∧
  (∀ (now : Time) (cause : SweepCause) (q : SweepParams) (trace : List Int) (r : BreakRecord), trace.length = 1024 →
    12 ≤ q.blind → q.blind ≤ 255 → q.velocity ≤ 990 → r = breakRecord now cause q trace →
    r.distance ≤ 75896 ∧ (∀ x, r.position = some x → 176 ≤ x ∧ x ≤ 16367) ∧
    (∀ x, r.position = some x → r.distance = x * q.velocity * 4684 / 1000000 - q.offset) ∧
    (r.position.isSome = r.crossing.isSome) ∧
    (∀ sum : Int, sum = ((List.range 8).map (fun j => trace.getD (4 + j) 0)).sum →
      r.launch = launchLevel trace ∧ 8 * r.launch ≤ sum ∧ sum < 8 * r.launch + 8) ∧
    (∀ (i t m f : Nat) (before d : Int), r.crossing = some i → r.threshold = some t →
      before = trace.getD (i - 1) 0 - r.launch → d = trace.getD i 0 - r.launch →
      m = (if (0 < before ∧ 0 < d) ∨ (before < 0 ∧ d < 0) then before.natAbs else 0) →
      f = (if t ≤ m then 0 else min 15 (16 * (t - m) / (d.natAbs - m))) →
      d ≠ 0 ∧ t ≤ d.natAbs ∧ (t ≤ m → i = q.blind) ∧ r.position = some ((i - 1) * 16 + f)) ∧
    ((launchLevel trace).natAbs < 64 →
      r.kind = .short ∧ r.distance = 0 ∧ r.crossing = none ∧ r.position = none ∧ r.threshold = none ∧ r.peak = none))

/-- R62, R63: the kind and LENGTH_DIFFERS of a result with a crossing. -/
def Obligations.KindsFollowTheInstalledLength : Prop :=
  (∀ (d : Nat), classify 0 d true = (.openUnplaced, false) ∧ classify 0 d false = (.short, false) ∧
    BreakKind.openUnplaced.locksOut = false ∧ BreakKind.short.locksOut = true) ∧
  (∀ (installed d tol : Nat), 0 < installed → tol = max 500 (installed / 20) →
    (d + tol < installed → classify installed d true = (.open, false) ∧ classify installed d false = (.short, false)) ∧
    (installed ≤ d + tol → d ≤ installed + tol →
      classify installed d true = (.cameraEnd, false) ∧ classify installed d false = (.cameraShort, false)) ∧
    (installed + tol < d →
      classify installed d true = (.cameraEnd, true) ∧ classify installed d false = (.cameraShort, true)) ∧
    (installed ≤ 500 → ¬ d + tol < installed) ∧ (75896 < installed + tol → d ≤ 75896 → ¬ installed + tol < d)) ∧
  (∀ (now : Time) (cause : SweepCause) (q : SweepParams) (trace : List Int) (i : Nat),
    (breakRecord now cause q trace).crossing = some i →
    ((breakRecord now cause q trace).kind, (breakRecord now cause q trace).lengthDiffers) =
      classify q.installed (breakRecord now cause q trace).distance
        (decide (launchLevel trace < trace.getD i 0)))


/-! ## Lens control -/

/-- A LENS_REPORT at an UP link updates the axes it names: the position, and an axis MOVING, reported settled within 8 counts of
its target, goes to IDLE. While an axis still moves, or where the report settles none, nothing else happens; when the last moving
axis has settled, the addressee gets a LENS_EVENT, and a run in SETTLING completes its step before it. That the run is told once,
after all the entries, is the model's choice (log entries 28 and 53). STOP_LENS takes every axis to IDLE and completes the step of
a run in SETTLING likewise. At its lens deadline a MOVING axis is STALLED, its target kept, and the addressee is told; a run in
SETTLING ends with LENS_STALLED. Before the deadline nothing changes. That a LENS_DEADLINE before its time changes nothing, and
that it may come at any time from then on, is the model's choice (log entries 3 and 4). -/
def Obligations.LensAxesSettleAndStall : Prop :=
  (∀ (s : State) (p : Port) (entries : List ReportEntry), (s.port p).link.state = .up → (s.port p).link.attempt = none →
    entries.length ≤ 3 → (entries.map ReportEntry.axis).Nodup → (∀ x ∈ entries, x.position ≤ 4095) →
    ∃ t : State, SameBut s t p ∧
      t.port p = { s.port p with
        link := { (s.port p).link with lastPacket := some s.now }
        lens := { (s.port p).lens with axes := (t.port p).lens.axes } } ∧
      (∀ x : Axis, (∀ n ∈ entries, n.axis ≠ x) → (t.port p).lens.axes.get x = (s.port p).lens.axes.get x) ∧
      (∀ n ∈ entries, (s.port p).lens.axes.get n.axis = none → (t.port p).lens.axes.get n.axis = none) ∧
      (∀ n ∈ entries, ∀ a, (s.port p).lens.axes.get n.axis = some a →
        ((a.motion = .moving ∧ n.settled = true ∧ ∃ g, a.target = some g ∧ n.position ≤ g + 8 ∧ g ≤ n.position + 8) →
          (t.port p).lens.axes.get n.axis =
            some { a with position := some n.position, motion := .idle, target := none, deadline := none }) ∧
        ((a.motion ≠ .moving ∨ n.settled = false ∨ ∀ g, a.target = some g → g + 8 < n.position ∨ n.position + 8 < g) →
          (t.port p).lens.axes.get n.axis = some { a with position := some n.position })) ∧
      (((∃ x b, (t.port p).lens.axes.get x = some b ∧ b.motion = .moving) ∨
          ∀ n ∈ entries, ∀ a, (s.port p).lens.axes.get n.axis = some a →
            a.motion ≠ .moving ∨ n.settled = false ∨ ∀ g, a.target = some g → g + 8 < n.position ∨ n.position + 8 < g) →
        exec (.lensReport p (s.port p).link.listen entries) s = .next t) ∧
      (∀ n ∈ entries, ∀ a g, (s.port p).lens.axes.get n.axis = some a → a.motion = .moving → n.settled = true →
        a.target = some g → n.position ≤ g + 8 → g ≤ n.position + 8 →
        (∀ x b, (t.port p).lens.axes.get x = some b → b.motion ≠ .moving) →
        ((s.port p).seq.inPhase .settling = false →
          exec (.lensReport p (s.port p).link.listen entries) s =
            .next (t.notifyOpt ((s.port p).lens.holder.or (s.port p).lens.mover) false
              (.lensEvent p .settled (t.port p).lens.standing (s.port p).lens.holder (s.port p).lens.implicit))) ∧
        (∀ st, (s.port p).seq.inPhase .settling = true → (s.port p).seq.currentStep = some st → st.chain = false →
          ∃ u, RunEnded t u p .normal ∧
            exec (.lensReport p (s.port p).link.listen entries) s =
              .next (u.notifyOpt ((u.port p).lens.holder.or (u.port p).lens.mover) false
                (.lensEvent p .settled (t.port p).lens.standing (u.port p).lens.holder (u.port p).lens.implicit))))) ∧
  (∀ (s : State) (m : Master) (e : RequestEntry) (n : Nat) (p : Port) (st : Step), portOf n = some p →
    Reaches s m .stopLens e → ((s.port p).lens.holder = none ∨ (s.port p).lens.holder = some m) →
    (s.port p).link.state = .up → (s.port p).waiting.length < 16 → (s.port p).seq.inPhase .settling = true →
    (s.port p).seq.currentStep = some st → st.chain = false →
    ∃ t, SameBut (s.taken m) t p ∧
      t.port p = { s.port p with
        waiting := (s.port p).waiting ++
          (if (s.port p).lens.axes = ⟨none, none, none⟩ then [] else [DownPacket.lensStop])
        lens := { (s.port p).lens with axes := (t.port p).lens.axes } } ∧
      (∀ x : Axis, (t.port p).lens.axes.get x = ((s.port p).lens.axes.get x).map
        (fun a => { a with target := none, motion := .idle, deadline := none })) ∧
      ((∃ x a, (s.port p).lens.axes.get x = some a ∧ a.motion ≠ .idle) →
        ∃ u, RunEnded t u p .normal ∧ exec (.stopLens m n) s = .next (u.reply m e { result := .done })) ∧
      ((∀ x a, (s.port p).lens.axes.get x = some a → a.motion = .idle) →
        exec (.stopLens m n) s = .next (t.reply m e { result := .done }))) ∧
  (∀ (s : State) (p : Port) (x : Axis) (a : AxisRec) (d : Time), (s.port p).lens.axes.get x = some a → a.deadline = some d →
    ((s.now < d ∨ a.motion ≠ .moving) → exec (.lensDeadline p x) s = .next s) ∧
    (a.motion = .moving → d ≤ s.now → (s.port p).seq.inPhase .settling = false →
      ∃ t, SameBut s t p ∧
        t.port p = { s.port p with lens := { (s.port p).lens with
          axes := (s.port p).lens.axes.set x (some { a with motion := .stalled, deadline := none }) } } ∧
        exec (.lensDeadline p x) s =
          .next (t.notifyOpt ((s.port p).lens.holder.or (s.port p).lens.mover) false
            (.lensEvent p (.stalled x) (t.port p).lens.standing (s.port p).lens.holder (s.port p).lens.implicit))) ∧
    (a.motion = .moving → d ≤ s.now → (s.port p).seq.inPhase .settling = true →
      ∃ t, exec (.lensDeadline p x) s = .next t ∧ (t.port p).seq.state = .ready ∧
        (t.port p).seq.ended = some (.lensStalled, (s.port p).seq.index.getD 0) ∧
        (t.port p).lens.axes.get x = some { a with motion := .stalled, deadline := none } ∧
        ∀ q : Port, q ≠ p → t.port q = s.port q))

/-- TAKE_LENS, GIVE_LENS and BREAK_HOLD, row by row. A hold broken under an active run ends the run with HOLD_LAPSED, and the
former holder gets an urgent HOLD_LAPSED. -/
def Obligations.LensHoldsAreTakenGivenAndBroken : Prop :=
  ∀ (s : State) (m : Master) (e : RequestEntry) (n : Nat) (p : Port), portOf n = some p →
    (Reaches s m .takeLens e →
      (∀ h, (s.port p).lens.holder = some h → h ≠ m → exec (.takeLens m n) s =
        .next (s.answered m e { result := .lensHeld, body := .hold (some h) (s.port p).lens.implicit })) ∧
      (((s.port p).lens.holder = none ∨ (s.port p).lens.holder = some m) →
        ∃ t, exec (.takeLens m n) s = .next (t.reply m e { result := .done, body := .hold (some m) false }) ∧
          SameBut (s.taken m) t p ∧
          t.port p = { s.port p with lens := { (s.port p).lens with holder := some m, implicit := false } })) ∧
    (Reaches s m .giveLens e →
      ((s.port p).lens.holder ≠ some m → exec (.giveLens m n) s = .next (s.answered m e { result := .notHolder })) ∧
      ((s.port p).lens.holder = some m → (s.port p).seq.active = true → (s.port p).seq.starter = some m →
        exec (.giveLens m n) s = .next (s.answered m e { result := .sequenceActive })) ∧
      ((s.port p).lens.holder = some m → ((s.port p).seq.active = false ∨ (s.port p).seq.starter ≠ some m) →
        ∃ t, exec (.giveLens m n) s = .next (t.reply m e { result := .done }) ∧ SameBut (s.taken m) t p ∧
          t.port p = { s.port p with lens := { (s.port p).lens with holder := none, implicit := false } })) ∧
    (Reaches s .C .breakHold e →
      ((s.port p).lens.holder = none → exec (.breakHold .C n) s = .next (s.answered .C e { result := .done })) ∧
      (∀ h, (s.port p).lens.holder = some h →
        ((s.port p).seq.active = false →
          ∃ t, SameBut (s.taken .C) t p ∧
            t.port p = { s.port p with lens := { (s.port p).lens with holder := none, implicit := false } } ∧
            exec (.breakHold .C n) s = .next ((t.notify h true (.holdLapsed p .breakHold false)).reply .C e { result := .done })) ∧
        ((s.port p).seq.active = true →
          ∃ t, SameBut { s with store := t.store, masters := t.masters } t p ∧
            exec (.breakHold .C n) s = .next ((t.notify h true (.holdLapsed p .breakHold true)).reply .C e { result := .done }) ∧
            t.port p = { s.port p with
              lens := { (s.port p).lens with holder := none, implicit := false }
              seq := { (s.port p).seq with
                state := .ready, ended := some (.holdLapsed, (s.port p).seq.index.getD 0), index := none, phase := none,
                deadline := none, bound := none, reservedPages := 0, reservedRecords := 0, period := 0,
                cadence := none } })))

/-- MOVE_LENS, RECALL_PRESET and STOP_LENS, row by row. A move hands a LENS_GOTO for the axes the camera has, sets their targets
and deadlines (travel time, allowance and 500 ms) and takes a STALLED axis it does not move to IDLE; a stop hands LENS_STOP and
takes every axis to IDLE at its position. The places of the clamped fields are the model's reading (log entry 36), the order of the
ignored axes its choice (log entry 61). -/
def Obligations.LensesMoveAndStop : Prop :=
  ∀ (s : State) (m : Master) (e : RequestEntry) (n : Nat) (p : Port), portOf n = some p →
    (∀ (c : Instr) (k : RequestKind) (goto : PerAxis (Option Nat)) (allowance : Nat) (clamps : List (Nat × Nat)),
      Reaches s m k e →
      ((k = .moveLens ∧ ∃ (targets : PerAxis (Option Int)) (settle : Option Nat),
          c = .moveLens m n targets settle ∧ allowance = settle.getD 20 ∧ allowance ≤ 2000 ∧
          (∀ x : Axis, goto.get x = (targets.get x).map (fun v => if v < 0 then 0 else if 4095 < v then 4095 else v.toNat)) ∧
          clamps = targetEntries targets) ∨
        (k = .recallPreset ∧ clamps = [] ∧ ∃ (i : Fin 64) (r : Preset), c = .recallPreset m n i.val ∧
          s.presets.writing (.preset i) = false ∧ s.presets.preset i = some r ∧ (r.port = none ∨ r.port = some p) ∧
          goto = r.targets ∧ allowance = r.settle)) →
      (∀ h, (s.port p).lens.holder = some h → h ≠ m → exec c s = .next (s.answered m e { result := .lensHeld })) ∧
      (((s.port p).lens.holder = none ∨ (s.port p).lens.holder = some m) → (s.port p).link.state ≠ .up →
        exec c s = .next (s.answered m e { result := .cameraUnavailable })) ∧
      (((s.port p).lens.holder = none ∨ (s.port p).lens.holder = some m) → (s.port p).link.state = .up →
        (s.port p).waiting.length < 16 →
        ∃ t moved, exec c s = .next (t.reply m e
            { result := .done, clamped := clamps, body := .ignored ([Axis.focus, .iris, .zoom].filter
              (fun x => ((s.port p).lens.axes.get x).isNone && (goto.get x).isSome)) }) ∧
          SameBut (s.taken m) t p ∧
          (∀ x : Axis, PerAxis.get moved x = if ((s.port p).lens.axes.get x).isSome then goto.get x else none) ∧
          ((∀ x : Axis, PerAxis.get moved x = none) → t.port p = s.port p) ∧
          ((∃ (x : Axis) (v : Nat), PerAxis.get moved x = some v) →
            t.port p = { s.port p with
              waiting := (s.port p).waiting ++ [.lensGoto moved]
              lens := { (s.port p).lens with mover := some m, axes := (t.port p).lens.axes } } ∧
            ∀ (x : Axis) (a : AxisRec), (s.port p).lens.axes.get x = some a →
              (PerAxis.get moved x = none → a.motion ≠ .stalled → (t.port p).lens.axes.get x = some a) ∧
              (PerAxis.get moved x = none → a.motion = .stalled →
                (t.port p).lens.axes.get x = some { a with target := none, motion := .idle, deadline := none }) ∧
              (∀ v dist, PerAxis.get moved x = some v → 0 < a.speed →
                dist = (a.position.elim 4095 (fun q => max q v - min q v)) →
                (t.port p).lens.axes.get x = some { a with
                  target := some v, motion := .moving
                  deadline := some (s.now + ((dist + a.speed - 1) / a.speed + allowance + 500) * 1000) })))) ∧
    (∀ targets settle, Reaches s m .moveLens e → 2000 < Option.getD settle 20 →
      exec (.moveLens m n targets settle) s = .next (s.answered m e { result := .badRange })) ∧
    (∀ i, Reaches s m .recallPreset e → 63 < i →
      exec (.recallPreset m n i) s = .next (s.answered m e { result := .badRange })) ∧
    (∀ i : Fin 64, Reaches s m .recallPreset e →
      (s.presets.writing (.preset i) = true →
        exec (.recallPreset m n i.val) s = .next (s.answered m e { result := .storeBusy })) ∧
      (s.presets.writing (.preset i) = false → s.presets.preset i = none →
        exec (.recallPreset m n i.val) s = .next (s.answered m e { result := .noSuch })) ∧
      (∀ r q, s.presets.writing (.preset i) = false → s.presets.preset i = some r → r.port = some q → q ≠ p →
        exec (.recallPreset m n i.val) s = .next (s.answered m e { result := .badRange }))) ∧
    (Reaches s m .stopLens e →
      (∀ h, (s.port p).lens.holder = some h → h ≠ m →
        exec (.stopLens m n) s = .next (s.answered m e { result := .lensHeld })) ∧
      (((s.port p).lens.holder = none ∨ (s.port p).lens.holder = some m) → (s.port p).link.state ≠ .up →
        exec (.stopLens m n) s = .next (s.answered m e { result := .cameraUnavailable })) ∧
      (((s.port p).lens.holder = none ∨ (s.port p).lens.holder = some m) → (s.port p).link.state = .up →
        (s.port p).seq.inPhase .settling = false → (s.port p).waiting.length < 16 →
        ∃ t, exec (.stopLens m n) s = .next (t.reply m e { result := .done }) ∧ SameBut (s.taken m) t p ∧
          t.port p = { s.port p with
            waiting := (s.port p).waiting ++
              (if (s.port p).lens.axes = ⟨none, none, none⟩ then [] else [DownPacket.lensStop])
            lens := { (s.port p).lens with axes := (t.port p).lens.axes } } ∧
          ∀ x : Axis, (t.port p).lens.axes.get x = ((s.port p).lens.axes.get x).map
            (fun a => { a with target := none, motion := .idle, deadline := none })))

/-! ## Frame intake -/

/-- LENS_REPORT, FRAME_OPEN, LINE and FRAME_CLOSE reach their block only while the link is UP; otherwise they are stray. At an
IDLE intake a LINE and a FRAME_CLOSE are stray too, and in TRAINING and RETRAINING the four count toward the clean run, as an IDLE
does, and are stray. A LINE at a DISCARDING intake, damaged or not, is nothing but activity, or, where discard counts are kept,
stray below the next index, ignored from the shape's lines on, and counted between. A LINE at a FILLING intake: below the next
index it is stray, from the capacity on the frame is TRUNCATED, with both buffers full it is OVERRUN; otherwise it is stored in a
buffer, fitted to the width, the lines skipped before it reading as zeros and counted missing, and no other byte of the DRAM
changes, whether the frame has the pages or draws them. The pages it needs are drawn from the head of the free list: from the step reservation for a bound frame, else from the
unreserved pages; where these are short the oldest unpinned READY frame is reclaimed, its readers told, and without a victim the
frame is cut off, the line lost with every later one. That the window count stays at 4 294 967 295 is the model's choice (log
entry 59). -/
def Obligations.LinesAreStoredOrStray : Prop :=
  (∀ (s : State) (p : Port) (c : Instr) (rate : Rate),
    ((∃ l, c = .lensReport p rate l) ∨ (∃ f w n, c = .frameOpen p rate f w n) ∨ (∃ k l, c = .line p rate k l) ∨
      (∃ n, c = .frameClose p rate n)) →
    (((s.port p).link.state = .down ∨ (s.port p).link.state = .testing ∨ rate ≠ (s.port p).link.listen) →
      exec c s = .next s) ∧
    (rate = (s.port p).link.listen → (s.port p).link.attempt = none → (s.port p).counters.stray < 4294967295 →
      ((s.port p).link.state = .awaitHello ∨ (s.port p).link.state = .lost ∨
        ((s.port p).link.state = .up ∧ (s.port p).intake.state = .idle ∧
          ((∃ k l, c = .line p rate k l) ∨ (∃ n, c = .frameClose p rate n)))) →
      ∃ t, exec c s = .next t ∧ SameBut s t p ∧
        t.port p = { s.port p with
          link := { (s.port p).link with lastPacket := some s.now }
          counters := { (s.port p).counters with stray := (s.port p).counters.stray + 1 } }) ∧
    (rate = (s.port p).link.listen → ((s.port p).link.state = .training ∨ (s.port p).link.state = .retraining) →
      ∃ t : State, exec (.idle p rate) s = .next t ∧
        exec c s =
          .next (t.updCounters p (fun n => { n with stray := if n.stray < 4294967295 then n.stray + 1 else n.stray })))) ∧
  (∀ (s : State) (p : Port) (k : Nat) (payload : List Byte) (c : Instr) (bad : Bool) (r : PortRec),
    (s.port p).link.state = .up → (s.port p).link.attempt = none → (s.port p).intake.state = .discarding →
    ((c = .line p (s.port p).link.listen k payload ∧ bad = decide ((s.port p).intake.declaredWidth ≠ some payload.length) ∧
        r = { s.port p with
          link := { (s.port p).link with lastPacket := some s.now }
          intake := { (s.port p).intake with lastActivity := some s.now } }) ∨
      (c = .checkFailedPacket p (s.port p).link.listen (some (k, payload)) ∧ bad = true ∧
        r = { s.port p with
          link := { (s.port p).link with
            lastPacket := some s.now
            window := (s.port p).link.window.map
              (fun w => { w with count := if w.count < 4294967295 then w.count + 1 else w.count }) }
          counters := { (s.port p).counters with
            checkFailed := if (s.port p).counters.checkFailed < 4294967295 then (s.port p).counters.checkFailed + 1
              else (s.port p).counters.checkFailed }
          intake := { (s.port p).intake with lastActivity := some s.now } })) →
    ((s.port p).intake.counts = none → ∃ t, exec c s = .next t ∧ SameBut s t p ∧ t.port p = r) ∧
    (∀ n next lines, (s.port p).intake.counts = some n → next = (s.port p).intake.highest.elim 0 (fun h => h + 1) →
      (s.port p).intake.lines = some lines →
      ∃ t, exec c s = .next t ∧ SameBut s t p ∧
        (k < next → t.port p = { r with
          counters := { r.counters with
            stray := if r.counters.stray < 4294967295 then r.counters.stray + 1 else r.counters.stray } }) ∧
        (next ≤ k → lines ≤ k → t.port p = r) ∧
        (next ≤ k → k < lines → t.port p = { r with
          intake := { r.intake with
            highest := some k
            counts := some ⟨n.received + 1, n.missing + (k - next), if bad = true then n.damaged + 1 else n.damaged⟩ } }))) ∧
  (∀ (s : State) (p : Port) (k id next cap w : Nat) (payload : List Byte) (f : FrameRec), (s.port p).link.state = .up →
    (s.port p).link.attempt = none → (s.port p).intake.state = .filling → (s.port p).intake.openFrame = some id →
    (s.port p).intake.cutOff = false → next = (s.port p).intake.highest.elim 0 (fun h => h + 1) →
    (s.port p).intake.capacity = some cap → (s.port p).intake.width = some w → s.frame? id = some f → f.width = w → 0 < w →
    (k < next →
      ∃ t, exec (.line p (s.port p).link.listen k payload) s = .next t ∧ SameBut s t p ∧
        t.port p = { s.port p with
          link := { (s.port p).link with lastPacket := some s.now }
          counters := { (s.port p).counters with
            stray := if (s.port p).counters.stray < 4294967295 then (s.port p).counters.stray + 1
              else (s.port p).counters.stray }
          intake := { (s.port p).intake with lastActivity := some s.now } }) ∧
    (∀ g, ((next ≤ k ∧ cap ≤ k ∧ g = { f with tags := { f.tags with truncated := true } }) ∨
        (next ≤ k ∧ k < cap ∧ 2 ≤ (s.port p).intake.buffers.length ∧
          g = { f with tags := { f.tags with overrun := true } })) →
      ∃ t, exec (.line p (s.port p).link.listen k payload) s = .next t ∧ SameBut { s with store := t.store } t p ∧
        t.store = { s.store with frames := t.store.frames } ∧ t.frame? id = some g ∧
        (∀ x, x ≠ id → t.frame? x = s.frame? x) ∧
        t.port p = { s.port p with
          link := { (s.port p).link with lastPacket := some s.now }
          intake := { (s.port p).intake with lastActivity := some s.now } }) ∧
    (next ≤ k → k < cap → (s.port p).intake.buffers.length < 2 → (k + 1) * w ≤ f.pages.length * 65536 →
      ∃ t g, exec (.line p (s.port p).link.listen k payload) s = .next t ∧ SameBut { s with store := t.store } t p ∧
        StoresLine s t p f g next k payload (decide ((s.port p).intake.declaredWidth ≠ some payload.length)) ∧
        g.pages = f.pages ∧ g.stepReserved = f.stepReserved ∧ (∀ x, x ≠ id → t.frame? x = s.frame? x) ∧
        t.store = { s.store with frames := t.store.frames, dram := t.store.dram })) ∧
  (∀ (s : State) (p : Port) (k id next cap w short : Nat) (payload : List Byte) (f : FrameRec), (s.port p).link.state = .up →
    (s.port p).link.attempt = none → (s.port p).intake.state = .filling → (s.port p).intake.openFrame = some id →
    s.frame? id = some f → f.width = w → (s.port p).intake.width = some w →
    ((s.port p).intake.cutOff = true →
      ∃ t, exec (.line p (s.port p).link.listen k payload) s = .next t ∧ SameBut s t p ∧
        t.port p = { s.port p with
          link := { (s.port p).link with lastPacket := some s.now }
          intake := { (s.port p).intake with lastActivity := some s.now } }) ∧
    ((s.port p).intake.cutOff = false → next = (s.port p).intake.highest.elim 0 (fun h => h + 1) → next ≤ k →
      (s.port p).intake.capacity = some cap → k < cap → (s.port p).intake.buffers.length < 2 →
      short = ((k + 1) * w + 65535) / 65536 - f.pages.length → 0 < short →
      (((s.port p).intake.bound = none ∧ short + s.store.reservedPages ≤ s.store.freeList.length) ∨
          (s.port p).intake.bound.isSome = true →
        ∃ t g r, exec (.line p (s.port p).link.listen k payload) s = .next t ∧ SameBut { s with store := t.store } t p ∧
          StoresLine s t p f g next k payload (decide ((s.port p).intake.declaredWidth ≠ some payload.length)) ∧
          r = (if (s.port p).intake.bound = none then 0 else min short f.stepReserved) ∧
          g.pages = f.pages ++ s.store.freeList.take short ∧ g.stepReserved = f.stepReserved - r ∧
          (∀ x, x ≠ id → t.frame? x = s.frame? x) ∧
          t.store = { s.store with
            frames := t.store.frames, dram := t.store.dram
            freeList := s.store.freeList.drop short, reservedPages := s.store.reservedPages - r }) ∧
      ((s.port p).intake.bound = none → s.store.freeList.length < short + s.store.reservedPages →
        (NoVictim s.store →
          ∃ t, exec (.line p (s.port p).link.listen k payload) s = .next t ∧ SameBut { s with store := t.store } t p ∧
            t.port p = { s.port p with
              link := { (s.port p).link with lastPacket := some s.now }
              intake := { (s.port p).intake with lastActivity := some s.now, cutOff := true } } ∧
            t.frame? id = some { f with tags := { f.tags with cutOff := true, isPartial := true } } ∧
            (∀ x, x ≠ id → t.frame? x = s.frame? x) ∧
            t.store = { s.store with frames := t.store.frames }) ∧
        (∀ v, OldestUnpinned s.store v → v.id ≠ id →
          short + s.store.reservedPages ≤ s.store.freeList.length + v.pages.length →
          ∃ t g, exec (.line p (s.port p).link.listen k payload) s = .next t ∧
            SameBut { s with store := t.store, masters := t.masters } t p ∧ t.masters = (s.toldReclaimed v).masters ∧
            StoresLine s t p f g next k payload (decide ((s.port p).intake.declaredWidth ≠ some payload.length)) ∧
            g.pages = f.pages ++ (s.store.freeList ++ v.pages).take short ∧ g.stepReserved = f.stepReserved ∧
            t.frame? v.id = none ∧ (∀ x, x ≠ id → x ≠ v.id → t.frame? x = s.frame? x) ∧
            t.store = { s.store with
              frames := t.store.frames, dram := t.store.dram
              freeList := (s.store.freeList ++ v.pages).drop short, readers := t.store.readers } ∧
            (∀ a : Analysis, t.store.readers.get a = { s.store.readers.get a with
              ready := (s.store.readers.get a).ready.filter (fun i => !(i == v.id)) })))))

/-- An unsequenced FRAME_OPEN at an IDLE intake: a shape outside its limits is refused, a frame without readers is discarded, and
any other opens a record under an id no frame holds, with the origin that was pending; without an unreserved record the oldest
unpinned READY frame is reclaimed for it, and without a victim it is refused. A FRAME_OPEN that finds a TRIGGER step in OPEN_WAIT
is bound to it: it opens the step's frame from the run's reservation, with the step's shape and the starter among its readers, or
is discarded for the step, for want of readers or for its width. At an intake that is not IDLE the previous frame is ended first:
a FILLING one is finalized PARTIAL and MISSING_CLOSE and handed over, a discarding is ended, and either is reported to the step it
is bound to; then the FRAME_OPEN does what it does on the state this leaves, which is the model's reading of the order (log entry
24). That the highest index and the declared width are absent at the end of a discarding is its choice (log entry 50). That the
LENGTH_MISMATCH of a frame of the wrong width carries the lengths 0 and the step's lines is the model's choice (log entry 26). The
handover counter is its own (log entry 42). -/
def Obligations.FramesOpen : Prop :=
  (∀ (s : State) (p : Port) (no w n : Nat), (s.port p).link.state = .up → (s.port p).link.attempt = none →
    (s.port p).intake.state = .idle → (s.port p).seq.inPhase .openWait = false →
    (∀ cause, ((cause = .refused ∧ (w < 16 ∨ 32768 < w ∨ w % 16 ≠ 0 ∨ n = 0 ∨ 16384 < n)) ∨
        (cause = .noReaders ∧ 16 ≤ w ∧ w ≤ 32768 ∧ w % 16 = 0 ∧ 1 ≤ n ∧ n ≤ 16384 ∧
          (s.port p).subscribers = ⟨false, false⟩) ∨
        (cause = .refused ∧ 16 ≤ w ∧ w ≤ 32768 ∧ w % 16 = 0 ∧ 1 ≤ n ∧ n ≤ 16384 ∧
          (s.port p).subscribers ≠ ⟨false, false⟩ ∧ 512 ≤ s.store.reservedRecords + s.store.frames.length ∧
          NoVictim s.store)) →
      ∃ t, exec (.frameOpen p (s.port p).link.listen no w n) s = .next t ∧ SameBut s t p ∧
        (t.port p).intake.state = .discarding ∧ (t.port p).intake.cause = some cause ∧ (t.port p).intake.counts = none ∧
        (t.port p).intake.bound = none ∧ (t.port p).intake.openFrame = none ∧ (t.port p).intake.pendingOrigin = none ∧
        (t.port p).intake.lastActivity = some s.now ∧
        ((t.port p).counters.framesRefused = if cause = .refused then
          (if (s.port p).counters.framesRefused < 4294967295 then (s.port p).counters.framesRefused + 1
            else (s.port p).counters.framesRefused) else (s.port p).counters.framesRefused)) ∧
    (16 ≤ w → w ≤ 32768 → w % 16 = 0 → 1 ≤ n → n ≤ 16384 → (s.port p).subscribers ≠ ⟨false, false⟩ →
      s.store.reservedRecords + s.store.frames.length < 512 →
      ∃ t f, exec (.frameOpen p (s.port p).link.listen no w n) s = .next t ∧
        SameBut { s with store := t.store } t p ∧
        t.store = { s.store with frames := s.store.frames ++ [f], nextId := t.store.nextId } ∧
        (∀ g ∈ s.store.frames, g.id ≠ f.id) ∧ ((∀ g ∈ s.store.frames, g.id ≠ s.store.nextId) → f.id = s.store.nextId) ∧
        f.port = p ∧ f.state = .filling ∧ f.openTime = s.now ∧ f.width = w ∧ f.lines = n ∧ f.stored = 0 ∧ f.cameraNo = no ∧
        f.cameraLines = n ∧ f.missing = 0 ∧ f.damaged = 0 ∧ f.pages = [] ∧ f.readers = (s.port p).subscribers ∧
        f.pins = ⟨0, 0⟩ ∧ f.closeTime = none ∧ f.readyTime = none ∧
        f.origin = (match (s.port p).intake.pendingOrigin with
          | some (.triggerLine l) => .triggerLine l
          | some (.softFire m) => .softFire m
          | none => .freeRun) ∧
        (∀ x : Axis, f.snapshot.get x = ((s.port p).lens.axes.get x).bind AxisRec.position) ∧
        t.port p = { s.port p with
          link := { (s.port p).link with lastPacket := some s.now }
          intake := { (s.port p).intake with
            state := .filling, openFrame := some f.id, bound := none, width := some w, declaredWidth := some w,
            lines := some n, capacity := some (min n (67108864 / w)), highest := none, cutOff := false, cause := none,
            counts := none, lastActivity := some s.now, pendingOrigin := none } }) ∧
    (∀ v, 16 ≤ w → w ≤ 32768 → w % 16 = 0 → 1 ≤ n → n ≤ 16384 → (s.port p).subscribers ≠ ⟨false, false⟩ →
      512 ≤ s.store.reservedRecords + s.store.frames.length → OldestUnpinned s.store v →
      ∃ t f, exec (.frameOpen p (s.port p).link.listen no w n) s = .next t ∧
        SameBut { s with store := t.store, masters := t.masters } t p ∧ t.masters = (s.toldReclaimed v).masters ∧
        t.store.frames = s.store.frames.filter (fun x => !(x.id == v.id)) ++ [f] ∧
        t.store.freeList = s.store.freeList ++ v.pages ∧ f.port = p ∧ f.state = .filling ∧ f.width = w ∧ f.lines = n ∧
        f.pages = [] ∧ f.readers = (s.port p).subscribers ∧ (t.port p).intake.state = .filling ∧
        (t.port p).intake.openFrame = some f.id)) ∧
  (∀ (s : State) (p : Port) (no w n lines width i : Nat) (st : Step) (ex cl : Option Nat) (m : Master) (rd : PerAnalysis Bool),
    (s.port p).link.state = .up → (s.port p).link.attempt = none → (s.port p).intake.state = .idle →
    (s.port p).seq.inPhase .openWait = true → (s.port p).seq.currentStep = some st → (s.port p).seq.index = some i →
    st.kind = .trigger ex lines width cl → (s.port p).seq.starter = some m →
    rd = ⟨(s.port p).subscribers.a || decide (m = .A), (s.port p).subscribers.b || decide (m = .B)⟩ →
    (∀ cause counts,
      ((cause = .widthMismatch ∧ w ≠ width ∧ st.lenient = false ∧ counts = none) ∨
        (cause = .discardStep ∧ (w = width ∨ st.lenient = true) ∧ st.discard = true ∧ counts = some ⟨0, 0, 0⟩) ∨
        (cause = .noReaders ∧ (w = width ∨ st.lenient = true) ∧ st.discard = false ∧ rd = ⟨false, false⟩ ∧
          counts = some ⟨0, 0, 0⟩)) →
      ∃ t, exec (.frameOpen p (s.port p).link.listen no w n) s = .next t ∧ SameBut s t p ∧
        (t.port p).intake.state = .discarding ∧ (t.port p).intake.cause = some cause ∧ (t.port p).intake.counts = counts ∧
        (t.port p).intake.bound = some ⟨i, st.lenient⟩ ∧ (t.port p).intake.openFrame = none ∧
        (t.port p).seq = { (s.port p).seq with phase := some .frameWait, bound := some .discarded }) ∧
    ((w = width ∨ st.lenient = true) → st.discard = false → rd ≠ ⟨false, false⟩ → s.store.frames.length < 512 →
      ∃ t f, exec (.frameOpen p (s.port p).link.listen no w n) s = .next t ∧ SameBut { s with store := t.store } t p ∧
        t.store = { s.store with
          frames := s.store.frames ++ [f], nextId := t.store.nextId, reservedRecords := s.store.reservedRecords - 1 } ∧
        (∀ g ∈ s.store.frames, g.id ≠ f.id) ∧ f.origin = .sequence m i ∧ f.width = width ∧ f.lines = lines ∧
        f.readers = rd ∧ f.state = .filling ∧ f.stored = 0 ∧ f.pages = [] ∧ f.cameraNo = no ∧ f.cameraLines = n ∧
        f.stepReserved = (lines * width + 65535) / 65536 ∧ f.tags.shapeFitted = decide (w ≠ width) ∧
        (t.port p).intake.state = .filling ∧ (t.port p).intake.openFrame = some f.id ∧
        (t.port p).intake.bound = some ⟨i, st.lenient⟩ ∧
        (t.port p).intake.capacity = some (min lines (67108864 / width)) ∧
        (t.port p).seq = { (s.port p).seq with
          phase := some .frameWait, bound := some (.frame f.id)
          reservedPages := (s.port p).seq.reservedPages - (lines * width + 65535) / 65536
          reservedRecords := (s.port p).seq.reservedRecords - 1 })) ∧
  (∀ (s : State) (p : Port) (no w n : Nat), (s.port p).link.state = .up → (s.port p).link.attempt = none →
    ((s.port p).intake.state = .discarding → (s.port p).intake.bound = none →
      ∃ u, OpensOver s u p no w n ∧ SameBut s u p ∧ (u.port p).seq = (s.port p).seq) ∧
    (∀ (i lines : Nat) (st : Step) (lenient : Bool) (m : Master), (s.port p).intake.state = .discarding →
      (s.port p).intake.bound = some ⟨i, lenient⟩ → (s.port p).intake.lines = some lines →
      (s.port p).seq.inPhase .frameWait = true → (s.port p).seq.bound = some .discarded → (s.port p).seq.index = some i →
      (s.port p).seq.currentStep = some st → st.chain = false → (s.port p).seq.starter = some m →
      ∀ told status lengths,
        ((∃ x, ((s.port p).intake.cause = some .discardStep ∨ (s.port p).intake.cause = some .noReaders) ∧
            (s.port p).intake.counts = some x ∧ status = .normal ∧ lengths = none ∧
            told = s.notify m false (.frameSummary p x)) ∨
          ((s.port p).intake.cause = some .widthMismatch ∧ status = .lengthMismatch ∧ lengths = some (0, lines) ∧
            told = s)) →
        ∃ u, OpensOver s u p no w n ∧ (u.port p).seq.state = .ready ∧ (u.port p).seq.ended = some (status, i) ∧
          u.masters = (told.notify m (decide (status ≠ .normal))
            (.sequenceEvent p
              (.ended
                { status := status, holdFreed := (s.port p).lens.implicit && decide ((s.port p).lens.holder = some m)
                  frame := none, lengths := lengths, axis := none, preset := none })
              (s.port p).seq.runs (some i))).masters) ∧
    (∀ (id : Nat) (f g : FrameRec) (a : Analysis) (entry : ListEntry) (told : State), (s.port p).intake.state = .filling →
      (s.port p).intake.openFrame = some id → (s.port p).intake.buffers = [] → s.frame? id = some f → 0 < f.stored →
      f.readers = (⟨false, false⟩ : PerAnalysis Bool).set a true →
      (s.store.readers.get a).ready.length < (s.store.readers.get a).holdLimit →
      g = { f with
        state := .ready, closeTime := some s.now, readyTime := some s.now, stepReserved := 0
        handover := some ((s.store.handovers + 1) % 18446744073709551616)
        tags := { f.tags with isPartial := true, missingClose := true } } →
      entry =
        { id := f.id, port := f.port, origin := f.origin, cameraNo := f.cameraNo, cameraLines := f.cameraLines
          openTime := f.openTime, readyTime := s.now, width := f.width, lines := f.lines, stored := f.stored
          missing := f.missing, damaged := f.damaged, firstDamaged := f.firstDamaged, tags := g.tags
          snapshot := f.snapshot, readers := f.readers, pins := f.pins.get a } →
      told = s.notify a.master false (.frameReady entry ((s.store.readers.get a).ready.length + 1)) →
      ((s.port p).intake.bound = none → f.stepReserved = 0 →
        ∃ u, OpensOver s u p no w n ∧ u.frame? id = some g ∧
          (u.store.readers.get a).ready = (s.store.readers.get a).ready ++ [id] ∧ (u.port p).seq = (s.port p).seq ∧
          u.store.freeList = s.store.freeList ∧ u.store.dram = s.store.dram ∧ u.masters = told.masters) ∧
      (∀ (i : Nat) (st : Step) (lenient : Bool) (m : Master) (status : EndStatus),
        (s.port p).intake.bound = some ⟨i, lenient⟩ → (s.port p).seq.inPhase .frameWait = true →
        (s.port p).seq.bound = some (.frame id) → (s.port p).seq.index = some i →
        (s.port p).seq.currentStep = some st → st.lenient = lenient → st.chain = false → (s.port p).seq.starter = some m →
        status = (if lenient = true ∨ (f.stored = f.lines ∧ f.tags.truncated = false) then .normal else .lengthMismatch) →
        ∃ u, OpensOver s u p no w n ∧ u.frame? id = some g ∧
          (u.store.readers.get a).ready = (s.store.readers.get a).ready ++ [id] ∧ (u.port p).seq.state = .ready ∧
          (u.port p).seq.ended = some (status, i) ∧
          u.store.reservedPages = s.store.reservedPages - f.stepReserved - (s.port p).seq.reservedPages ∧
          u.masters = (told.notify m (decide (status ≠ .normal))
            (.sequenceEvent p
              (.ended
                { status := status, holdFreed := (s.port p).lens.implicit && decide ((s.port p).lens.holder = some m)
                  frame := if status = .normal then none else some f.id
                  lengths := if status = .normal then none else some (f.stored, f.lines), axis := none, preset := none })
              (s.port p).seq.runs (some i))).masters)) ∧
    (∀ (id : Nat) (f : FrameRec), (s.port p).intake.state = .filling → (s.port p).intake.openFrame = some id →
      (s.port p).intake.bound = none → (s.port p).intake.buffers = [] → s.frame? id = some f → f.stored = 0 →
      (∀ x ∈ s.store.frames, x.id = id → x = f) →
      ∃ u, OpensOver s u p no w n ∧ u.frame? id = none ∧ u.masters = s.masters ∧ ∀ q ∈ f.pages, q ∈ u.store.freeList))

/-- The end of an unsequenced frame, by a FRAME_CLOSE with the count of lines stored or by 250 ms without activity: with lines
stored and readers below their hold limits it is READY, stamped and at the tail of each reader's list, with FRAME_READY (that A's
shows B, judged after it, is the model's choice, log entry 51); with none stored it is freed. At a full list a reader gives the
frame up under KEEP_OLDEST, and under KEEP_NEWEST where it has pinned the whole list; under KEEP_NEWEST the oldest unpinned frame
of the list is released for it otherwise. Each is told by FRAME_DROPPED, and a frame without readers is freed. The intake is IDLE.
A discarded frame's end leaves the intake IDLE. That an INACTIVITY_TIMEOUT before its time changes nothing, and that it may come
at any time from then on, is the model's choice (log entries 3 and 4). The handover counter is its own (log entry 42). -/
def Obligations.FramesReachTheirReaders : Prop :=
  ∀ (s : State) (p : Port) (c : Instr),
    (∀ d, (s.port p).intake.lastActivity = some d → s.now < d + 250000 → exec (.inactivityTimeout p) s = .next s) ∧
    (∀ cc (late : Bool),
      ((late = false ∧ c = .frameClose p (s.port p).link.listen cc ∧ (s.port p).link.state = .up ∧
          (s.port p).link.attempt = none) ∨
        (late = true ∧ c = .inactivityTimeout p ∧
          ∃ d, (s.port p).intake.lastActivity = some d ∧ d + 250000 ≤ s.now)) →
      ((s.port p).intake.state = .discarding → (s.port p).intake.bound = none →
        ∃ t, exec c s = .next t ∧ SameBut s t p ∧ (t.port p).intake.state = .idle ∧ (t.port p).intake.bound = none ∧
          (t.port p).intake.buffers = (s.port p).intake.buffers) ∧
      (∀ (id : Nat) (f g : FrameRec) (entry : Analysis → ListEntry), (s.port p).intake.state = .filling →
        (s.port p).intake.openFrame = some id → (s.port p).intake.bound = none → (s.port p).intake.buffers = [] →
        s.frame? id = some f → f.stepReserved = 0 →
        (late = false → cc = (s.port p).intake.highest.elim 0 (fun h => h + 1) ∧
          ∃ cap, (s.port p).intake.capacity = some cap ∧ cc ≤ cap) →
        g = { f with
          state := .ready, closeTime := some s.now, readyTime := some s.now
          handover := some ((s.store.handovers + 1) % 18446744073709551616)
          tags := { f.tags with isPartial := f.tags.isPartial || late, missingClose := f.tags.missingClose || late } } →
        (∀ a, entry a =
          { id := f.id, port := f.port, origin := f.origin, cameraNo := f.cameraNo, cameraLines := f.cameraLines
            openTime := f.openTime, readyTime := s.now, width := f.width, lines := f.lines, stored := f.stored
            missing := f.missing, damaged := f.damaged, firstDamaged := f.firstDamaged, tags := g.tags
            snapshot := f.snapshot, readers := f.readers, pins := f.pins.get a }) →
        (0 < f.stored → ∀ a : Analysis, f.readers = (⟨false, false⟩ : PerAnalysis Bool).set a true →
          (s.store.readers.get a).ready.length < (s.store.readers.get a).holdLimit →
          ∃ t, exec c s = .next t ∧ SameBut { s with store := t.store, masters := t.masters } t p ∧
            (t.port p).intake.state = .idle ∧ (t.port p).intake.openFrame = none ∧
            (t.store.readers.get a).ready = (s.store.readers.get a).ready ++ [id] ∧
            t.store.dram = s.store.dram ∧ t.store.freeList = s.store.freeList ∧ t.frame? id = some g ∧
            t.masters = (s.notify a.master false
              (.frameReady (entry a) ((s.store.readers.get a).ready.length + 1))).masters) ∧
        (0 < f.stored → f.readers = ⟨true, true⟩ →
          (∀ a, (s.store.readers.get a).ready.length < (s.store.readers.get a).holdLimit) →
          ∃ t, exec c s = .next t ∧ SameBut { s with store := t.store, masters := t.masters } t p ∧
            (t.port p).intake.state = .idle ∧ t.store.freeList = s.store.freeList ∧ t.frame? id = some g ∧
            (∀ a, (t.store.readers.get a).ready = (s.store.readers.get a).ready ++ [id]) ∧
            t.masters = ((s.notify .A false
              (.frameReady (entry .A) ((s.store.readers.get .A).ready.length + 1))).notify .B false
              (.frameReady (entry .B) ((s.store.readers.get .B).ready.length + 1))).masters) ∧
        (∀ a : Analysis, 0 < f.stored → f.readers = (⟨false, false⟩ : PerAnalysis Bool).set a true →
          (s.store.readers.get a).holdLimit ≤ (s.store.readers.get a).ready.length →
          ((s.store.readers.get a).policy = .keepOldest ∨
            ∀ i ∈ (s.store.readers.get a).ready, ∃ x, s.frame? i = some x ∧ 0 < x.pins.get a) →
          s.store.frames.filter (fun x => x.id == id) = [f] →
          ∃ t, exec c s = .next t ∧ SameBut { s with store := t.store, masters := t.masters } t p ∧
            (t.port p).intake.state = .idle ∧ t.frame? id = none ∧ t.store.freeList = s.store.freeList ++ f.pages ∧
            (t.store.readers.get a).ready = (s.store.readers.get a).ready.filter (fun i => !(i == id)) ∧
            t.masters = (s.notify a.master false (.frameDropped id f.port .holdLimit false)).masters) ∧
        (∀ (a : Analysis) (o : Nat) (rest : List Nat) (x : FrameRec), 0 < f.stored →
          f.readers = (⟨false, false⟩ : PerAnalysis Bool).set a true →
          (s.store.readers.get a).ready = o :: rest → (o :: rest).length = (s.store.readers.get a).holdLimit →
          (s.store.readers.get a).policy = .keepNewest → o ∉ rest → o ≠ id → s.frame? o = some x → x.pins.get a = 0 →
          ∃ t, exec c s = .next t ∧ SameBut { s with store := t.store, masters := t.masters } t p ∧
            (t.port p).intake.state = .idle ∧ t.frame? id = some g ∧
            (t.store.readers.get a).ready = rest ++ [id] ∧
            (∀ b, b ≠ a → x.readers.get b = false → t.frame? o = none) ∧
            (∀ b, b ≠ a → x.readers.get b = true →
              t.frame? o = some { x with readers := x.readers.set a false } ∧ t.store.freeList = s.store.freeList) ∧
            t.masters = ((s.notify a.master false (.frameDropped o x.port .holdLimit true)).notify a.master false
              (.frameReady (entry a) (s.store.readers.get a).holdLimit)).masters) ∧
        (f.stored = 0 → (∀ g ∈ s.store.frames, g.id = id → g = f) →
          ∃ t, exec c s = .next t ∧ SameBut { s with store := t.store } t p ∧ (t.port p).intake.state = .idle ∧
            t.frame? id = none ∧ t.store.dram = s.store.dram ∧ ∀ q ∈ f.pages, q ∈ t.store.freeList)))

/-- The arbiter's write serves the first port after the one served last that has a line waiting: the oldest line is written to its
place in its frame's pages, its buffer is emptied, and no other byte of the DRAM changes. The arbiter's fetch read: never while a
line waits in an intake; otherwise one line of the active fetch of the master whose turn it is goes to that master's link as a
data message, and the last line is followed by a COMPLETE fetch-end message, the frame unpinned. That one grant reads, hands over
and ends the fetch in one event, and that a master with a fetch message waiting asks for no read, is the model's reading (log
entry 31). That a grant with nothing to serve changes nothing is the model's choice (log entry 3). -/
def Obligations.ArbiterMovesLines : Prop :=
  (∀ s : State,
    ((∀ p : Port, (s.port p).intake.buffers = []) → exec .dramWriteGrant s = .next s) ∧
    (∀ (p : Port) (b : BufferedLine) (rest : List BufferedLine) (f : FrameRec), (s.port p).intake.buffers = b :: rest →
      (∀ q : Port, (q.val + 7 - s.store.lastPort.val) % 8 < (p.val + 7 - s.store.lastPort.val) % 8 →
        (s.port q).intake.buffers = []) →
      s.frame? b.frame = some f → f.pages.Nodup → s.store.dram.wf = true →
      ∃ t, exec .dramWriteGrant s = .next t ∧ SameBut { s with store := t.store } t p ∧
        t.store = { s.store with dram := t.store.dram, lastPort := p } ∧
        t.port p = { s.port p with intake := { (s.port p).intake with buffers := rest } } ∧
        (∀ i a, i < b.bytes.length → frameAddr f.pages (b.index * f.width + i) = some a →
          t.store.dram.read a = b.bytes.getD i 0) ∧
        (∀ a, (∀ i, i < b.bytes.length → frameAddr f.pages (b.index * f.width + i) ≠ some a) →
          t.store.dram.read a = s.store.dram.read a))) ∧
  (∀ s : State,
    ((∃ p : Port, (s.port p).intake.buffers ≠ []) → exec .fetchReadGrant s = .next s) ∧
    (∀ (a o : Analysis) (f : Fetch) (rest : List Fetch) (g : FrameRec), (∀ p : Port, (s.port p).intake.buffers = []) →
      o ≠ a → (s.master a.master).attached = true → (s.master a.master).sending = none →
      (s.master a.master).fetchOut = [] → (s.store.readers.get a).fetches = f :: rest → f.sent < f.count →
      ((s.store.readers.get o).fetches = [] ∨ (s.master o.master).attached = false ∨
        (s.master o.master).sending ≠ none ∨ (s.master o.master).fetchOut ≠ [] ∨ s.store.lastFetch = o) →
      s.frame? f.frame = some g →
      ∃ t bytes, exec .fetchReadGrant s = .next t ∧ SameButMasters { s with store := t.store } t ∧
        bytes.length = g.width ∧
        (∀ i x, i < g.width → frameAddr g.pages (f.next * g.width + i) = some x → bytes.getD i 0 = s.store.dram.read x) ∧
        t.store.lastFetch = a ∧ t.store.dram = s.store.dram ∧ t.store.freeList = s.store.freeList ∧
        (∀ m : Master, m ≠ a.master → t.master m = s.master m) ∧
        (t.master a.master).requests = (s.master a.master).requests ∧
        (t.master a.master).replies = (s.master a.master).replies ∧
        (t.master a.master).notices = (s.master a.master).notices ∧
        (f.sent + 1 < f.count →
          (t.master a.master).fetchOut = [.data f.tag f.frame f.next bytes] ∧ t.store.frames = s.store.frames ∧
          (t.store.readers.get a).fetches = { f with next := f.next + 1, sent := f.sent + 1 } :: rest) ∧
        (f.sent + 1 = f.count →
          (t.master a.master).fetchOut = [.data f.tag f.frame f.next bytes, .fetchEnd f.tag f.frame true f.count] ∧
          (t.store.readers.get a).fetches = rest ∧
          t.frame? f.frame = some { g with pins := g.pins.set a (g.pins.get a - 1) })))


/-! ## Frame store -/

/-- SUBSCRIBE, UNSUBSCRIBE and SET_FRAME_POLICY of an analysis master. -/
def Obligations.SubscriptionsAndPoliciesAreSet : Prop :=
  ∀ (s : State) (a : Analysis) (e : RequestEntry),
    (∀ (n : Nat) (p : Port) (v : Bool) (c : Instr) (k : RequestKind), portOf n = some p →
      ((v = true ∧ c = .subscribe a.master n ∧ k = .subscribe) ∨
        (v = false ∧ c = .unsubscribe a.master n ∧ k = .unsubscribe)) →
      Reaches s a.master k e →
      ∃ t : State, exec c s = .next (t.reply a.master e { result := .done }) ∧ SameBut (s.taken a.master) t p ∧
        t.port p = { s.port p with subscribers := (s.port p).subscribers.set a v }) ∧
    (Reaches s a.master .setFramePolicy e →
      (∀ h pol, (pol = none ∨ pol = some 0 ∨ pol = some 1) → (h = 0 ∨ 512 < h) →
        exec (.setFramePolicy a.master (some h) pol) s = .next (s.answered a.master e { result := .badRange })) ∧
      (∀ h pol r, (∀ v, h = some v → 1 ≤ v ∧ v ≤ 512) → (pol = none ∨ pol = some 0 ∨ pol = some 1) →
        r = { s.store.readers.get a with
          holdLimit := h.getD (s.store.readers.get a).holdLimit
          policy := if pol = some 0 then .keepNewest else if pol = some 1 then .keepOldest
            else (s.store.readers.get a).policy } →
        ∃ t : State, exec (.setFramePolicy a.master h pol) s = .next (t.reply a.master e
            { result := .done, body := .policy r.holdLimit r.policy r.ready.length }) ∧
          t = { s.taken a.master with store := { s.store with readers := s.store.readers.set a r } }))

/-- FETCH, row by row: a frame that is not on the caller's list, a first line past its stored lines, a full queue; an accepted
fetch joins the queue with its clamped count and pins the frame. RELEASE: a frame that is not on the caller's list is refused;
otherwise the caller's fetches of it end CANCELLED in queue order, it leaves the list and its readers, and without another
reader it is freed. The places of the clamped fields are the model's reading (log entry 36). -/
def Obligations.FetchesAreQueuedAndFramesReleased : Prop :=
  (∀ (s : State) (a : Analysis) (e : RequestEntry) (frame first count : Nat), Reaches s a.master .fetch e →
    ((s.frame? frame = none ∨ frame ∉ (s.store.readers.get a).ready) →
      exec (.fetch a.master frame first count) s = .next (s.answered a.master e { result := .notReader })) ∧
    (∀ f, s.frame? frame = some f → frame ∈ (s.store.readers.get a).ready →
      (f.stored ≤ first →
        exec (.fetch a.master frame first count) s = .next (s.answered a.master e { result := .badRange })) ∧
      (∀ n clamps, first < f.stored → n = (if count = 0 then f.stored - first else min count (f.stored - first)) →
        clamps = (if count = 0 ∨ count = n then [] else [(2, n)]) →
        (4 ≤ (s.store.readers.get a).fetches.length →
          exec (.fetch a.master frame first count) s =
            .next (s.answered a.master e { result := .fetchQueueFull, clamped := clamps })) ∧
        ((s.store.readers.get a).fetches.length < 4 →
          ∃ t : State, exec (.fetch a.master frame first count) s = .next (t.reply a.master e
              { result := .accepted, clamped := clamps, body := .lineCount n }) ∧
            t = { s.taken a.master with store := t.store } ∧
            t.store = { s.store with
              frames := t.store.frames
              readers := s.store.readers.set a { s.store.readers.get a with
                fetches := (s.store.readers.get a).fetches ++ [⟨e.tag, frame, first, n, first, 0⟩] } } ∧
            t.frame? frame = some { f with pins := f.pins.set a (f.pins.get a + 1) } ∧
            ∀ id, id ≠ frame → t.frame? id = s.frame? id)))) ∧
  (∀ (s : State) (a : Analysis) (e : RequestEntry) (frame : Nat), Reaches s a.master .release e →
    (frame ∉ (s.store.readers.get a).ready →
      exec (.release a.master frame) s = .next (s.answered a.master e { result := .notReader })) ∧
    (∀ f, s.frame? frame = some f → frame ∈ (s.store.readers.get a).ready →
      ∃ t : State, exec (.release a.master frame) s = .next (t.reply a.master e { result := .done }) ∧
        SameButMasters { s with store := t.store } t ∧ t.store.dram = s.store.dram ∧
        (t.store.readers.get a).ready = (s.store.readers.get a).ready.filter (fun i => !(i == frame)) ∧
        (t.store.readers.get a).fetches = (s.store.readers.get a).fetches.filter (fun x => !(x.frame == frame)) ∧
        (t.master a.master).fetchOut = (s.master a.master).fetchOut ++
          ((s.store.readers.get a).fetches.filter (fun x => x.frame == frame)).map
            (fun x => .fetchEnd x.tag frame false x.sent) ∧
        (∀ m : Master, m ≠ a.master → t.master m = s.master m) ∧
        (∀ o : Analysis, o ≠ a → f.readers.get o = true →
          t.store.freeList = s.store.freeList ∧
          t.frame? frame = some { f with
            readers := f.readers.set a false
            pins := f.pins.set a (f.pins.get a -
              ((s.store.readers.get a).fetches.filter (fun x => x.frame == frame)).length) }) ∧
        (∀ o : Analysis, o ≠ a → f.readers.get o = false →
          t.frame? frame = none ∧ (∀ q ∈ f.pages, q ∈ t.store.freeList) ∧
          frame ∉ (t.store.readers.get o).ready)))

/-! ## Preset store -/

/-- The five write requests that pass their own checks: STORE_BUSY, STORE_FAULT, PRESET_LOCKED and LOCKED_DOWN in this order, and
otherwise ACCEPTED, the record's mark invalid and the engine WRITING. The fields of a profile and of the cell record are those
given, each clamped to its range, a rate code above 2 to the highest rate, and the clamped ones listed by their places in the order
of the fields, which is the model's reading (log entry 36); that a route mask above 255 is clamped to 255 is the model's choice
(log entry 37). -/
def Obligations.StoreWritesStart : Prop :=
  (∀ (r : RawProfile) (f : Profile) (clamps : List (Nat × Nat)), parseProfile r = some (f, clamps) ↔
    ∃ il v o al iw ht rl dt st bc av ps sw ar,
      r = ⟨some il, some v, some o, some al, some iw, some ht, some rl, some dt, some st, some bc, some av, some ps, some sw,
        some ar⟩ ∧
      f = { installedLength := min 100000 il, velocity := max 500 (min 990 v), offset := min 2000 o
            allotment := max 50 (min 1500 al), inrushWindow := max 10 (min 250 iw), helloTimeout := max 500 (min 10000 ht)
            rateLimit := if rl = 0 then .r1250 else if rl = 1 then .r2500 else .r5000
            degradeThreshold := max 1 (min 1000 dt), sweepThreshold := max 50 (min 900 st)
            blindCount := max 12 (min 255 bc), averaging := max 1 (min 64 av), powerAtStart := ps, autoSweep := sw
            autoRestore := ar } ∧
      clamps = ([(1, il, min 100000 il), (2, v, max 500 (min 990 v)), (3, o, min 2000 o), (4, al, max 50 (min 1500 al)),
        (5, iw, max 10 (min 250 iw)), (6, ht, max 500 (min 10000 ht)), (7, rl, min 2 rl), (8, dt, max 1 (min 1000 dt)),
        (9, st, max 50 (min 900 st)), (10, bc, max 12 (min 255 bc)), (11, av, max 1 (min 64 av))].filterMap
          (fun x => if x.2.1 = x.2.2 then none else some (x.1, x.2.2)))) ∧
  (∀ (r : RawCell) (f : Cell) (clamps : List (Nat × Nat)), parseCell r = some (f, clamps) ↔
    ∃ b g c0 c1 c2 c3, r.budget = some b ∧ r.stagger = some g ∧ f.budget = min 12000 b ∧ f.stagger = min 1000 g ∧
      LineGiven 2 r.line0 (f.lines.get 0) c0 ∧ LineGiven 7 r.line1 (f.lines.get 1) c1 ∧
      LineGiven 12 r.line2 (f.lines.get 2) c2 ∧ LineGiven 17 r.line3 (f.lines.get 3) c3 ∧
      clamps = (if b ≤ 12000 then [] else [(0, 12000)]) ++ (if g ≤ 1000 then [] else [(1, 1000)]) ++ c0 ++ c1 ++ c2 ++ c3) ∧
  ∀ (s : State) (m : Master) (e : RequestEntry) (c : Instr) (k : RequestKind) (kind : WriteKind) (record : RecordName)
    (content : NewContent) (clamps : List (Nat × Nat)), Reaches s m k e →
    ((∃ l f i port, c = .writePreset m l ∧ k = .writePreset ∧ kind = .writePreset ∧ parsePreset l = some f ∧
        presetNo f.number = some i ∧ f.settle ≤ 2000 ∧ e.fields = l ∧
        ((f.port = 255 ∧ port = none) ∨ ∃ q : Port, f.port = q.val ∧ port = some q) ∧ record = .preset i ∧
        content = .preset (some
          { port := port, name := f.name, targets := f.targets.map (Option.map (min 4095)), settle := f.settle,
            locked := false }) ∧
        clamps = ([(3, f.targets.focus), (4, f.targets.iris), (5, f.targets.zoom)].filterMap
          (fun x => x.2.bind (fun v => if v ≤ 4095 then none else some (x.1, 4095))))) ∨
      (∃ i : Fin 64, c = .erasePreset m i.val ∧ k = .erasePreset ∧ kind = .erasePreset ∧ record = .preset i ∧
        content = .preset none ∧ clamps = []) ∨
      (∃ (p : Port) (r : RawProfile) (f : Profile), c = .writeProfile m p.val r ∧ k = .writeProfile ∧
        kind = .writeProfile ∧ parseProfile r = some (f, clamps) ∧ record = .profile p ∧ content = .profile f) ∨
      (∃ (r : RawCell) (f : Cell), c = .writeCell m r ∧ k = .writeCell ∧ kind = .writeCell ∧
        parseCell r = some (f, clamps) ∧ s.mgr.committed ≤ f.budget ∧ record = .cell ∧ content = .cell f) ∨
      (∃ (i : Fin 64) (action : Nat) (r : Preset), c = .lockPreset m i.val action ∧ k = .lockPreset ∧
        kind = .lockPreset ∧ action ≤ 1 ∧ s.presets.preset i = some r ∧ r.locked = decide (action = 1) ∧
        record = .preset i ∧ content = .preset (some { r with locked := decide (action = 0) }) ∧ clamps = [])) →
    (s.presets.write ≠ none → exec c s = .next (s.answered m e { result := .storeBusy, clamped := clamps })) ∧
    (s.presets.write = none → s.presets.fault = true →
      exec c s = .next (s.answered m e { result := .storeFault, clamped := clamps })) ∧
    (∀ i r, s.presets.write = none → s.presets.fault = false → (kind = .writePreset ∨ kind = .erasePreset) →
      record = .preset i → s.presets.preset i = some r → r.locked = true →
      exec c s = .next (s.answered m e { result := .presetLocked, clamped := clamps })) ∧
    (s.presets.write = none → s.presets.fault = false → s.presets.lockDown = true →
      (kind = .writeProfile ∨ kind = .writeCell ∨ kind = .lockPreset) →
      exec c s = .next (s.answered m e { result := .lockedDown, clamped := clamps })) ∧
    (s.presets.write = none → s.presets.fault = false →
      ((kind = .writeProfile ∨ kind = .writeCell ∨ kind = .lockPreset) → s.presets.lockDown = false) →
      ((kind = .writePreset ∨ kind = .erasePreset) →
        ∀ i r, record = .preset i → s.presets.preset i = some r → r.locked = false) →
      ∃ t : State, exec c s = .next (t.reply m e { result := .accepted, clamped := clamps }) ∧
        t = { s.taken m with presets := t.presets } ∧
        t.presets.write = some ⟨record, kind, m, content, s.now⟩ ∧ t.presets.fault = false ∧
        t.presets.lockDown = s.presets.lockDown ∧ t.presets.loadReport = s.presets.loadReport ∧
        (∀ i : Fin 64, t.presets.presets.get i =
          if record = .preset i then { s.presets.presets.get i with valid := false } else s.presets.presets.get i) ∧
        (∀ p : Port, t.presets.profiles.get p =
          if record = .profile p then { s.presets.profiles.get p with valid := false } else s.presets.profiles.get p) ∧
        t.presets.cell = if record = .cell then { s.presets.cell with valid := false } else s.presets.cell)

/-- A completed write whose read-back matches makes the record valid with its new content and replaces the live values of a
profile or the cell; one that does not match leaves the record invalid and sets FAULT. STORE_DONE goes to the writer. A run that
waits for the preset in STORE_WAIT then reads it again: it makes the move and its step completes, or the run ends
PRESET_MISSING. The remaining rows of the store: preset numbers and fields out of range, with the clamped fields listed,
OVER_COMMITTED, LOCK_PRESET on an EMPTY preset or one whose flag stands already, LOCK_DOWN and CLEAR_STORE_ERROR. The places of
the clamped fields are the model's reading (log entry 36), the content under the mark after a FAILED write its choice (log entry
62). -/
def Obligations.StoreWritesCompleteAndLocksHold : Prop :=
  (∀ (s : State) (w : Write), s.presets.write = some w → s.mgr.startQueue = [] →
    (∀ p : Port, (s.port p).seq.inPhase .storeWait = false) →
    (∃ t : State, exec (.storeWriteComplete false) s = .next (t.notify w.writer false (.storeDone w.record w.kind false true)) ∧
      t = { s with presets := { s.presets with write := none, fault := true } }) ∧
    (∀ i x, w.record = .preset i → w.content = .preset x →
      ∃ t : State, exec (.storeWriteComplete true) s =
          .next (t.notify w.writer false (.storeDone w.record w.kind true s.presets.fault)) ∧
        t = { s with presets := { s.presets with write := none, presets := t.presets.presets } } ∧
        t.presets.presets.get i = ⟨true, x⟩ ∧ ∀ j, j ≠ i → t.presets.presets.get j = s.presets.presets.get j) ∧
    (∀ p x, w.record = .profile p → w.content = .profile x →
      ∃ t : State, exec (.storeWriteComplete true) s =
          .next (t.notify w.writer false (.storeDone w.record w.kind true s.presets.fault)) ∧
        SameBut { s with presets := t.presets } t p ∧ t.port p = { s.port p with profile := x } ∧
        t.presets = { s.presets with write := none, profiles := t.presets.profiles } ∧
        t.presets.profiles.get p = ⟨true, x⟩ ∧ ∀ q, q ≠ p → t.presets.profiles.get q = s.presets.profiles.get q) ∧
    (∀ x, w.record = .cell → w.content = .cell x →
      ∃ t : State, exec (.storeWriteComplete true) s =
          .next (t.notify w.writer false (.storeDone w.record w.kind true s.presets.fault)) ∧
        t = { s with
          presets := { s.presets with write := none, cell := ⟨true, x⟩ }
          mgr := { s.mgr with budget := x.budget, stagger := x.stagger }, lines := t.lines } ∧
        ∀ l : LineNo, t.lines.get l = { s.lines.get l with settings := x.lines.get l })) ∧
  (∀ (s : State) (w : Write) (i : Fin 64) (x : Option Preset) (ok : Bool) (p : Port) (st : Step) (allowance : Option Nat)
      (targets : PerAxis (Option Nat)), s.presets.write = some w → w.record = .preset i → w.content = .preset x →
    (s.presets.presets.get i).valid = false → (∀ q : Port, q ≠ p → (s.port q).seq.inPhase .storeWait = false) →
    (s.port p).seq.inPhase .storeWait = true → (s.port p).seq.currentStep = some st →
    st.kind = .lens (some i.val) targets allowance → st.chain = false → (s.port p).link.state = .up →
    (s.port p).waiting.length < 16 →
    ∃ done : State,
      done = { s with
        presets := { s.presets with
          write := none, fault := s.presets.fault || !ok
          presets := if ok = true then s.presets.presets.set i ⟨true, x⟩ else s.presets.presets }
        masters := (s.notify w.writer false (.storeDone w.record w.kind ok (s.presets.fault || !ok))).masters } ∧
      (∀ c, ok = true → x = some c → (c.port = none ∨ c.port = some p) →
        ∃ u t, Moves done u p c.targets (allowance.getD c.settle) (s.port p).seq.starter ∧ RunEnded u t p .normal ∧
          exec (.storeWriteComplete ok) s = .next t) ∧
      ((ok = false ∨ x = none ∨ ∃ c q, x = some c ∧ c.port = some q ∧ q ≠ p) →
        ∃ t, RunEnded done t p .presetMissing ∧ exec (.storeWriteComplete ok) s = .next t)) ∧
  (∀ (s : State) (m : Master) (e : RequestEntry),
    (∀ l f, Reaches s m .writePreset e → e.fields = l → parsePreset l = some f →
      (63 < f.number ∨ (7 < f.port ∧ f.port ≠ 255) ∨ 2000 < f.settle) →
      exec (.writePreset m l) s = .next (s.answered m e
        { result := .badRange
          clamped := [(3, f.targets.focus), (4, f.targets.iris), (5, f.targets.zoom)].filterMap
            (fun y => y.2.bind (fun v => if v ≤ 4095 then none else some (y.1, 4095))) })) ∧
    (∀ n r f clamps, Reaches s m .writeProfile e → parseProfile r = some (f, clamps) → 7 < n →
      exec (.writeProfile m n r) s = .next (s.answered m e { result := .badRange, clamped := clamps })) ∧
    (∀ n, 63 < n →
      (Reaches s m .erasePreset e → exec (.erasePreset m n) s = .next (s.answered m e { result := .badRange })) ∧
      (∀ action, Reaches s m .lockPreset e → action ≤ 1 →
        exec (.lockPreset m n action) s = .next (s.answered m e { result := .badRange }))) ∧
    (∀ r f clamps, Reaches s m .writeCell e → parseCell r = some (f, clamps) → f.budget < s.mgr.committed →
      s.presets.write = none → s.presets.fault = false → s.presets.lockDown = false →
      exec (.writeCell m r) s = .next (s.answered m e { result := .overCommitted, clamped := clamps })) ∧
    (∀ (i : Fin 64) (action : Nat), Reaches s m .lockPreset e → action ≤ 1 → s.presets.write = none →
      s.presets.fault = false → s.presets.lockDown = false →
      (s.presets.preset i = none → exec (.lockPreset m i.val action) s = .next (s.answered m e { result := .noSuch })) ∧
      (∀ r, s.presets.preset i = some r → r.locked = decide (action = 0) →
        exec (.lockPreset m i.val action) s = .next (s.answered m e { result := .done }))) ∧
    (Reaches s m .lockDown e →
      (s.presets.lockDown = true → exec (.lockDown m) s = .next (s.answered m e { result := .done })) ∧
      (∀ w, s.presets.lockDown = false → s.presets.write = some w →
        (w.kind = .writeProfile ∨ w.kind = .writeCell ∨ w.kind = .lockPreset) →
        exec (.lockDown m) s = .next (s.answered m e { result := .storeBusy })) ∧
      (s.presets.lockDown = false →
        (∀ w, s.presets.write = some w → w.kind = .writePreset ∨ w.kind = .erasePreset) →
        exec (.lockDown m) s =
          .next (({ s.taken m with presets := { s.presets with lockDown := true } } : State).reply m e
            { result := .done }))) ∧
    (Reaches s m .clearStoreError e →
      exec (.clearStoreError m) s =
        .next (({ s.taken m with presets := { s.presets with fault := false } } : State).reply m e { result := .done })))


/-! ## Capture sequences -/

/-- LOAD_SEQUENCE, row by row: the port, an active context, the first failing step and its reason, and otherwise the list, its
page and record counts and the caller as owner, every run figure cleared. A list passes exactly when it has 1 to 16 steps and every
step its flags and its parameters within the bounds of its kind. One that fails is reported with index 0 and COUNT for its length,
else with the first step that has a fault and the first of its faults in the order CHAIN, FLAG, RANGE, SIZE, LENS_SOURCE. -/
def Obligations.SequencesLoad : Prop :=
  (∀ (s : State) (m : Master) (e : RequestEntry) (body : List Byte) (n : Nat) (l : List Step),
    Reaches s m .loadSequence e → e.fields = body → parseLoad body = some (n, l) →
    (7 < n → exec (.loadSequence m body) s = .next (s.answered m e { result := .badRange })) ∧
    (∀ p, portOf n = some p →
      ((s.port p).seq.active = true →
        exec (.loadSequence m body) s = .next (s.answered m e { result := .sequenceActive })) ∧
      (∀ i why, (s.port p).seq.active = false → loadFailure l = some (i, why) →
        exec (.loadSequence m body) s =
          .next (s.answered m e { result := .sequenceInvalid, body := .invalid i why })) ∧
      (∀ pages records, (s.port p).seq.active = false → loadFailure l = none →
        pages = (l.map (fun st => match st.kind with
          | .trigger _ lines width _ => if st.discard = true then 0 else (lines * width + 65535) / 65536
          | _ => 0)).sum →
        records = (l.filter (fun st => st.kind.isTrigger && !st.discard)).length →
        ∃ t : State, exec (.loadSequence m body) s =
            .next (t.reply m e { result := .done, body := .loaded pages records }) ∧
          SameBut (s.taken m) t p ∧
          t.port p = { s.port p with seq := { (s.port p).seq with
            state := .ready, owner := some m, steps := some l, pageCount := pages, recordCount := records, starter := none,
            ended := none, tookHold := false, runs := 0, overruns := 0, skips := 0, lastEdge := none, period := 0,
            cadence := none } }))) ∧
  (∀ l : List Step, loadFailure l = none ↔
    (1 ≤ l.length ∧ l.length ≤ 16 ∧ ∀ i st, l[i]? = some st →
      (st.chain = true ↔ i + 1 < l.length) ∧ (st.lenient = true ∨ st.discard = true → st.kind.isTrigger = true) ∧
      match st.kind with
      | .lens preset targets allowance =>
        (∀ v, preset = some v → v ≤ 63) ∧ (∀ (x : Axis) (v : Nat), targets.get x = some v → v ≤ 4095) ∧
          (∀ v, allowance = some v → v ≤ 2000) ∧
          ((preset = none ∧ ∃ (x : Axis) (v : Nat), targets.get x = some v) ∨
            (preset ≠ none ∧ ∀ x : Axis, targets.get x = none))
      | .settle timeout => 10 ≤ timeout ∧ timeout ≤ 10000
      | .await line timeout => line ≤ 3 ∧ timeout ≤ 60000
      | .trigger exposure lines width close =>
        (∀ v, exposure = some v → 10 ≤ v ∧ v ≤ 1000000) ∧ 1 ≤ lines ∧ lines ≤ 16384 ∧ 16 ≤ width ∧ width ≤ 32768 ∧
          width % 16 = 0 ∧ (∀ v, close = some v → 10 ≤ v ∧ v ≤ 60000) ∧ lines * width ≤ 67108864
      | .dwell time => 1 ≤ time ∧ time ≤ 60000)) ∧
  (∀ (l : List Step) (i : Nat) (why : LoadReason), loadFailure l = some (i, why) ↔
    ((l.length = 0 ∨ 16 < l.length) ∧ i = 0 ∧ why = .count) ∨
    (1 ≤ l.length ∧ l.length ≤ 16 ∧
      (∀ (j : Nat) (st : Step) (w : LoadReason), j < i → l[j]? = some st → ¬ StepFault l.length j st w) ∧
      ∃ st before after, l[i]? = some st ∧ StepFault l.length i st why ∧
        [LoadReason.chain, .flag, .range, .size, .lensSource] = before ++ why :: after ∧
        ∀ w ∈ before, ¬ StepFault l.length i st w))

/-- START_SEQUENCE, row by row; a start reserves the list's pages and records, takes a free lens with the implicit flag, counts
the run, arms the cadence and enters step 0: HELD before it, or running it by its kind, with the notice HELD or NOTE to the
caller. For a step HELD, a DWELL, an AWAIT and a TRIGGER nothing else changes, on the port or outside it. That the reply's figures are those the
start sets, whatever step 0 does, is the model's reading (log entry 40). That a TRIGGER step before an intake that is not FILLING
is handed down at once, and otherwise by TRIGGER_HANDOVER, is the model's reading (log entry 25). -/
def Obligations.SequencesStart : Prop :=
  ∀ (s : State) (m : Master) (e : RequestEntry) (n period : Nat) (p : Port) (c : SeqCtx), portOf n = some p →
    Reaches s m .startSequence e → c = (s.port p).seq →
    (∀ r, ((period ≠ 0 ∧ (period < 10 ∨ 600000 < period) ∧ r = .badRange) ∨
        ((period = 0 ∨ (10 ≤ period ∧ period ≤ 600000)) ∧
          ((c.state = .empty ∧ r = .noSuch) ∨ ((c.state = .running ∨ c.state = .held) ∧ r = .sequenceActive) ∨
            (c.state = .ready ∧ ((s.port p).link.state ≠ .up ∨ (s.port p).held = true) ∧ r = .cameraUnavailable) ∨
            (c.state = .ready ∧ (s.port p).link.state = .up ∧ (s.port p).held = false ∧
              (∃ h, (s.port p).lens.holder = some h ∧ h ≠ m) ∧ r = .lensHeld) ∨
            (c.state = .ready ∧ (s.port p).link.state = .up ∧ (s.port p).held = false ∧
              ((s.port p).lens.holder = none ∨ (s.port p).lens.holder = some m) ∧
              (s.store.freeList.length - s.store.reservedPages < c.pageCount ∨
                512 - s.store.frames.length - s.store.reservedRecords < c.recordCount) ∧ r = .noSpace)))) →
      exec (.startSequence m n period) s = .next (s.answered m e { result := r })) ∧
    (∀ st rest runs deadline (c' : SeqCtx), (period = 0 ∨ (10 ≤ period ∧ period ≤ 600000)) → c.state = .ready →
      (s.port p).link.state = .up → (s.port p).held = false →
      ((s.port p).lens.holder = none ∨ (s.port p).lens.holder = some m) →
      c.pageCount ≤ s.store.freeList.length - s.store.reservedPages →
      c.recordCount ≤ 512 - s.store.frames.length - s.store.reservedRecords → c.steps = some (st :: rest) →
      runs = (if c.runs < 4294967295 then c.runs + 1 else c.runs) →
      deadline = (if period = 0 then none else some (s.now + period * 1000)) →
      c' = { c with
        reservedPages := c.pageCount, reservedRecords := c.recordCount, tookHold := (s.port p).lens.holder.isNone
        starter := some m, runs := runs, lastEdge := none, state := .running, index := some 0, bound := none
        period := period, cadence := deadline } →
      ∃ t : State, exec (.startSequence m n period) s =
          .next (t.reply m e
            { result := .done, body := .started runs c.pageCount c.recordCount deadline }) ∧
        ∀ (q : SeqCtx) (waiting : List DownPacket) (told : State),
          ((st.hold = true ∧ q = { c' with state := .held, phase := some .before, deadline := none } ∧
              waiting = (s.port p).waiting ∧ told = (s.taken m).notify m false (.sequenceEvent p .held runs (some 0))) ∨
            (st.hold = false ∧
              told = (if st.note = true then (s.taken m).notify m false (.sequenceEvent p .note runs (some 0))
                else s.taken m) ∧
              ((∃ time, st.kind = .dwell time ∧ waiting = (s.port p).waiting ∧
                  q = { c' with phase := some .dwelling, deadline := some (s.now + time * 1000) }) ∨
                (∃ l time, st.kind = .await l time ∧ waiting = (s.port p).waiting ∧
                  q = { c' with
                    phase := some .awaiting, deadline := if time = 0 then none else some (s.now + time * 1000) }) ∨
                (∃ ex lines width close, st.kind = .trigger ex lines width close ∧
                  (((s.port p).intake.state = .filling ∧ waiting = (s.port p).waiting ∧
                      q = { c' with phase := some .intakeWait, deadline := none }) ∨
                    ((s.port p).intake.state ≠ .filling ∧ (s.port p).waiting.length < 16 ∧
                      waiting = (s.port p).waiting ++ [.trigger ex] ∧
                      q = { c' with
                        phase := some .openWait, deadline := some (s.now + close.getD 1000 * 1000) })))))) →
          SameBut { s with store := t.store, masters := t.masters } t p ∧ t.masters = told.masters ∧
          t.store = { s.store with
            reservedPages := s.store.reservedPages + c.pageCount
            reservedRecords := s.store.reservedRecords + c.recordCount } ∧
          t.port p = { s.port p with
            waiting := waiting
            lens := { (s.port p).lens with
              holder := some m
              implicit := if (s.port p).lens.holder = none then true else (s.port p).lens.implicit }
            seq := q })

/-- RESUME_SEQUENCE starts the HELD step for the run's starter alone, by its kind: a LENS step makes its move and completes, waits
for the write of its preset, or ends the run where the preset is missing; a SETTLE step completes, waits for the moving axes, or
ends the run at a STALLED axis (naming the first of several is the model's choice, log entry 54); a TRIGGER, AWAIT or DWELL step
waits. HALT_SEQUENCE ends a run for its starter or the cell controller with HALTED. That a TRIGGER step before an intake that is
not FILLING is handed down at once, and otherwise by TRIGGER_HANDOVER, is the model's reading (log entry 25). -/
def Obligations.SequencesResumeAndHalt : Prop :=
  ∀ (s : State) (m : Master) (e : RequestEntry) (n : Nat) (p : Port), portOf n = some p →
    (Reaches s m .resumeSequence e →
      ((s.port p).seq.state ≠ .held →
        exec (.resumeSequence m n) s = .next (s.answered m e { result := .notHeld })) ∧
      ((s.port p).seq.state = .held → (s.port p).seq.starter ≠ some m →
        exec (.resumeSequence m n) s = .next (s.answered m e { result := .notPermitted })) ∧
      (∀ st, (s.port p).seq.state = .held → (s.port p).seq.starter = some m → (s.port p).seq.currentStep = some st →
        st.note = false →
        (∀ time, st.kind = .dwell time →
          ∃ t : State, exec (.resumeSequence m n) s = .next (t.reply m e { result := .done }) ∧ SameBut (s.taken m) t p ∧
            t.port p = { s.port p with seq := { (s.port p).seq with
              state := .running, phase := some .dwelling, deadline := some (s.now + time * 1000) } }) ∧
        (∀ l time, st.kind = .await l time →
          ∃ t : State, exec (.resumeSequence m n) s = .next (t.reply m e { result := .done }) ∧ SameBut (s.taken m) t p ∧
            t.port p = { s.port p with seq := { (s.port p).seq with
              state := .running, phase := some .awaiting
              deadline := if time = 0 then none else some (s.now + time * 1000) } }) ∧
        (∀ ex lines width close, st.kind = .trigger ex lines width close →
          ((s.port p).intake.state = .filling →
            ∃ t : State, exec (.resumeSequence m n) s = .next (t.reply m e { result := .done }) ∧ SameBut (s.taken m) t p ∧
              t.port p = { s.port p with seq := { (s.port p).seq with
                state := .running, phase := some .intakeWait, deadline := none } }) ∧
          ((s.port p).intake.state ≠ .filling → (s.port p).link.state = .up → (s.port p).waiting.length < 16 →
            ∃ t : State, exec (.resumeSequence m n) s = .next (t.reply m e { result := .done }) ∧ SameBut (s.taken m) t p ∧
              t.port p = { s.port p with
                waiting := (s.port p).waiting ++ [.trigger ex]
                seq := { (s.port p).seq with
                  state := .running, phase := some .openWait, deadline := some (s.now + close.getD 1000 * 1000) } })) ∧
        (∀ started : State,
          started = (s.taken m).updSeq p (fun c => { c with state := .running, phase := none, deadline := none }) →
          (∀ preset targets allowance, st.kind = .lens preset targets allowance →
            (st.chain = false → (s.port p).link.state = .up → (s.port p).waiting.length < 16 →
              ∀ goto time,
                ((preset = none ∧ goto = targets ∧ time = allowance.getD 20) ∨
                  ∃ (i : Fin 64) (x : Preset), preset = some i.val ∧ s.presets.writing (.preset i) = false ∧
                    s.presets.preset i = some x ∧ (x.port = none ∨ x.port = some p) ∧ goto = x.targets ∧
                    time = allowance.getD x.settle) →
                ∃ u t : State, Moves started u p goto time (some m) ∧ RunEnded u t p .normal ∧
                  exec (.resumeSequence m n) s = .next (t.reply m e { result := .done })) ∧
            (∀ i : Fin 64, preset = some i.val →
              (s.presets.writing (.preset i) = true →
                ∃ t : State, exec (.resumeSequence m n) s = .next (t.reply m e { result := .done }) ∧
                  SameBut (s.taken m) t p ∧
                  t.port p = { s.port p with seq := { (s.port p).seq with
                    state := .running, phase := some .storeWait, deadline := none } }) ∧
              (s.presets.writing (.preset i) = false →
                (s.presets.preset i = none ∨ ∃ x q, s.presets.preset i = some x ∧ x.port = some q ∧ q ≠ p) →
                ∃ t : State, RunEnded started t p .presetMissing ∧
                  exec (.resumeSequence m n) s = .next (t.reply m e { result := .done })))) ∧
          (∀ timeout, st.kind = .settle timeout →
            ((∃ x a, (s.port p).lens.axes.get x = some a ∧ a.motion = .stalled) →
              ∃ t : State, RunEnded started t p .lensStalled ∧
                exec (.resumeSequence m n) s = .next (t.reply m e { result := .done })) ∧
            (st.chain = false → (∀ x a, (s.port p).lens.axes.get x = some a → a.motion = .idle) →
              ∃ t : State, RunEnded started t p .normal ∧
                exec (.resumeSequence m n) s = .next (t.reply m e { result := .done })) ∧
            ((∀ x a, (s.port p).lens.axes.get x = some a → a.motion ≠ .stalled) →
              (∃ x a, (s.port p).lens.axes.get x = some a ∧ a.motion = .moving) →
              ∃ t : State, exec (.resumeSequence m n) s = .next (t.reply m e { result := .done }) ∧
                SameBut (s.taken m) t p ∧
                t.port p = { s.port p with seq := { (s.port p).seq with
                  state := .running, phase := some .settling, deadline := some (s.now + timeout * 1000) } }))))) ∧
    (Reaches s m .haltSequence e →
      ((s.port p).seq.active = false →
        exec (.haltSequence m n) s = .next (s.answered m e { result := .notRunning })) ∧
      ((s.port p).seq.active = true → (s.port p).seq.starter ≠ some m → m ≠ .C →
        exec (.haltSequence m n) s = .next (s.answered m e { result := .notPermitted })) ∧
      ((s.port p).seq.active = true → ((s.port p).seq.starter = some m ∨ m = .C) →
        ∃ t : State, exec (.haltSequence m n) s = .next (t.reply m e { result := .done }) ∧ RunEnded s t p .halted ∧
          ∀ x, (s.port p).seq.starter = some x → x ≠ m → t.masters = ((s.taken m).notify x false
            (.sequenceEvent p
              (.ended
                { status := .halted
                  holdFreed := (s.port p).lens.implicit && decide ((s.port p).lens.holder = some x)
                  frame := none, lengths := none, axis := none, preset := none })
              (s.port p).seq.runs (some ((s.port p).seq.index.getD 0)))).masters))

/-- The deadlines of steps end a run with their status once they have passed: SETTLING with LENS_STALLED, AWAITING with
AWAIT_TIMEOUT, OPEN_WAIT and a FRAME_WAIT on a discarded frame with FRAME_TIMEOUT, a FRAME_WAIT on an open frame likewise after
that frame has been ended PARTIAL. Before them, and in any other phase, nothing changes. That a command before its time changes
nothing, and that it may come at any time from then on, is the model's choice (log entries 3 and 4). -/
def Obligations.StepDeadlinesEndRuns : Prop :=
  ∀ (s : State) (p : Port) (c : Instr) (phase : Phase) (status : EndStatus),
    ((c = .settleTimeout p ∧ phase = .settling ∧ status = .lensStalled) ∨
      (c = .awaitTimeout p ∧ phase = .awaiting ∧ status = .awaitTimeout) ∨
      (c = .closeTimeout p ∧ phase = .openWait ∧ status = .frameTimeout) ∨
      (c = .closeTimeout p ∧ phase = .frameWait ∧ status = .frameTimeout)) →
    ((∀ d, (s.port p).seq.deadline = some d → s.now < d) → exec c s = .next s) ∧
    (c ≠ .closeTimeout p → (s.port p).seq.inPhase phase = false → exec c s = .next s) ∧
    (∀ d, (s.port p).seq.inPhase phase = true → (s.port p).seq.deadline = some d → d ≤ s.now →
      (phase ≠ .frameWait ∨ (s.port p).seq.bound = some .discarded) →
      ∃ t, exec c s = .next t ∧ RunEnded s t p status) ∧
    (∀ d id f, phase = .frameWait → (s.port p).seq.inPhase phase = true → (s.port p).seq.deadline = some d → d ≤ s.now →
      (s.port p).seq.bound = some (.frame id) → (s.port p).intake.state = .filling →
      (s.port p).intake.openFrame = some id → (s.port p).intake.bound.isSome = true → s.frame? id = some f →
      f.readers = ⟨true, false⟩ → 0 < f.stored →
      s.store.readers.a.ready.length < s.store.readers.a.holdLimit →
      ∃ t g, exec c s = .next t ∧ (∀ q : Port, q ≠ p → t.port q = s.port q) ∧
        (t.port p).seq.state = .ready ∧ (t.port p).seq.ended = some (.frameTimeout, (s.port p).seq.index.getD 0) ∧
        (t.port p).intake.state = .idle ∧ t.store.readers.a.ready = s.store.readers.a.ready ++ [id] ∧
        t.frame? id = some g ∧ g.state = .ready ∧ g.tags.isPartial = true ∧ g.stored = f.stored ∧
        g.closeTime = some s.now)

/-- DWELL_END completes the step: the last one ends the run NORMAL, a chained one is followed by the next. TRIGGER_HANDOVER hands
the waiting TRIGGER over once the intake is free. Before their time both change nothing. TRIGGER_HANDOVER hands the waiting
TRIGGER over once the intake is not FILLING, and the close timeout runs from there. That a command before its time changes
nothing, and that it may come at any time from then on, is the model's choice (log entries 3 and 4). That TRIGGER_HANDOVER is what
hands down a TRIGGER that waited for the intake is its reading (log entry 25). -/
def Obligations.StepsCompleteAndFollow : Prop :=
  (∀ (s : State) (p : Port) (st : Step) (d : Time), (s.port p).seq.currentStep = some st →
    (s.port p).seq.deadline = some d →
    (s.now < d → exec (.dwellEnd p) s = .next s) ∧
    ((s.port p).seq.inPhase .dwelling = true → d ≤ s.now →
      (st.chain = false → ∃ t, exec (.dwellEnd p) s = .next t ∧ RunEnded s t p .normal) ∧
      (∀ l i nx time, st.chain = true → (s.port p).seq.steps = some l → (s.port p).seq.index = some i →
        l[i + 1]? = some nx → nx.hold = false → nx.note = false → nx.kind = .dwell time →
        ∃ t, exec (.dwellEnd p) s = .next t ∧ SameBut s t p ∧
          t.port p = { s.port p with seq := { (s.port p).seq with
            index := some (i + 1), phase := some .dwelling, deadline := some (s.now + time * 1000), bound := none } }))) ∧
  (∀ (s : State) (p : Port) (st : Step) (ex cl : Option Nat) (lines width : Nat), (s.port p).seq.currentStep = some st →
    st.kind = .trigger ex lines width cl → (s.port p).link.state = .up → (s.port p).waiting.length < 16 →
    ((s.port p).seq.inPhase .intakeWait = true → (s.port p).intake.state ≠ .filling →
      ∃ t, exec (.triggerHandover p) s = .next t ∧ SameBut s t p ∧
        t.port p = { s.port p with
          waiting := (s.port p).waiting ++ [.trigger ex]
          seq := { (s.port p).seq with
            phase := some .openWait, deadline := some (s.now + cl.getD 1000 * 1000) } }) ∧
    (((s.port p).seq.inPhase .intakeWait = false ∨ (s.port p).intake.state = .filling) →
      exec (.triggerHandover p) s = .next s))

/-- A cadence event moves the cadence deadline on by the period: it counts an overrun while a run is in progress, restarts a READY
context whose last run ended NORMAL, or counts a skip with its reason where the restart is refused: the camera, the lens and the
frame store are asked in this order. A restart takes the reservation, and a free lens with the implicit flag. That a command
before its time changes nothing, and that it may come at any time from then on, is the model's choice (log entries 3 and 4). -/
def Obligations.CadenceRestartsRuns : Prop :=
  ∀ (s : State) (p : Port) (d : Time) (m : Master) (c : SeqCtx), c = (s.port p).seq → c.cadence = some d →
    c.starter = some m →
    (s.now < d → exec (.cadenceDeadline p) s = .next s) ∧
    (d ≤ s.now →
      ((c.state = .running ∨ c.state = .held) → c.overruns < 4294967295 →
        ∃ t : State, SameBut s t p ∧
          t.port p = { s.port p with seq := { c with
            cadence := some (d + c.period * 1000), overruns := c.overruns + 1 } } ∧
          exec (.cadenceDeadline p) s =
            .next (t.notify m false (.sequenceEvent p (.overrun (c.overruns + 1)) c.runs c.index))) ∧
      (∀ i why, c.state = .ready → c.ended = some (.normal, i) → c.skips < 4294967295 →
        ((((s.port p).link.state ≠ .up ∨ (s.port p).held = true) ∧ why = .cameraUnavailable) ∨
          ((s.port p).link.state = .up ∧ (s.port p).held = false ∧
            (((∃ h, (s.port p).lens.holder = some h ∧ h ≠ m) ∧ why = .lensHeld) ∨
              (((s.port p).lens.holder = none ∨ (s.port p).lens.holder = some m) ∧
                (s.store.freeList.length - s.store.reservedPages < c.pageCount ∨
                  512 - s.store.frames.length - s.store.reservedRecords < c.recordCount) ∧ why = .noSpace)))) →
        ∃ t : State, SameBut s t p ∧
          t.port p = { s.port p with seq := { c with
            cadence := some (d + c.period * 1000), skips := c.skips + 1 } } ∧
          exec (.cadenceDeadline p) s =
            .next (t.notify m false (.sequenceEvent p (.skipped why (c.skips + 1)) c.runs none))) ∧
      (∀ i st rest time, c.state = .ready → c.ended = some (.normal, i) → (s.port p).link.state = .up →
        (s.port p).held = false → ((s.port p).lens.holder = none ∨ (s.port p).lens.holder = some m) →
        c.pageCount ≤ s.store.freeList.length - s.store.reservedPages →
        c.recordCount ≤ 512 - s.store.frames.length - s.store.reservedRecords → c.steps = some (st :: rest) →
        st.hold = false → st.note = false → st.kind = .dwell time → c.runs < 4294967295 →
        ∃ t, exec (.cadenceDeadline p) s = .next t ∧ SameBut { s with store := t.store } t p ∧
          t.store = { s.store with
            reservedPages := s.store.reservedPages + c.pageCount
            reservedRecords := s.store.reservedRecords + c.recordCount } ∧
          t.port p = { s.port p with
            lens :=
              if (s.port p).lens.holder = none then { (s.port p).lens with holder := some m, implicit := true }
              else (s.port p).lens
            seq := { c with
              cadence := some (d + c.period * 1000), reservedPages := c.pageCount, reservedRecords := c.recordCount
              tookHold := (s.port p).lens.holder.isNone, runs := c.runs + 1, lastEdge := none, state := .running
              index := some 0, bound := none, phase := some .dwelling, deadline := some (s.now + time * 1000) } }))

/-! ## Trigger lines -/

/-- One sample of a line, by the debounce filter: the level held clears the run, a shorter run goes on, the first accepted level
and an edge of the other polarity are accepted alone, and an edge is ignored under the hold-off or accepted with the time of its
run's first sample. That ACCEPTED_TRANSITION is the sample that completes the debounce is the model's reading (log entry 12), and
so is the stamp of an accepted edge, ten microseconds back for each further sample of its run and 0 where the timebase is too
small for that (log entry 13). -/
def Obligations.SamplesAreDebounced : Prop :=
  ∀ (s : State) (l : LineNo) (v : Level) (r : LineRec) (run : Nat), r = s.lines.get l →
    run = (if r.runLevel = some v then r.runCount + 1 else 1) →
    (r.accepted = some v →
      exec (.triggerLineSample l v) s =
          .next (s.updLine l (fun _ => { r with sampled := v, runLevel := none, runCount := 0 })) ∧
        exec (.acceptedTransition l v) s = .next s) ∧
    (r.accepted ≠ some v → run < r.settings.debounce →
      exec (.triggerLineSample l v) s =
          .next (s.updLine l (fun _ => { r with sampled := v, runLevel := some v, runCount := run })) ∧
        exec (.acceptedTransition l v) s = .next s) ∧
    (r.accepted ≠ some v → r.settings.debounce ≤ run →
      (r.accepted = none ∨ r.settings.enable = false ∨
        (r.settings.polarity = .rising ∧ v = .low) ∨ (r.settings.polarity = .falling ∧ v = .high)) →
      exec (.triggerLineSample l v) s =
        .next (s.updLine l (fun _ =>
          { r with sampled := v, accepted := some v, runLevel := none, runCount := 0 }))) ∧
    (∀ (c : Instr) (old : Level) (stamp : Time), (c = .triggerLineSample l v ∨ c = .acceptedTransition l v) →
      r.accepted = some old → old ≠ v → r.settings.debounce ≤ run → r.settings.enable = true →
      ((r.settings.polarity = .rising ∧ v = .high) ∨ (r.settings.polarity = .falling ∧ v = .low)) →
      stamp = s.now - (run - 1) * 10 →
      (∀ last, r.lastEdge = some last → stamp < last + r.settings.holdOff * 1000 → r.ignoredCount < 4294967295 →
        exec c s = .next (s.updLine l (fun _ =>
          { r with
            sampled := v, accepted := some v, runLevel := none, runCount := 0
            ignoredCount := r.ignoredCount + 1 }))) ∧
      ((∀ last, r.lastEdge = some last → last + r.settings.holdOff * 1000 ≤ stamp) → r.acceptedCount < 4294967295 →
        ∃ t, exec c s = .next t ∧ t.now = s.now ∧ t.presets = s.presets ∧ t.mgr = s.mgr ∧ t.engine = s.engine ∧
          t.lines = s.lines.set l
            { r with
              sampled := v, accepted := some v, runLevel := none, runCount := 0, lastEdge := some stamp
              acceptedCount := r.acceptedCount + 1 } ∧
          ∀ p : Port,
            (r.settings.route.getLsbD p.val = false → t.port p = s.port p) ∧
            (r.settings.route.getLsbD p.val = true → (s.port p).seq.active = false →
              (s.port p).link.state = .up → (s.port p).intake.state ≠ .filling → (s.port p).waiting.length < 16 →
              t.port p = { s.port p with
                waiting := (s.port p).waiting ++ [.trigger none]
                intake := { (s.port p).intake with pendingOrigin := some (.triggerLine l) } }) ∧
            (r.settings.route.getLsbD p.val = true → (s.port p).seq.active = false →
              ((s.port p).link.state ≠ .up ∨ (s.port p).intake.state = .filling) →
              (s.port p).counters.triggersNotSent < 4294967295 →
              t.port p = { s.port p with counters :=
                { (s.port p).counters with triggersNotSent := (s.port p).counters.triggersNotSent + 1 } }) ∧
            (r.settings.route.getLsbD p.val = true → (s.port p).seq.active = true →
              ((s.port p).seq.inPhase .awaiting = false ∨
                ∀ st time, (s.port p).seq.currentStep = some st → st.kind ≠ .await l.val time) →
              (s.port p).counters.earlyEdges < 4294967295 →
              t.port p = { s.port p with counters :=
                { (s.port p).counters with earlyEdges := (s.port p).counters.earlyEdges + 1 } }) ∧
            (∀ st time, r.settings.route.getLsbD p.val = true → (s.port p).seq.inPhase .awaiting = true →
              (s.port p).seq.currentStep = some st → st.kind = .await l.val time → st.chain = false →
              (t.port p).seq.state = .ready ∧ (t.port p).seq.lastEdge = some stamp ∧
              (t.port p).seq.ended = some (.normal, (s.port p).seq.index.getD 0))))

/-- FIRE and SET_TRIGGER_LINE, row by row. That a route mask above 255 gives BAD_RANGE (log entry 37) and that this refusal lists no
clamped field (log entry 58) are the model's choices, and the places of the clamped fields its reading (log entry 36). -/
def Obligations.TriggersFireAndLinesAreSet : Prop :=
  ∀ (s : State) (m : Master) (e : RequestEntry),
    (∀ n p ex r, portOf n = some p → Reaches s m .fire e →
      (((∃ v, ex = some v ∧ (v < 10 ∨ 1000000 < v)) ∧ r = .badRange) ∨
        ((∀ v, ex = some v → 10 ≤ v ∧ v ≤ 1000000) ∧
          (((s.port p).seq.active = true ∧ r = .sequenceActive) ∨
            ((s.port p).seq.active = false ∧ (s.port p).link.state ≠ .up ∧ r = .cameraUnavailable) ∨
            ((s.port p).seq.active = false ∧ (s.port p).link.state = .up ∧ (s.port p).intake.state = .filling ∧
              r = .cameraBusy)))) →
      exec (.fire m n ex) s = .next (s.answered m e { result := r })) ∧
    (∀ n p ex, portOf n = some p → Reaches s m .fire e → (∀ v, ex = some v → 10 ≤ v ∧ v ≤ 1000000) →
      (s.port p).seq.active = false → (s.port p).link.state = .up → (s.port p).intake.state ≠ .filling →
      (s.port p).waiting.length < 16 →
      ∃ t : State, exec (.fire m n ex) s = .next (t.reply m e { result := .done }) ∧ SameBut (s.taken m) t p ∧
        t.port p = { s.port p with
          waiting := (s.port p).waiting ++ [.trigger ex]
          intake := { (s.port p).intake with pendingOrigin := some (.softFire m) } }) ∧
    (∀ n set, Reaches s .C .setTriggerLine e → polarityFits set.polarity = true →
      ((3 < n ∨ ∃ v, set.route = some v ∧ 255 < v) →
        exec (.setTriggerLine .C n set) s = .next (s.answered .C e { result := .badRange })) ∧
      (∀ l old new, lineOf n = some l → (∀ v, set.route = some v → v ≤ 255) → old = (s.lines.get l).settings →
        new = LineSettings.mk (set.enable.getD old.enable)
          (if set.polarity = some 0 then .rising else if set.polarity = some 1 then .falling else old.polarity)
          (set.debounce.elim old.debounce (fun v => max 1 (min 255 v)))
          (set.holdOff.elim old.holdOff (fun v => min 1000 v)) (set.route.elim old.route (BitVec.ofNat 8)) →
        ∃ t : State, exec (.setTriggerLine .C n set) s =
            .next (t.reply .C e
              { result := .done
                clamped := set.debounce.elim [] (fun v => if 1 ≤ v ∧ v ≤ 255 then [] else [(3, max 1 (min 255 v))]) ++
                set.holdOff.elim [] (fun v => if v ≤ 1000 then [] else [(4, 1000)])
                body := .line new }) ∧
          t = { s.taken .C with lines := s.lines.set l { s.lines.get l with settings := new } }))

/-! ## Master ports -/

/-- A fabric link: nothing arrives while DETACHED; a damaged record is a framing error; a sound REQUEST joins the request queue,
or is a protocol error when the queue holds 8; an EMPTY record is ignored. The link sends a credit message, replies, notices and
fetch messages in this order, and a reply sent whole frees its request's entry. That a reply or a notice leaves its queue when its
sending begins (log entry 32) and when a credit message is due (log entry 33) are the model's readings. Which fabric records are
framing errors, and that an EMPTY record does nothing, is the model's reading (log entry 43). -/
def Obligations.FabricLinksCarryRecords : Prop :=
  ∀ (s : State) (a : Analysis),
    (∀ record sound fits,
      ((s.master a.master).attached = false → exec (.fabricRecordArrival a record sound fits) s = .next s) ∧
      ((s.master a.master).attached = true →
        ∃ t, exec (.fabricRecordArrival a record sound fits) s = .next t ∧ SameButMasters s t ∧
          (∀ m : Master, m ≠ a.master → t.master m = s.master m) ∧
          (t.master a.master).replies = (s.master a.master).replies ∧
          (t.master a.master).notices = (s.master a.master).notices ∧
          (t.master a.master).fetchOut = (s.master a.master).fetchOut ∧
          ((sound = false ∨ record.length < 8 ∨ 1 < byteAt record 0 ∨ wordAt record 4 ≠ record.length) →
            (t.master a.master).requests = (s.master a.master).requests ∧
            (t.master a.master).protocolErrors = (s.master a.master).protocolErrors ∧
            ((s.master a.master).framingErrors < 4294967295 →
              (t.master a.master).framingErrors = (s.master a.master).framingErrors + 1)) ∧
          (sound = true → 8 ≤ record.length → byteAt record 0 = 1 → wordAt record 4 = record.length →
            (t.master a.master).framingErrors = (s.master a.master).framingErrors ∧
            ((s.master a.master).requests.length < 8 →
              (t.master a.master).protocolErrors = (s.master a.master).protocolErrors ∧
              (t.master a.master).requests = (s.master a.master).requests ++
                [{ tag := wordAt record 2, kind := byteAt record 1
                   malformed := decide (byteAt record 6 ≠ 0 ∨ byteAt record 7 ≠ 0 ∨
                     fieldsMatch (byteAt record 1) (record.drop 8) fits = false)
                   waiting := true, fields := record.drop 8 }]) ∧
            (8 ≤ (s.master a.master).requests.length →
              (t.master a.master).requests = (s.master a.master).requests ∧
              ((s.master a.master).protocolErrors < 4294967295 →
                (t.master a.master).protocolErrors = (s.master a.master).protocolErrors + 1))) ∧
          (sound = true → 8 ≤ record.length → byteAt record 0 = 0 → wordAt record 4 = record.length →
            t.master a.master = { s.master a.master with attention := (t.master a.master).attention }))) ∧
    (((s.master a.master).attached = false ∨ (s.master a.master).sending ≠ none) →
      exec (.outboundSendStart a) s = .next s) ∧
    (∀ r, r = s.master a.master → r.attached = true → r.sending = none →
      ∃ t, exec (.outboundSendStart a) s = .next t ∧ SameButMasters s t ∧
        (∀ m : Master, m ≠ a.master → t.master m = s.master m) ∧ (t.master a.master).requests = r.requests ∧
        (r.creditDue = true →
          (t.master a.master).sending = some ⟨.credit, 8 - r.requests.length⟩ ∧
          (t.master a.master).replies = r.replies ∧ (t.master a.master).notices = r.notices ∧
          (t.master a.master).fetchOut = r.fetchOut) ∧
        (∀ x rest, r.creditDue = false → r.replies = x :: rest →
          (t.master a.master).sending = some ⟨.reply x true, 8 - r.requests.length⟩ ∧
          (t.master a.master).replies = rest ∧ (t.master a.master).notices = r.notices ∧
          (t.master a.master).fetchOut = r.fetchOut) ∧
        (∀ x rest, r.creditDue = false → r.replies = [] → r.notices = x :: rest →
          (t.master a.master).sending = some ⟨.notice x r.overrun, 8 - r.requests.length⟩ ∧
          (t.master a.master).notices = rest ∧ (t.master a.master).overrun = false ∧
          (t.master a.master).fetchOut = r.fetchOut) ∧
        (∀ x rest, r.creditDue = false → r.replies = [] → r.notices = [] → r.fetchOut = x :: rest →
          (t.master a.master).sending = some ⟨.fetch x, 8 - r.requests.length⟩ ∧
          (t.master a.master).fetchOut = rest)) ∧
    (∀ x, (s.master a.master).sending = some x →
      ∃ t, exec (.outboundSendComplete a) s = .next t ∧ SameButMasters s t ∧
        (∀ m : Master, m ≠ a.master → t.master m = s.master m) ∧ (t.master a.master).sending = none ∧
        (t.master a.master).replies = (s.master a.master).replies ∧
        (t.master a.master).notices = (s.master a.master).notices ∧
        (∀ r, x.msg = .reply r true →
          (t.master a.master).requests = (s.master a.master).requests.drop 1) ∧
        ((∀ r, x.msg ≠ .reply r true) → (t.master a.master).requests = (s.master a.master).requests))

/-- Lock lost for more than 1 ms detaches an ATTACHED fabric port and tears its master down; its return attaches the port again.
DETACH tears its master down and is answered DONE. A teardown empties the queues, restores mask and watermark, gives up the
master's reader sets, pins, fetches and holds, leaves every lens's axes as they are, in motion too, and changes no other master's
queues of requests and replies. A run under a freed hold ends HOLD_LAPSED with its reservation returned and its cadence cancelled,
the cadence of a READY context that the master started last is cancelled, and every other context is as before. That a loss of
lock drops the message being sent is the model's reading (log entry 34). That a lock loss before its time changes nothing is the
model's choice (log entry 3); that the return makes a credit message due and that a teardown's own notices are kept from its
master are its readings (log entries 33 and 35). -/
def Obligations.TeardownsEmptyTheirMaster : Prop :=
  ∀ (s : State) (m : Master),
    (∀ (c : Instr) (t : State), exec c s = .next t →
      ((∃ (a : Analysis) (us : Nat), c = .fabricLockLost a us ∧ 1000 < us ∧ m = a.master ∧
          (s.master m).attached = true) ∨
        (∃ e, c = .detach m ∧ Reaches s m .detach e)) →
      (t.master m).notices = [] ∧ (t.master m).overrun = false ∧ (t.master m).fetchOut = [] ∧
      (t.master m).mask = NoticeMask.all ∧ (t.master m).watermark = 1 ∧
      (∀ x : Master, x ≠ m → (t.master x).requests = (s.master x).requests ∧
        (t.master x).replies = (s.master x).replies) ∧
      (∀ p : Port, (t.port p).lens.holder ≠ some m ∧ (t.port p).lens.mover ≠ some m ∧
        ((s.port p).lens.holder = some m → (t.port p).lens.holder = none ∧ (t.port p).lens.implicit = false ∧
          (t.port p).seq.active = false) ∧
        ((s.port p).lens.holder ≠ some m → (t.port p).lens.holder = (s.port p).lens.holder) ∧
        (t.port p).lens.axes = (s.port p).lens.axes ∧
        (t.port p).link = (s.port p).link ∧ (t.port p).power = (s.port p).power ∧
        (t.port p).intake = (s.port p).intake ∧ (t.port p).breakLog = (s.port p).breakLog) ∧
      (∀ a : Analysis, m = a.master →
        t.store.readers.get a = ⟨[], 64, .keepNewest, []⟩ ∧
        (∀ f ∈ t.store.frames, f.readers.get a = false ∧ f.pins.get a = 0) ∧
        (∀ p : Port, (t.port p).subscribers = (s.port p).subscribers.set a false)) ∧
      (∀ (p : Port) (c : SeqCtx), c = (s.port p).seq →
        ((s.port p).lens.holder = some m → c.active = true →
          (t.port p).seq = { c with
            state := .ready, ended := some (.holdLapsed, c.index.getD 0), index := none, phase := none, deadline := none
            bound := none, reservedPages := 0, reservedRecords := 0, period := 0, cadence := none }) ∧
        (c.state = .ready → c.starter = some m → (t.port p).seq = { c with period := 0, cadence := none }) ∧
        (((s.port p).lens.holder ≠ some m ∨ c.active = false) → (c.state = .empty ∨ c.starter ≠ some m) →
          (t.port p).seq = c)) ∧
      (∀ ended : List Port,
        ended = allPorts.filter (fun p => decide ((s.port p).lens.holder = some m) && (s.port p).seq.active) →
        t.store.reservedPages = s.store.reservedPages - (ended.map (fun p => (s.port p).seq.reservedPages)).sum ∧
        t.store.reservedRecords = s.store.reservedRecords - (ended.map (fun p => (s.port p).seq.reservedRecords)).sum) ∧
      t.store.dram = s.store.dram ∧ t.mgr = s.mgr ∧ t.engine = s.engine ∧ t.presets = s.presets ∧ t.lines = s.lines) ∧
    (∀ (a : Analysis) (us : Nat), m = a.master →
      ((us ≤ 1000 ∨ (s.master m).attached = false) → exec (.fabricLockLost a us) s = .next s) ∧
      (1000 < us → (s.master m).attached = true →
        ∃ t, exec (.fabricLockLost a us) s = .next t ∧ (t.master m).attached = false ∧ (t.master m).requests = [] ∧
          (t.master m).replies = [] ∧ (t.master m).sending = none) ∧
      ((s.master m).attached = true → exec (.fabricLockReturn a) s = .next s) ∧
      ((s.master m).attached = false →
        ∃ t, exec (.fabricLockReturn a) s = .next t ∧ SameButMasters s t ∧ (t.master m).attached = true ∧
          (t.master m).creditDue = true ∧ (t.master m).requests = (s.master m).requests ∧
          ∀ x : Master, x ≠ m → t.master x = s.master x)) ∧
    (∀ e done rest, Reaches s m .detach e → (s.master m).requests = done ++ e :: rest → (∀ x ∈ done, x.waiting = false) →
      (∀ x ∈ rest, x.waiting = true) →
      ∃ t, exec (.detach m) s = .next t ∧ (t.master m).attached = (s.master m).attached ∧
        (t.master m).replies = [⟨e.tag, e.kind, .done, [], .empty, 0, true⟩] ∧
        (t.master m).requests = [{ e with waiting := false }])

/-- An SPI transaction: at the fall of select the status byte, the head item and whether the request queue is full are fixed; at
its rise the record shifted in is judged, an EMPTY one ignored, and then, in the same transaction, a head item shifted out whole leaves
its queue, the last part of a reply freeing the oldest request's entry. SET_NOTICE_MASK replaces what it gives, the watermark clamped to 1..32. The places of the clamped fields
are the model's reading (log entry 36). -/
def Obligations.SpiTransactionsAndMasks : Prop :=
  ∀ (s : State) (r : MasterRec), r = s.master .C →
    (r.spi = none →
      ∃ t x, exec .spiSelectFall s = .next t ∧ SameButMasters s t ∧ (∀ m : Master, m ≠ .C → t.master m = s.master m) ∧
        (t.master .C).spi = some x ∧ (t.master .C).requests = r.requests ∧ (t.master .C).replies = r.replies ∧
        (t.master .C).notices = r.notices ∧
        x.status = BitVec.ofNat 8 ((if r.requests.length = 8 then 128 else 0) + (if r.overrun = true then 64 else 0) +
          min 63 (r.replies.length + r.notices.length)) ∧
        x.queueFull = decide (8 ≤ r.requests.length) ∧ x.overflowed = false ∧
        (∀ y rest, r.replies = y :: rest → x.head = .reply y ∧ x.headQueued = true) ∧
        (∀ y rest, r.replies = [] → r.notices = y :: rest → x.head = .notice y r.overrun ∧ x.headQueued = true) ∧
        (r.replies = [] → r.notices = [] → x.head = .empty ∧ x.headQueued = false)) ∧
    (∀ x mosi edge out fits, r.spi = some x →
      ∃ t, exec (.spiSelectRise mosi edge out fits) s = .next t ∧ SameButMasters s t ∧
        (∀ m : Master, m ≠ .C → t.master m = s.master m) ∧ (t.master .C).spi = none ∧
        ∀ (taken : List RequestEntry) (protocol framing : Nat) (whole : Prop),
          whole = (8 ≤ mosi.length ∧ 8 ≤ wordAt mosi 4 ∧ wordAt mosi 4 ≤ 256 ∧ edge = true ∧ wordAt mosi 4 ≤ mosi.length) →
          ((¬ (whole ∧ byteAt mosi 0 ≤ 1) ∧ taken = r.requests ∧ protocol = r.protocolErrors ∧
              framing = (if r.framingErrors < 4294967295 then r.framingErrors + 1 else r.framingErrors)) ∨
            (whole ∧ byteAt mosi 0 = 0 ∧ taken = r.requests ∧ protocol = r.protocolErrors ∧ framing = r.framingErrors) ∨
            (whole ∧ byteAt mosi 0 = 1 ∧ x.queueFull = false ∧ r.requests.length < 8 ∧
              taken = r.requests ++
                [{ tag := wordAt mosi 2, kind := byteAt mosi 1
                   malformed := decide (byteAt mosi 6 ≠ 0 ∨ byteAt mosi 7 ≠ 0 ∨
                     fieldsMatch (byteAt mosi 1) ((mosi.take (wordAt mosi 4)).drop 8) fits = false)
                   waiting := true, fields := (mosi.take (wordAt mosi 4)).drop 8 }] ∧
              protocol = r.protocolErrors ∧ framing = r.framingErrors) ∨
            (whole ∧ byteAt mosi 0 = 1 ∧ (x.queueFull = true ∨ 8 ≤ r.requests.length) ∧ taken = r.requests ∧
              protocol = (if r.protocolErrors < 4294967295 then r.protocolErrors + 1 else r.protocolErrors) ∧
              framing = r.framingErrors)) →
          t.master .C = { r with
            spi := none, requests := (t.master .C).requests, replies := (t.master .C).replies
            notices := (t.master .C).notices, overrun := (t.master .C).overrun, protocolErrors := protocol
            framingErrors := framing, attention := (t.master .C).attention } ∧
          ((out = false ∨ x.headQueued = false) →
            (t.master .C).requests = taken ∧ (t.master .C).replies = r.replies ∧ (t.master .C).notices = r.notices ∧
            (t.master .C).overrun = r.overrun) ∧
          (∀ y, out = true → x.headQueued = true → x.head = .reply y →
            (t.master .C).requests = (if y.lastPart = true then taken.drop 1 else taken) ∧
            (t.master .C).replies = r.replies.drop 1 ∧ (t.master .C).notices = r.notices ∧
            (t.master .C).overrun = r.overrun) ∧
          (∀ y mark, out = true → x.headQueued = true → x.head = .notice y mark →
            (t.master .C).requests = taken ∧ (t.master .C).replies = r.replies ∧
            (t.master .C).notices = r.notices.drop 1 ∧
            ((t.master .C).overrun = true ↔ r.overrun = true ∧ (mark = false ∨ x.overflowed = true)))) ∧
    (∀ (m : Master) (e : RequestEntry) (l : Option (List Nat)) (w : Option Nat), Reaches s m .setNoticeMask e →
      (∀ k, l = some k → ∀ i ∈ k, 1 ≤ i ∧ i ≤ 10) →
      ∃ t mask mark, exec (.setNoticeMask m l w) s = .next (t.reply m e
          { result := .done, clamped := w.elim [] (fun v => if 1 ≤ v ∧ v ≤ 32 then [] else [(1, max 1 (min 32 v))])
            body := .mask mask mark }) ∧
        SameButMasters s t ∧ (∀ x : Master, x ≠ m → t.master x = s.master x) ∧ (t.master m).mask = mask ∧
        (t.master m).watermark = mark ∧ (t.master m).notices = (s.master m).notices ∧
        mark = w.elim (s.master m).watermark (fun v => max 1 (min 32 v)) ∧
        (l = none → mask = (s.master m).mask) ∧
        (∀ k, l = some k → ∀ kind : NoticeKind, mask.enabled kind = k.contains (match kind with
          | .frameReady => 1 | .frameDropped => 2 | .frameSummary => 3 | .powerEvent => 4 | .linkEvent => 5
          | .sweepDone => 6 | .lensEvent => 7 | .sequenceEvent => 8 | .storeDone => 9 | .holdLapsed => 10)))

/-- What every command means by a notice to a master and by a reply. A notice is not offered to a DETACHED master, nor a routine one
whose kind is masked; it joins the queue while that holds fewer than 32; at a full queue an urgent one displaces the oldest routine
notice, any other is lost, and the overrun mark is set. A reply joins the tail of its master's reply queue: one record on A and B;
on C one whose record would pass 256 bytes is formed as parts that carry its entries in order, numbered from 0, the last one
marked. -/
def Obligations.NoticesAreOfferedAndRepliesFormed : Prop :=
  (∀ (s t : State) (m : Master) (urgent enabled : Bool) (body : NoticeBody) (r u : MasterRec), t = s.notify m urgent body →
    r = s.master m → u = t.master m →
    enabled = (match body with
      | .frameReady .. => r.mask.frameReady | .frameDropped .. => r.mask.frameDropped
      | .frameSummary .. => r.mask.frameSummary | .powerEvent .. => r.mask.powerEvent | .linkEvent .. => r.mask.linkEvent
      | .sweepDone .. => r.mask.sweepDone | .lensEvent .. => r.mask.lensEvent
      | .sequenceEvent .. => r.mask.sequenceEvent | .storeDone .. => r.mask.storeDone | .holdLapsed .. => r.mask.holdLapsed) →
    SameButMasters s t ∧ (∀ x : Master, x ≠ m → t.master x = s.master x) ∧
    u = { r with notices := u.notices, overrun := u.overrun, spi := u.spi, attention := u.attention } ∧
    ((r.attached = false ∨ (urgent = false ∧ enabled = false)) →
      u.notices = r.notices ∧ u.overrun = r.overrun ∧ u.spi = r.spi) ∧
    (r.attached = true → (urgent = true ∨ enabled = true) →
      (r.notices.length < 32 →
        u.notices = r.notices ++ [⟨urgent, s.now, body⟩] ∧ u.overrun = r.overrun ∧ u.spi = r.spi) ∧
      (32 ≤ r.notices.length →
        u.overrun = true ∧ (∀ x, r.spi = some x → ∃ y, u.spi = some y ∧ y.overflowed = true) ∧
        (∀ kept x rest, urgent = true → r.notices = kept ++ x :: rest → (∀ n ∈ kept, n.urgent = true) →
          x.urgent = false → u.notices = kept ++ rest ++ [⟨true, s.now, body⟩]) ∧
        ((urgent = false ∨ ∀ n ∈ r.notices, n.urgent = true) → u.notices = r.notices)))) ∧
  (∀ (s : State) (m : Master) (urgent : Bool) (body : NoticeBody),
    SameButMasters s (s.notifyAll urgent body) ∧ (s.notifyAll urgent body).master m = (s.notify m urgent body).master m) ∧
  (∀ (s t : State) (m : Master) (e : RequestEntry) (a : Answer), t = s.reply m e a →
    SameButMasters s t ∧ (∀ x : Master, x ≠ m → t.master x = s.master x) ∧
    t.master m = { s.master m with replies := (t.master m).replies, attention := (t.master m).attention } ∧
    ∃ parts : List ReplyRecord, parts ≠ [] ∧ (t.master m).replies = (s.master m).replies ++ parts ∧
    (m ≠ .C → parts = [⟨e.tag, e.kind, a.result, a.clamped, a.body, 0, true⟩]) ∧
    (∀ (i : Nat) (x : ReplyRecord), parts[i]? = some x →
      x.tag = e.tag ∧ x.kind = e.kind ∧ x.result = a.result ∧ x.clamped = a.clamped ∧ x.part = i ∧
      (x.lastPart = true ↔ i + 1 = parts.length)) ∧
    (∀ f l, a.body = .frames f l →
      parts.flatMap (fun x => match x.body with
        | .frames _ part => part
        | _ => []) = l ∧
      (m = .C → e.kind = 14 → a.clamped = [] →
        (l.length ≤ 4 → parts = [⟨e.tag, e.kind, a.result, [], .frames f l, 0, true⟩]) ∧
        (4 < l.length → parts = (List.range ((l.length + 3) / 4)).map (fun i =>
          ⟨e.tag, e.kind, a.result, [], .frames f ((l.drop (4 * i)).take 4), i,
            decide (i + 1 = (l.length + 3) / 4)⟩)))) ∧
    (∀ r, a.body = .breakLog r →
      parts.flatMap (fun x => match x.body with
        | .breakLog part => part.records
        | _ => []) = r.records) ∧
    (∀ ctx l h im, a.body = .sequence ctx l h im →
      parts.flatMap (fun x => match x.body with
        | .sequence _ part _ _ => part
        | _ => []) = l))

/-- The end of a frame bound to a TRIGGER step in progress, by its FRAME_CLOSE. A stored frame has its buffered lines written to
their places, holes up to the close's count filled with zeros, and under LENIENT is padded to the step's lines; its pages come
from the step reservation, whose rest is released; it is handed over READY, and the step completes, or the run ends
LENGTH_MISMATCH where the frame is short or TRUNCATED and the step not LENIENT. One without lines is freed, and the run ends with
its lengths and no id, as R93 says. A buffered line of an unsequenced frame is written before its end likewise. A discarded frame
sends FRAME_SUMMARY and completes its step; one of the wrong width ends the run, with the lengths 0 and the shape's lines (the
model's choice, log entry 26); and one whose step is no longer in progress ends without a word. -/
def Obligations.BoundFramesEnd : Prop :=
  (∀ (s : State) (p : Port) (cc id i w delivered short : Nat) (st : Step) (lenient : Bool) (f want : FrameRec) (a : Analysis)
      (m : Master) (status : EndStatus), (s.port p).link.state = .up → (s.port p).link.attempt = none →
    (s.port p).intake.state = .filling → (s.port p).intake.openFrame = some id →
    (s.port p).intake.bound = some ⟨i, lenient⟩ → (s.port p).intake.cutOff = false →
    (∀ b ∈ (s.port p).intake.buffers, b.frame = id) →
    (s.port p).intake.highest.elim 0 (fun h => h + 1) = f.stored → (s.port p).intake.capacity = some f.lines →
    (s.port p).seq.inPhase .frameWait = true → (s.port p).seq.bound = some (.frame id) → (s.port p).seq.index = some i →
    (s.port p).seq.currentStep = some st → st.lenient = lenient → st.chain = false → (s.port p).seq.starter = some m →
    s.frame? id = some f → f.width = w → f.readers = (⟨false, false⟩ : PerAnalysis Bool).set a true →
    (s.store.readers.get a).ready.length < (s.store.readers.get a).holdLimit →
    ((cc ≤ f.stored ∧ f.stored = f.lines ∧ f.tags.truncated = false ∧ delivered = f.stored ∧ want = f ∧
        status = .normal) ∨
      (cc ≤ f.stored ∧ f.stored < f.lines ∧ lenient = false ∧ delivered = f.stored ∧ want = f ∧
        status = .lengthMismatch) ∨
      (f.stored < cc ∧ cc ≤ f.lines ∧ lenient = false ∧ delivered = cc ∧
        want = { f with
          stored := cc, missing := f.missing + (cc - f.stored), tags := { f.tags with gaps := true } } ∧
        status = (if cc = f.lines ∧ f.tags.truncated = false then .normal else .lengthMismatch)) ∨
      (cc ≤ f.stored ∧ f.stored < f.lines ∧ lenient = true ∧ f.tags.isPartial = false ∧ delivered = f.stored ∧
        want = { f with
          stored := f.lines, missing := f.missing + (f.lines - f.stored), tags := { f.tags with padded := true } } ∧
        status = .normal) ∨
      (f.lines < cc ∧ f.stored = f.lines ∧ lenient = false ∧ delivered = f.stored ∧
        want = { f with tags := { f.tags with truncated := true } } ∧ status = .lengthMismatch)) →
    0 < want.stored →
    short = (if want.stored = f.stored then 0 else (want.stored * w + 65535) / 65536 - f.pages.length) →
    short ≤ f.stepReserved →
    ∃ t g, exec (.frameClose p (s.port p).link.listen cc) s = .next t ∧ (∀ q : Port, q ≠ p → t.port q = s.port q) ∧
      (t.port p).intake.state = .idle ∧ (t.port p).intake.openFrame = none ∧ (t.port p).intake.bound = none ∧
      (t.port p).intake.buffers = [] ∧ t.frame? id = some g ∧
      g = { want with
        state := .ready, closeTime := some s.now, readyTime := some s.now, handover := g.handover, stepReserved := 0
        pages := f.pages ++ s.store.freeList.take short } ∧
      t.store.freeList = s.store.freeList.drop short ∧
      t.store.reservedPages = s.store.reservedPages - f.stepReserved - (s.port p).seq.reservedPages ∧
      ((s.port p).intake.buffers = [] ∨ BuffersApart s p f →
        ∀ b x, f.stored * w ≤ b → b < want.stored * w → frameAddr g.pages b = some x → t.store.dram.read x = 0) ∧
      (BuffersApart s p f → ∀ b ∈ (s.port p).intake.buffers, ∀ j x, j < b.bytes.length →
        frameAddr f.pages (b.index * w + j) = some x → t.store.dram.read x = b.bytes.getD j 0) ∧
      (t.store.readers.get a).ready = (s.store.readers.get a).ready ++ [id] ∧
      (t.port p).seq.state = .ready ∧ (t.port p).seq.ended = some (status, i) ∧
      ∃ entry, entry = { id := g.id, port := g.port, origin := g.origin, cameraNo := g.cameraNo
                         cameraLines := g.cameraLines, openTime := g.openTime, readyTime := s.now, width := g.width
                         lines := g.lines, stored := g.stored, missing := g.missing, damaged := g.damaged
                         firstDamaged := g.firstDamaged, tags := g.tags, snapshot := g.snapshot, readers := g.readers
                         pins := g.pins.get a } ∧
        t.masters = ((s.notify a.master false
          (.frameReady entry ((s.store.readers.get a).ready.length + 1))).notify m (decide (status ≠ .normal))
          (.sequenceEvent p
            (.ended
              { status := status, holdFreed := (s.port p).lens.implicit && decide ((s.port p).lens.holder = some m)
                frame := if status = .normal then none else some g.id
                lengths := if status = .normal then none else some (delivered, f.lines), axis := none, preset := none })
            (s.port p).seq.runs (some i))).masters) ∧
  (∀ (s : State) (p : Port) (id i : Nat) (st : Step) (f : FrameRec) (m : Master), (s.port p).link.state = .up →
    (s.port p).link.attempt = none → (s.port p).intake.state = .filling → (s.port p).intake.openFrame = some id →
    (s.port p).intake.bound = some ⟨i, false⟩ → (s.port p).intake.buffers = [] →
    (s.port p).seq.inPhase .frameWait = true → (s.port p).seq.bound = some (.frame id) → (s.port p).seq.index = some i →
    (s.port p).seq.currentStep = some st → st.lenient = false → (s.port p).seq.starter = some m → s.frame? id = some f →
    f.stored = 0 → 0 < f.lines →
    ∃ t, exec (.frameClose p (s.port p).link.listen 0) s = .next t ∧ (∀ q : Port, q ≠ p → t.port q = s.port q) ∧
      (t.port p).intake.state = .idle ∧ t.frame? id = none ∧ (t.port p).seq.state = .ready ∧
      (t.port p).seq.ended = some (.lengthMismatch, i) ∧
      t.masters = (s.notify m true
        (.sequenceEvent p
          (.ended
            { status := .lengthMismatch
              holdFreed := (s.port p).lens.implicit && decide ((s.port p).lens.holder = some m)
              frame := none, lengths := some (0, f.lines), axis := none, preset := none })
          (s.port p).seq.runs (some i))).masters) ∧
  (∀ (s : State) (p : Port) (cc id : Nat) (f : FrameRec) (b : BufferedLine), (s.port p).link.state = .up →
    (s.port p).link.attempt = none → (s.port p).intake.state = .filling → (s.port p).intake.openFrame = some id →
    (s.port p).intake.bound = none → (s.port p).intake.buffers = [b] → b.frame = id →
    cc ≤ (s.port p).intake.highest.elim 0 (fun h => h + 1) → s.frame? id = some f → f.pages.Nodup →
    s.store.dram.wf = true →
    ∃ t, exec (.frameClose p (s.port p).link.listen cc) s = .next t ∧ (t.port p).intake.buffers = [] ∧
      ∀ i a, i < b.bytes.length → frameAddr f.pages (b.index * f.width + i) = some a →
        t.store.dram.read a = b.bytes.getD i 0) ∧
  (∀ (s : State) (p : Port) (cc i next lines : Nat) (st : Step) (lenient : Bool) (m : Master), (s.port p).link.state = .up →
    (s.port p).link.attempt = none → (s.port p).intake.state = .discarding → (s.port p).intake.bound = some ⟨i, lenient⟩ →
    next = (s.port p).intake.highest.elim 0 (fun h => h + 1) → (s.port p).intake.lines = some lines →
    (((s.port p).seq.inPhase .frameWait = false ∨ (s.port p).seq.bound ≠ some .discarded) →
      ∃ t, exec (.frameClose p (s.port p).link.listen cc) s = .next t ∧ SameBut s t p ∧
        (t.port p).seq = (s.port p).seq ∧ (t.port p).intake.state = .idle) ∧
    ((s.port p).seq.inPhase .frameWait = true → (s.port p).seq.bound = some .discarded → (s.port p).seq.index = some i →
      (s.port p).seq.currentStep = some st → st.chain = false → (s.port p).seq.starter = some m →
      ∀ told status lengths,
        ((∃ n, ((s.port p).intake.cause = some .discardStep ∨ (s.port p).intake.cause = some .noReaders) ∧
            (s.port p).intake.counts = some n ∧ status = .normal ∧ lengths = none ∧
            told = s.notify m false (.frameSummary p
              { received := n.received, missing := n.missing + (min cc lines - next), damaged := n.damaged })) ∨
          ((s.port p).intake.cause = some .widthMismatch ∧ status = .lengthMismatch ∧ lengths = some (0, lines) ∧
            told = s)) →
        ∃ t, exec (.frameClose p (s.port p).link.listen cc) s = .next t ∧ (∀ q : Port, q ≠ p → t.port q = s.port q) ∧
          (t.port p).intake.state = .idle ∧ (t.port p).intake.bound = none ∧ (t.port p).intake.counts = none ∧
          (t.port p).intake.cause = none ∧ (t.port p).seq.state = .ready ∧
          (t.port p).seq.ended = some (status, i) ∧
          t.masters = (told.notify m (decide (status ≠ .normal))
            (.sequenceEvent p
              (.ended
                { status := status, holdFreed := (s.port p).lens.implicit && decide ((s.port p).lens.holder = some m)
                  frame := none, lengths := lengths, axis := none, preset := none })
              (s.port p).seq.runs (some i))).masters))

end
end

