-- ==== Sys2Proof/Laws/State.lean ====
section
/-! SUPPORT. One lemma for each field under each update of the state, so that no proof unfolds a record update. -/

namespace Sys2Proof.Machine

variable (s : State)

/-! ## Vectors, masters, axes -/

@[simp] theorem vector_get_set_self {α : Type} {n : Nat} (v : Vector α n) (i : Fin n) (x : α) :
    (v.set i x).get i = x := by
  show (v.set i x)[i.val] = x
  simp

@[simp] theorem vector_get_set_of_ne {α : Type} {n : Nat} (v : Vector α n) {i j : Fin n} (x : α) (h : i ≠ j) :
    (v.set i x).get j = v.get j := by
  have hij : i.val ≠ j.val := fun e => h (Fin.ext e)
  show (v.set i x)[j.val] = v[j.val]
  simp [hij]

@[simp] theorem PerMaster.get_set_self {α : Type} (v : PerMaster α) (m : Master) (x : α) : (v.set m x).get m = x := by
  cases m <;> rfl

@[simp] theorem PerMaster.get_set_of_ne {α : Type} (v : PerMaster α) {m k : Master} (x : α) (h : m ≠ k) :
    (v.set m x).get k = v.get k := by
  cases m <;> cases k <;> first | rfl | exact absurd rfl h

@[simp] theorem PerAnalysis.get_set_self {α : Type} (v : PerAnalysis α) (m : Analysis) (x : α) : (v.set m x).get m = x := by
  cases m <;> rfl

@[simp] theorem PerAnalysis.get_set_of_ne {α : Type} (v : PerAnalysis α) {m k : Analysis} (x : α) (h : m ≠ k) :
    (v.set m x).get k = v.get k := by
  cases m <;> cases k <;> first | rfl | exact absurd rfl h

@[simp] theorem PerAxis.get_set_self {α : Type} (v : PerAxis α) (a : Axis) (x : α) : (v.set a x).get a = x := by
  cases a <;> rfl

@[simp] theorem PerAxis.get_set_of_ne {α : Type} (v : PerAxis α) {a b : Axis} (x : α) (h : a ≠ b) :
    (v.set a x).get b = v.get b := by
  cases a <;> cases b <;> first | rfl | exact absurd rfl h

@[simp] theorem PerAxis.get_map {α β : Type} (v : PerAxis α) (f : α → β) (a : Axis) : (v.map f).get a = f (v.get a) := by
  cases a <;> rfl

/-! ## The parts of the state -/

@[simp] theorem State.updPort_now (p : Port) (f : PortRec → PortRec) : (s.updPort p f).now = s.now := rfl
@[simp] theorem State.updPort_lastReset (p : Port) (f : PortRec → PortRec) : (s.updPort p f).lastReset = s.lastReset := rfl
@[simp] theorem State.updPort_mgr (p : Port) (f : PortRec → PortRec) : (s.updPort p f).mgr = s.mgr := rfl
@[simp] theorem State.updPort_engine (p : Port) (f : PortRec → PortRec) : (s.updPort p f).engine = s.engine := rfl
@[simp] theorem State.updPort_store (p : Port) (f : PortRec → PortRec) : (s.updPort p f).store = s.store := rfl
@[simp] theorem State.updPort_presets (p : Port) (f : PortRec → PortRec) : (s.updPort p f).presets = s.presets := rfl
@[simp] theorem State.updPort_lines (p : Port) (f : PortRec → PortRec) : (s.updPort p f).lines = s.lines := rfl
@[simp] theorem State.updPort_masters (p : Port) (f : PortRec → PortRec) : (s.updPort p f).masters = s.masters := rfl
@[simp] theorem State.updPort_pending (p : Port) (f : PortRec → PortRec) : (s.updPort p f).pending = s.pending := rfl
@[simp] theorem State.updPort_master (p : Port) (f : PortRec → PortRec) (k : Master) : (s.updPort p f).master k = s.master k := rfl

@[simp] theorem State.updMgr_now (f : PowerMgr → PowerMgr) : (s.updMgr f).now = s.now := rfl
@[simp] theorem State.updMgr_lastReset (f : PowerMgr → PowerMgr) : (s.updMgr f).lastReset = s.lastReset := rfl
@[simp] theorem State.updMgr_ports (f : PowerMgr → PowerMgr) : (s.updMgr f).ports = s.ports := rfl
@[simp] theorem State.updMgr_engine (f : PowerMgr → PowerMgr) : (s.updMgr f).engine = s.engine := rfl
@[simp] theorem State.updMgr_store (f : PowerMgr → PowerMgr) : (s.updMgr f).store = s.store := rfl
@[simp] theorem State.updMgr_presets (f : PowerMgr → PowerMgr) : (s.updMgr f).presets = s.presets := rfl
@[simp] theorem State.updMgr_lines (f : PowerMgr → PowerMgr) : (s.updMgr f).lines = s.lines := rfl
@[simp] theorem State.updMgr_masters (f : PowerMgr → PowerMgr) : (s.updMgr f).masters = s.masters := rfl
@[simp] theorem State.updMgr_pending (f : PowerMgr → PowerMgr) : (s.updMgr f).pending = s.pending := rfl
@[simp] theorem State.updMgr_mgr (f : PowerMgr → PowerMgr) : (s.updMgr f).mgr = f s.mgr := rfl
@[simp] theorem State.updMgr_port (f : PowerMgr → PowerMgr) (q : Port) : (s.updMgr f).port q = s.port q := rfl
@[simp] theorem State.updMgr_master (f : PowerMgr → PowerMgr) (k : Master) : (s.updMgr f).master k = s.master k := rfl

@[simp] theorem State.updEngine_now (f : BreakEngine → BreakEngine) : (s.updEngine f).now = s.now := rfl
@[simp] theorem State.updEngine_lastReset (f : BreakEngine → BreakEngine) : (s.updEngine f).lastReset = s.lastReset := rfl
@[simp] theorem State.updEngine_ports (f : BreakEngine → BreakEngine) : (s.updEngine f).ports = s.ports := rfl
@[simp] theorem State.updEngine_mgr (f : BreakEngine → BreakEngine) : (s.updEngine f).mgr = s.mgr := rfl
@[simp] theorem State.updEngine_store (f : BreakEngine → BreakEngine) : (s.updEngine f).store = s.store := rfl
@[simp] theorem State.updEngine_presets (f : BreakEngine → BreakEngine) : (s.updEngine f).presets = s.presets := rfl
@[simp] theorem State.updEngine_lines (f : BreakEngine → BreakEngine) : (s.updEngine f).lines = s.lines := rfl
@[simp] theorem State.updEngine_masters (f : BreakEngine → BreakEngine) : (s.updEngine f).masters = s.masters := rfl
@[simp] theorem State.updEngine_pending (f : BreakEngine → BreakEngine) : (s.updEngine f).pending = s.pending := rfl
@[simp] theorem State.updEngine_engine (f : BreakEngine → BreakEngine) : (s.updEngine f).engine = f s.engine := rfl
@[simp] theorem State.updEngine_port (f : BreakEngine → BreakEngine) (q : Port) : (s.updEngine f).port q = s.port q := rfl
@[simp] theorem State.updEngine_master (f : BreakEngine → BreakEngine) (k : Master) : (s.updEngine f).master k = s.master k := rfl

@[simp] theorem State.updStore_now (f : Store → Store) : (s.updStore f).now = s.now := rfl
@[simp] theorem State.updStore_lastReset (f : Store → Store) : (s.updStore f).lastReset = s.lastReset := rfl
@[simp] theorem State.updStore_ports (f : Store → Store) : (s.updStore f).ports = s.ports := rfl
@[simp] theorem State.updStore_mgr (f : Store → Store) : (s.updStore f).mgr = s.mgr := rfl
@[simp] theorem State.updStore_engine (f : Store → Store) : (s.updStore f).engine = s.engine := rfl
@[simp] theorem State.updStore_presets (f : Store → Store) : (s.updStore f).presets = s.presets := rfl
@[simp] theorem State.updStore_lines (f : Store → Store) : (s.updStore f).lines = s.lines := rfl
@[simp] theorem State.updStore_masters (f : Store → Store) : (s.updStore f).masters = s.masters := rfl
@[simp] theorem State.updStore_pending (f : Store → Store) : (s.updStore f).pending = s.pending := rfl
@[simp] theorem State.updStore_store (f : Store → Store) : (s.updStore f).store = f s.store := rfl
@[simp] theorem State.updStore_port (f : Store → Store) (q : Port) : (s.updStore f).port q = s.port q := rfl
@[simp] theorem State.updStore_master (f : Store → Store) (k : Master) : (s.updStore f).master k = s.master k := rfl

@[simp] theorem State.updPresets_now (f : PresetStore → PresetStore) : (s.updPresets f).now = s.now := rfl
@[simp] theorem State.updPresets_lastReset (f : PresetStore → PresetStore) : (s.updPresets f).lastReset = s.lastReset := rfl
@[simp] theorem State.updPresets_ports (f : PresetStore → PresetStore) : (s.updPresets f).ports = s.ports := rfl
@[simp] theorem State.updPresets_mgr (f : PresetStore → PresetStore) : (s.updPresets f).mgr = s.mgr := rfl
@[simp] theorem State.updPresets_engine (f : PresetStore → PresetStore) : (s.updPresets f).engine = s.engine := rfl
@[simp] theorem State.updPresets_store (f : PresetStore → PresetStore) : (s.updPresets f).store = s.store := rfl
@[simp] theorem State.updPresets_lines (f : PresetStore → PresetStore) : (s.updPresets f).lines = s.lines := rfl
@[simp] theorem State.updPresets_masters (f : PresetStore → PresetStore) : (s.updPresets f).masters = s.masters := rfl
@[simp] theorem State.updPresets_pending (f : PresetStore → PresetStore) : (s.updPresets f).pending = s.pending := rfl
@[simp] theorem State.updPresets_presets (f : PresetStore → PresetStore) : (s.updPresets f).presets = f s.presets := rfl
@[simp] theorem State.updPresets_port (f : PresetStore → PresetStore) (q : Port) : (s.updPresets f).port q = s.port q := rfl
@[simp] theorem State.updPresets_master (f : PresetStore → PresetStore) (k : Master) : (s.updPresets f).master k = s.master k := rfl

@[simp] theorem State.updLine_now (l : LineNo) (f : LineRec → LineRec) : (s.updLine l f).now = s.now := rfl
@[simp] theorem State.updLine_lastReset (l : LineNo) (f : LineRec → LineRec) : (s.updLine l f).lastReset = s.lastReset := rfl
@[simp] theorem State.updLine_ports (l : LineNo) (f : LineRec → LineRec) : (s.updLine l f).ports = s.ports := rfl
@[simp] theorem State.updLine_mgr (l : LineNo) (f : LineRec → LineRec) : (s.updLine l f).mgr = s.mgr := rfl
@[simp] theorem State.updLine_engine (l : LineNo) (f : LineRec → LineRec) : (s.updLine l f).engine = s.engine := rfl
@[simp] theorem State.updLine_store (l : LineNo) (f : LineRec → LineRec) : (s.updLine l f).store = s.store := rfl
@[simp] theorem State.updLine_presets (l : LineNo) (f : LineRec → LineRec) : (s.updLine l f).presets = s.presets := rfl
@[simp] theorem State.updLine_masters (l : LineNo) (f : LineRec → LineRec) : (s.updLine l f).masters = s.masters := rfl
@[simp] theorem State.updLine_pending (l : LineNo) (f : LineRec → LineRec) : (s.updLine l f).pending = s.pending := rfl
@[simp] theorem State.updLine_port (l : LineNo) (f : LineRec → LineRec) (q : Port) : (s.updLine l f).port q = s.port q := rfl
@[simp] theorem State.updLine_master (l : LineNo) (f : LineRec → LineRec) (k : Master) : (s.updLine l f).master k = s.master k := rfl

@[simp] theorem State.updMaster_now (m : Master) (f : MasterRec → MasterRec) : (s.updMaster m f).now = s.now := rfl
@[simp] theorem State.updMaster_lastReset (m : Master) (f : MasterRec → MasterRec) : (s.updMaster m f).lastReset = s.lastReset := rfl
@[simp] theorem State.updMaster_ports (m : Master) (f : MasterRec → MasterRec) : (s.updMaster m f).ports = s.ports := rfl
@[simp] theorem State.updMaster_mgr (m : Master) (f : MasterRec → MasterRec) : (s.updMaster m f).mgr = s.mgr := rfl
@[simp] theorem State.updMaster_engine (m : Master) (f : MasterRec → MasterRec) : (s.updMaster m f).engine = s.engine := rfl
@[simp] theorem State.updMaster_store (m : Master) (f : MasterRec → MasterRec) : (s.updMaster m f).store = s.store := rfl
@[simp] theorem State.updMaster_presets (m : Master) (f : MasterRec → MasterRec) : (s.updMaster m f).presets = s.presets := rfl
@[simp] theorem State.updMaster_lines (m : Master) (f : MasterRec → MasterRec) : (s.updMaster m f).lines = s.lines := rfl
@[simp] theorem State.updMaster_pending (m : Master) (f : MasterRec → MasterRec) : (s.updMaster m f).pending = s.pending := rfl
@[simp] theorem State.updMaster_port (m : Master) (f : MasterRec → MasterRec) (q : Port) : (s.updMaster m f).port q = s.port q := rfl

@[simp] theorem State.updPort_port_self (p : Port) (f : PortRec → PortRec) : (s.updPort p f).port p = f (s.port p) := by
  simp [State.updPort, State.port]

@[simp] theorem State.updPort_port_of_ne {p q : Port} (f : PortRec → PortRec) (h : p ≠ q) :
    (s.updPort p f).port q = s.port q := by
  simp [State.updPort, State.port, h]

@[simp] theorem State.updLine_line_self (l : LineNo) (f : LineRec → LineRec) :
    (s.updLine l f).lines.get l = f (s.lines.get l) := by
  simp [State.updLine]

@[simp] theorem State.updLine_line_of_ne {l k : LineNo} (f : LineRec → LineRec) (h : l ≠ k) :
    (s.updLine l f).lines.get k = s.lines.get k := by
  simp [State.updLine, h]

@[simp] theorem State.updMaster_master_self (m : Master) (f : MasterRec → MasterRec) :
    (s.updMaster m f).master m = (f (s.master m)).refreshed m := by
  simp [State.updMaster, State.master]

@[simp] theorem State.updMaster_master_of_ne {m k : Master} (f : MasterRec → MasterRec) (h : m ≠ k) :
    (s.updMaster m f).master k = s.master k := by
  simp [State.updMaster, State.master, h]

/-! ## The parts of a port record -/

@[simp] theorem State.updLink_now (p : Port) (f : LinkRec → LinkRec) : (s.updLink p f).now = s.now := rfl
@[simp] theorem State.updLink_lastReset (p : Port) (f : LinkRec → LinkRec) : (s.updLink p f).lastReset = s.lastReset := rfl
@[simp] theorem State.updLink_mgr (p : Port) (f : LinkRec → LinkRec) : (s.updLink p f).mgr = s.mgr := rfl
@[simp] theorem State.updLink_engine (p : Port) (f : LinkRec → LinkRec) : (s.updLink p f).engine = s.engine := rfl
@[simp] theorem State.updLink_store (p : Port) (f : LinkRec → LinkRec) : (s.updLink p f).store = s.store := rfl
@[simp] theorem State.updLink_presets (p : Port) (f : LinkRec → LinkRec) : (s.updLink p f).presets = s.presets := rfl
@[simp] theorem State.updLink_lines (p : Port) (f : LinkRec → LinkRec) : (s.updLink p f).lines = s.lines := rfl
@[simp] theorem State.updLink_masters (p : Port) (f : LinkRec → LinkRec) : (s.updLink p f).masters = s.masters := rfl
@[simp] theorem State.updLink_pending (p : Port) (f : LinkRec → LinkRec) : (s.updLink p f).pending = s.pending := rfl
@[simp] theorem State.updLink_master (p : Port) (f : LinkRec → LinkRec) (k : Master) : (s.updLink p f).master k = s.master k := rfl
@[simp] theorem State.updLink_port_link (p : Port) (f : LinkRec → LinkRec) :
    ((s.updLink p f).port p).link = f (s.port p).link := by
  simp [State.updLink]
@[simp] theorem State.updLink_port_counters (p : Port) (f : LinkRec → LinkRec) :
    ((s.updLink p f).port p).counters = (s.port p).counters := by
  simp [State.updLink]
@[simp] theorem State.updLink_port_waiting (p : Port) (f : LinkRec → LinkRec) :
    ((s.updLink p f).port p).waiting = (s.port p).waiting := by
  simp [State.updLink]
@[simp] theorem State.updLink_port_lastSent (p : Port) (f : LinkRec → LinkRec) :
    ((s.updLink p f).port p).lastSent = (s.port p).lastSent := by
  simp [State.updLink]
@[simp] theorem State.updLink_port_power (p : Port) (f : LinkRec → LinkRec) :
    ((s.updLink p f).port p).power = (s.port p).power := by
  simp [State.updLink]
@[simp] theorem State.updLink_port_marks (p : Port) (f : LinkRec → LinkRec) :
    ((s.updLink p f).port p).marks = (s.port p).marks := by
  simp [State.updLink]
@[simp] theorem State.updLink_port_breakLog (p : Port) (f : LinkRec → LinkRec) :
    ((s.updLink p f).port p).breakLog = (s.port p).breakLog := by
  simp [State.updLink]
@[simp] theorem State.updLink_port_profile (p : Port) (f : LinkRec → LinkRec) :
    ((s.updLink p f).port p).profile = (s.port p).profile := by
  simp [State.updLink]
@[simp] theorem State.updLink_port_intake (p : Port) (f : LinkRec → LinkRec) :
    ((s.updLink p f).port p).intake = (s.port p).intake := by
  simp [State.updLink]
@[simp] theorem State.updLink_port_subscribers (p : Port) (f : LinkRec → LinkRec) :
    ((s.updLink p f).port p).subscribers = (s.port p).subscribers := by
  simp [State.updLink]
@[simp] theorem State.updLink_port_lens (p : Port) (f : LinkRec → LinkRec) :
    ((s.updLink p f).port p).lens = (s.port p).lens := by
  simp [State.updLink]
@[simp] theorem State.updLink_port_seq (p : Port) (f : LinkRec → LinkRec) :
    ((s.updLink p f).port p).seq = (s.port p).seq := by
  simp [State.updLink]
@[simp] theorem State.updLink_port_of_ne {p q : Port} (f : LinkRec → LinkRec) (h : p ≠ q) : (s.updLink p f).port q = s.port q := by
  simp [State.updLink, h]

@[simp] theorem State.updPower_now (p : Port) (f : PowerRec → PowerRec) : (s.updPower p f).now = s.now := rfl
@[simp] theorem State.updPower_lastReset (p : Port) (f : PowerRec → PowerRec) : (s.updPower p f).lastReset = s.lastReset := rfl
@[simp] theorem State.updPower_mgr (p : Port) (f : PowerRec → PowerRec) : (s.updPower p f).mgr = s.mgr := rfl
@[simp] theorem State.updPower_engine (p : Port) (f : PowerRec → PowerRec) : (s.updPower p f).engine = s.engine := rfl
@[simp] theorem State.updPower_store (p : Port) (f : PowerRec → PowerRec) : (s.updPower p f).store = s.store := rfl
@[simp] theorem State.updPower_presets (p : Port) (f : PowerRec → PowerRec) : (s.updPower p f).presets = s.presets := rfl
@[simp] theorem State.updPower_lines (p : Port) (f : PowerRec → PowerRec) : (s.updPower p f).lines = s.lines := rfl
@[simp] theorem State.updPower_masters (p : Port) (f : PowerRec → PowerRec) : (s.updPower p f).masters = s.masters := rfl
@[simp] theorem State.updPower_pending (p : Port) (f : PowerRec → PowerRec) : (s.updPower p f).pending = s.pending := rfl
@[simp] theorem State.updPower_master (p : Port) (f : PowerRec → PowerRec) (k : Master) : (s.updPower p f).master k = s.master k := rfl
@[simp] theorem State.updPower_port_link (p : Port) (f : PowerRec → PowerRec) :
    ((s.updPower p f).port p).link = (s.port p).link := by
  simp [State.updPower]
@[simp] theorem State.updPower_port_counters (p : Port) (f : PowerRec → PowerRec) :
    ((s.updPower p f).port p).counters = (s.port p).counters := by
  simp [State.updPower]
@[simp] theorem State.updPower_port_waiting (p : Port) (f : PowerRec → PowerRec) :
    ((s.updPower p f).port p).waiting = (s.port p).waiting := by
  simp [State.updPower]
@[simp] theorem State.updPower_port_lastSent (p : Port) (f : PowerRec → PowerRec) :
    ((s.updPower p f).port p).lastSent = (s.port p).lastSent := by
  simp [State.updPower]
@[simp] theorem State.updPower_port_power (p : Port) (f : PowerRec → PowerRec) :
    ((s.updPower p f).port p).power = f (s.port p).power := by
  simp [State.updPower]
@[simp] theorem State.updPower_port_marks (p : Port) (f : PowerRec → PowerRec) :
    ((s.updPower p f).port p).marks = (s.port p).marks := by
  simp [State.updPower]
@[simp] theorem State.updPower_port_breakLog (p : Port) (f : PowerRec → PowerRec) :
    ((s.updPower p f).port p).breakLog = (s.port p).breakLog := by
  simp [State.updPower]
@[simp] theorem State.updPower_port_profile (p : Port) (f : PowerRec → PowerRec) :
    ((s.updPower p f).port p).profile = (s.port p).profile := by
  simp [State.updPower]
@[simp] theorem State.updPower_port_intake (p : Port) (f : PowerRec → PowerRec) :
    ((s.updPower p f).port p).intake = (s.port p).intake := by
  simp [State.updPower]
@[simp] theorem State.updPower_port_subscribers (p : Port) (f : PowerRec → PowerRec) :
    ((s.updPower p f).port p).subscribers = (s.port p).subscribers := by
  simp [State.updPower]
@[simp] theorem State.updPower_port_lens (p : Port) (f : PowerRec → PowerRec) :
    ((s.updPower p f).port p).lens = (s.port p).lens := by
  simp [State.updPower]
@[simp] theorem State.updPower_port_seq (p : Port) (f : PowerRec → PowerRec) :
    ((s.updPower p f).port p).seq = (s.port p).seq := by
  simp [State.updPower]
@[simp] theorem State.updPower_port_of_ne {p q : Port} (f : PowerRec → PowerRec) (h : p ≠ q) : (s.updPower p f).port q = s.port q := by
  simp [State.updPower, h]

@[simp] theorem State.updMarks_now (p : Port) (f : Marks → Marks) : (s.updMarks p f).now = s.now := rfl
@[simp] theorem State.updMarks_lastReset (p : Port) (f : Marks → Marks) : (s.updMarks p f).lastReset = s.lastReset := rfl
@[simp] theorem State.updMarks_mgr (p : Port) (f : Marks → Marks) : (s.updMarks p f).mgr = s.mgr := rfl
@[simp] theorem State.updMarks_engine (p : Port) (f : Marks → Marks) : (s.updMarks p f).engine = s.engine := rfl
@[simp] theorem State.updMarks_store (p : Port) (f : Marks → Marks) : (s.updMarks p f).store = s.store := rfl
@[simp] theorem State.updMarks_presets (p : Port) (f : Marks → Marks) : (s.updMarks p f).presets = s.presets := rfl
@[simp] theorem State.updMarks_lines (p : Port) (f : Marks → Marks) : (s.updMarks p f).lines = s.lines := rfl
@[simp] theorem State.updMarks_masters (p : Port) (f : Marks → Marks) : (s.updMarks p f).masters = s.masters := rfl
@[simp] theorem State.updMarks_pending (p : Port) (f : Marks → Marks) : (s.updMarks p f).pending = s.pending := rfl
@[simp] theorem State.updMarks_master (p : Port) (f : Marks → Marks) (k : Master) : (s.updMarks p f).master k = s.master k := rfl
@[simp] theorem State.updMarks_port_link (p : Port) (f : Marks → Marks) :
    ((s.updMarks p f).port p).link = (s.port p).link := by
  simp [State.updMarks]
@[simp] theorem State.updMarks_port_counters (p : Port) (f : Marks → Marks) :
    ((s.updMarks p f).port p).counters = (s.port p).counters := by
  simp [State.updMarks]
@[simp] theorem State.updMarks_port_waiting (p : Port) (f : Marks → Marks) :
    ((s.updMarks p f).port p).waiting = (s.port p).waiting := by
  simp [State.updMarks]
@[simp] theorem State.updMarks_port_lastSent (p : Port) (f : Marks → Marks) :
    ((s.updMarks p f).port p).lastSent = (s.port p).lastSent := by
  simp [State.updMarks]
@[simp] theorem State.updMarks_port_power (p : Port) (f : Marks → Marks) :
    ((s.updMarks p f).port p).power = (s.port p).power := by
  simp [State.updMarks]
@[simp] theorem State.updMarks_port_marks (p : Port) (f : Marks → Marks) :
    ((s.updMarks p f).port p).marks = f (s.port p).marks := by
  simp [State.updMarks]
@[simp] theorem State.updMarks_port_breakLog (p : Port) (f : Marks → Marks) :
    ((s.updMarks p f).port p).breakLog = (s.port p).breakLog := by
  simp [State.updMarks]
@[simp] theorem State.updMarks_port_profile (p : Port) (f : Marks → Marks) :
    ((s.updMarks p f).port p).profile = (s.port p).profile := by
  simp [State.updMarks]
@[simp] theorem State.updMarks_port_intake (p : Port) (f : Marks → Marks) :
    ((s.updMarks p f).port p).intake = (s.port p).intake := by
  simp [State.updMarks]
@[simp] theorem State.updMarks_port_subscribers (p : Port) (f : Marks → Marks) :
    ((s.updMarks p f).port p).subscribers = (s.port p).subscribers := by
  simp [State.updMarks]
@[simp] theorem State.updMarks_port_lens (p : Port) (f : Marks → Marks) :
    ((s.updMarks p f).port p).lens = (s.port p).lens := by
  simp [State.updMarks]
@[simp] theorem State.updMarks_port_seq (p : Port) (f : Marks → Marks) :
    ((s.updMarks p f).port p).seq = (s.port p).seq := by
  simp [State.updMarks]
@[simp] theorem State.updMarks_port_of_ne {p q : Port} (f : Marks → Marks) (h : p ≠ q) : (s.updMarks p f).port q = s.port q := by
  simp [State.updMarks, h]

@[simp] theorem State.updCounters_now (p : Port) (f : Counters → Counters) : (s.updCounters p f).now = s.now := rfl
@[simp] theorem State.updCounters_lastReset (p : Port) (f : Counters → Counters) : (s.updCounters p f).lastReset = s.lastReset := rfl
@[simp] theorem State.updCounters_mgr (p : Port) (f : Counters → Counters) : (s.updCounters p f).mgr = s.mgr := rfl
@[simp] theorem State.updCounters_engine (p : Port) (f : Counters → Counters) : (s.updCounters p f).engine = s.engine := rfl
@[simp] theorem State.updCounters_store (p : Port) (f : Counters → Counters) : (s.updCounters p f).store = s.store := rfl
@[simp] theorem State.updCounters_presets (p : Port) (f : Counters → Counters) : (s.updCounters p f).presets = s.presets := rfl
@[simp] theorem State.updCounters_lines (p : Port) (f : Counters → Counters) : (s.updCounters p f).lines = s.lines := rfl
@[simp] theorem State.updCounters_masters (p : Port) (f : Counters → Counters) : (s.updCounters p f).masters = s.masters := rfl
@[simp] theorem State.updCounters_pending (p : Port) (f : Counters → Counters) : (s.updCounters p f).pending = s.pending := rfl
@[simp] theorem State.updCounters_master (p : Port) (f : Counters → Counters) (k : Master) : (s.updCounters p f).master k = s.master k := rfl
@[simp] theorem State.updCounters_port_link (p : Port) (f : Counters → Counters) :
    ((s.updCounters p f).port p).link = (s.port p).link := by
  simp [State.updCounters]
@[simp] theorem State.updCounters_port_counters (p : Port) (f : Counters → Counters) :
    ((s.updCounters p f).port p).counters = f (s.port p).counters := by
  simp [State.updCounters]
@[simp] theorem State.updCounters_port_waiting (p : Port) (f : Counters → Counters) :
    ((s.updCounters p f).port p).waiting = (s.port p).waiting := by
  simp [State.updCounters]
@[simp] theorem State.updCounters_port_lastSent (p : Port) (f : Counters → Counters) :
    ((s.updCounters p f).port p).lastSent = (s.port p).lastSent := by
  simp [State.updCounters]
@[simp] theorem State.updCounters_port_power (p : Port) (f : Counters → Counters) :
    ((s.updCounters p f).port p).power = (s.port p).power := by
  simp [State.updCounters]
@[simp] theorem State.updCounters_port_marks (p : Port) (f : Counters → Counters) :
    ((s.updCounters p f).port p).marks = (s.port p).marks := by
  simp [State.updCounters]
@[simp] theorem State.updCounters_port_breakLog (p : Port) (f : Counters → Counters) :
    ((s.updCounters p f).port p).breakLog = (s.port p).breakLog := by
  simp [State.updCounters]
@[simp] theorem State.updCounters_port_profile (p : Port) (f : Counters → Counters) :
    ((s.updCounters p f).port p).profile = (s.port p).profile := by
  simp [State.updCounters]
@[simp] theorem State.updCounters_port_intake (p : Port) (f : Counters → Counters) :
    ((s.updCounters p f).port p).intake = (s.port p).intake := by
  simp [State.updCounters]
@[simp] theorem State.updCounters_port_subscribers (p : Port) (f : Counters → Counters) :
    ((s.updCounters p f).port p).subscribers = (s.port p).subscribers := by
  simp [State.updCounters]
@[simp] theorem State.updCounters_port_lens (p : Port) (f : Counters → Counters) :
    ((s.updCounters p f).port p).lens = (s.port p).lens := by
  simp [State.updCounters]
@[simp] theorem State.updCounters_port_seq (p : Port) (f : Counters → Counters) :
    ((s.updCounters p f).port p).seq = (s.port p).seq := by
  simp [State.updCounters]
@[simp] theorem State.updCounters_port_of_ne {p q : Port} (f : Counters → Counters) (h : p ≠ q) : (s.updCounters p f).port q = s.port q := by
  simp [State.updCounters, h]

@[simp] theorem State.updIntake_now (p : Port) (f : IntakeRec → IntakeRec) : (s.updIntake p f).now = s.now := rfl
@[simp] theorem State.updIntake_lastReset (p : Port) (f : IntakeRec → IntakeRec) : (s.updIntake p f).lastReset = s.lastReset := rfl
@[simp] theorem State.updIntake_mgr (p : Port) (f : IntakeRec → IntakeRec) : (s.updIntake p f).mgr = s.mgr := rfl
@[simp] theorem State.updIntake_engine (p : Port) (f : IntakeRec → IntakeRec) : (s.updIntake p f).engine = s.engine := rfl
@[simp] theorem State.updIntake_store (p : Port) (f : IntakeRec → IntakeRec) : (s.updIntake p f).store = s.store := rfl
@[simp] theorem State.updIntake_presets (p : Port) (f : IntakeRec → IntakeRec) : (s.updIntake p f).presets = s.presets := rfl
@[simp] theorem State.updIntake_lines (p : Port) (f : IntakeRec → IntakeRec) : (s.updIntake p f).lines = s.lines := rfl
@[simp] theorem State.updIntake_masters (p : Port) (f : IntakeRec → IntakeRec) : (s.updIntake p f).masters = s.masters := rfl
@[simp] theorem State.updIntake_pending (p : Port) (f : IntakeRec → IntakeRec) : (s.updIntake p f).pending = s.pending := rfl
@[simp] theorem State.updIntake_master (p : Port) (f : IntakeRec → IntakeRec) (k : Master) : (s.updIntake p f).master k = s.master k := rfl
@[simp] theorem State.updIntake_port_link (p : Port) (f : IntakeRec → IntakeRec) :
    ((s.updIntake p f).port p).link = (s.port p).link := by
  simp [State.updIntake]
@[simp] theorem State.updIntake_port_counters (p : Port) (f : IntakeRec → IntakeRec) :
    ((s.updIntake p f).port p).counters = (s.port p).counters := by
  simp [State.updIntake]
@[simp] theorem State.updIntake_port_waiting (p : Port) (f : IntakeRec → IntakeRec) :
    ((s.updIntake p f).port p).waiting = (s.port p).waiting := by
  simp [State.updIntake]
@[simp] theorem State.updIntake_port_lastSent (p : Port) (f : IntakeRec → IntakeRec) :
    ((s.updIntake p f).port p).lastSent = (s.port p).lastSent := by
  simp [State.updIntake]
@[simp] theorem State.updIntake_port_power (p : Port) (f : IntakeRec → IntakeRec) :
    ((s.updIntake p f).port p).power = (s.port p).power := by
  simp [State.updIntake]
@[simp] theorem State.updIntake_port_marks (p : Port) (f : IntakeRec → IntakeRec) :
    ((s.updIntake p f).port p).marks = (s.port p).marks := by
  simp [State.updIntake]
@[simp] theorem State.updIntake_port_breakLog (p : Port) (f : IntakeRec → IntakeRec) :
    ((s.updIntake p f).port p).breakLog = (s.port p).breakLog := by
  simp [State.updIntake]
@[simp] theorem State.updIntake_port_profile (p : Port) (f : IntakeRec → IntakeRec) :
    ((s.updIntake p f).port p).profile = (s.port p).profile := by
  simp [State.updIntake]
@[simp] theorem State.updIntake_port_intake (p : Port) (f : IntakeRec → IntakeRec) :
    ((s.updIntake p f).port p).intake = f (s.port p).intake := by
  simp [State.updIntake]
@[simp] theorem State.updIntake_port_subscribers (p : Port) (f : IntakeRec → IntakeRec) :
    ((s.updIntake p f).port p).subscribers = (s.port p).subscribers := by
  simp [State.updIntake]
@[simp] theorem State.updIntake_port_lens (p : Port) (f : IntakeRec → IntakeRec) :
    ((s.updIntake p f).port p).lens = (s.port p).lens := by
  simp [State.updIntake]
@[simp] theorem State.updIntake_port_seq (p : Port) (f : IntakeRec → IntakeRec) :
    ((s.updIntake p f).port p).seq = (s.port p).seq := by
  simp [State.updIntake]
@[simp] theorem State.updIntake_port_of_ne {p q : Port} (f : IntakeRec → IntakeRec) (h : p ≠ q) : (s.updIntake p f).port q = s.port q := by
  simp [State.updIntake, h]

@[simp] theorem State.updLens_now (p : Port) (f : LensRec → LensRec) : (s.updLens p f).now = s.now := rfl
@[simp] theorem State.updLens_lastReset (p : Port) (f : LensRec → LensRec) : (s.updLens p f).lastReset = s.lastReset := rfl
@[simp] theorem State.updLens_mgr (p : Port) (f : LensRec → LensRec) : (s.updLens p f).mgr = s.mgr := rfl
@[simp] theorem State.updLens_engine (p : Port) (f : LensRec → LensRec) : (s.updLens p f).engine = s.engine := rfl
@[simp] theorem State.updLens_store (p : Port) (f : LensRec → LensRec) : (s.updLens p f).store = s.store := rfl
@[simp] theorem State.updLens_presets (p : Port) (f : LensRec → LensRec) : (s.updLens p f).presets = s.presets := rfl
@[simp] theorem State.updLens_lines (p : Port) (f : LensRec → LensRec) : (s.updLens p f).lines = s.lines := rfl
@[simp] theorem State.updLens_masters (p : Port) (f : LensRec → LensRec) : (s.updLens p f).masters = s.masters := rfl
@[simp] theorem State.updLens_pending (p : Port) (f : LensRec → LensRec) : (s.updLens p f).pending = s.pending := rfl
@[simp] theorem State.updLens_master (p : Port) (f : LensRec → LensRec) (k : Master) : (s.updLens p f).master k = s.master k := rfl
@[simp] theorem State.updLens_port_link (p : Port) (f : LensRec → LensRec) :
    ((s.updLens p f).port p).link = (s.port p).link := by
  simp [State.updLens]
@[simp] theorem State.updLens_port_counters (p : Port) (f : LensRec → LensRec) :
    ((s.updLens p f).port p).counters = (s.port p).counters := by
  simp [State.updLens]
@[simp] theorem State.updLens_port_waiting (p : Port) (f : LensRec → LensRec) :
    ((s.updLens p f).port p).waiting = (s.port p).waiting := by
  simp [State.updLens]
@[simp] theorem State.updLens_port_lastSent (p : Port) (f : LensRec → LensRec) :
    ((s.updLens p f).port p).lastSent = (s.port p).lastSent := by
  simp [State.updLens]
@[simp] theorem State.updLens_port_power (p : Port) (f : LensRec → LensRec) :
    ((s.updLens p f).port p).power = (s.port p).power := by
  simp [State.updLens]
@[simp] theorem State.updLens_port_marks (p : Port) (f : LensRec → LensRec) :
    ((s.updLens p f).port p).marks = (s.port p).marks := by
  simp [State.updLens]
@[simp] theorem State.updLens_port_breakLog (p : Port) (f : LensRec → LensRec) :
    ((s.updLens p f).port p).breakLog = (s.port p).breakLog := by
  simp [State.updLens]
@[simp] theorem State.updLens_port_profile (p : Port) (f : LensRec → LensRec) :
    ((s.updLens p f).port p).profile = (s.port p).profile := by
  simp [State.updLens]
@[simp] theorem State.updLens_port_intake (p : Port) (f : LensRec → LensRec) :
    ((s.updLens p f).port p).intake = (s.port p).intake := by
  simp [State.updLens]
@[simp] theorem State.updLens_port_subscribers (p : Port) (f : LensRec → LensRec) :
    ((s.updLens p f).port p).subscribers = (s.port p).subscribers := by
  simp [State.updLens]
@[simp] theorem State.updLens_port_lens (p : Port) (f : LensRec → LensRec) :
    ((s.updLens p f).port p).lens = f (s.port p).lens := by
  simp [State.updLens]
@[simp] theorem State.updLens_port_seq (p : Port) (f : LensRec → LensRec) :
    ((s.updLens p f).port p).seq = (s.port p).seq := by
  simp [State.updLens]
@[simp] theorem State.updLens_port_of_ne {p q : Port} (f : LensRec → LensRec) (h : p ≠ q) : (s.updLens p f).port q = s.port q := by
  simp [State.updLens, h]

@[simp] theorem State.updSeq_now (p : Port) (f : SeqCtx → SeqCtx) : (s.updSeq p f).now = s.now := rfl
@[simp] theorem State.updSeq_lastReset (p : Port) (f : SeqCtx → SeqCtx) : (s.updSeq p f).lastReset = s.lastReset := rfl
@[simp] theorem State.updSeq_mgr (p : Port) (f : SeqCtx → SeqCtx) : (s.updSeq p f).mgr = s.mgr := rfl
@[simp] theorem State.updSeq_engine (p : Port) (f : SeqCtx → SeqCtx) : (s.updSeq p f).engine = s.engine := rfl
@[simp] theorem State.updSeq_store (p : Port) (f : SeqCtx → SeqCtx) : (s.updSeq p f).store = s.store := rfl
@[simp] theorem State.updSeq_presets (p : Port) (f : SeqCtx → SeqCtx) : (s.updSeq p f).presets = s.presets := rfl
@[simp] theorem State.updSeq_lines (p : Port) (f : SeqCtx → SeqCtx) : (s.updSeq p f).lines = s.lines := rfl
@[simp] theorem State.updSeq_masters (p : Port) (f : SeqCtx → SeqCtx) : (s.updSeq p f).masters = s.masters := rfl
@[simp] theorem State.updSeq_pending (p : Port) (f : SeqCtx → SeqCtx) : (s.updSeq p f).pending = s.pending := rfl
@[simp] theorem State.updSeq_master (p : Port) (f : SeqCtx → SeqCtx) (k : Master) : (s.updSeq p f).master k = s.master k := rfl
@[simp] theorem State.updSeq_port_link (p : Port) (f : SeqCtx → SeqCtx) :
    ((s.updSeq p f).port p).link = (s.port p).link := by
  simp [State.updSeq]
@[simp] theorem State.updSeq_port_counters (p : Port) (f : SeqCtx → SeqCtx) :
    ((s.updSeq p f).port p).counters = (s.port p).counters := by
  simp [State.updSeq]
@[simp] theorem State.updSeq_port_waiting (p : Port) (f : SeqCtx → SeqCtx) :
    ((s.updSeq p f).port p).waiting = (s.port p).waiting := by
  simp [State.updSeq]
@[simp] theorem State.updSeq_port_lastSent (p : Port) (f : SeqCtx → SeqCtx) :
    ((s.updSeq p f).port p).lastSent = (s.port p).lastSent := by
  simp [State.updSeq]
@[simp] theorem State.updSeq_port_power (p : Port) (f : SeqCtx → SeqCtx) :
    ((s.updSeq p f).port p).power = (s.port p).power := by
  simp [State.updSeq]
@[simp] theorem State.updSeq_port_marks (p : Port) (f : SeqCtx → SeqCtx) :
    ((s.updSeq p f).port p).marks = (s.port p).marks := by
  simp [State.updSeq]
@[simp] theorem State.updSeq_port_breakLog (p : Port) (f : SeqCtx → SeqCtx) :
    ((s.updSeq p f).port p).breakLog = (s.port p).breakLog := by
  simp [State.updSeq]
@[simp] theorem State.updSeq_port_profile (p : Port) (f : SeqCtx → SeqCtx) :
    ((s.updSeq p f).port p).profile = (s.port p).profile := by
  simp [State.updSeq]
@[simp] theorem State.updSeq_port_intake (p : Port) (f : SeqCtx → SeqCtx) :
    ((s.updSeq p f).port p).intake = (s.port p).intake := by
  simp [State.updSeq]
@[simp] theorem State.updSeq_port_subscribers (p : Port) (f : SeqCtx → SeqCtx) :
    ((s.updSeq p f).port p).subscribers = (s.port p).subscribers := by
  simp [State.updSeq]
@[simp] theorem State.updSeq_port_lens (p : Port) (f : SeqCtx → SeqCtx) :
    ((s.updSeq p f).port p).lens = (s.port p).lens := by
  simp [State.updSeq]
@[simp] theorem State.updSeq_port_seq (p : Port) (f : SeqCtx → SeqCtx) :
    ((s.updSeq p f).port p).seq = f (s.port p).seq := by
  simp [State.updSeq]
@[simp] theorem State.updSeq_port_of_ne {p q : Port} (f : SeqCtx → SeqCtx) (h : p ≠ q) : (s.updSeq p f).port q = s.port q := by
  simp [State.updSeq, h]

/-! ## A refreshed master record -/

@[simp] theorem MasterRec.refreshed_attached (m : Master) (r : MasterRec) : (r.refreshed m).attached = r.attached := rfl
@[simp] theorem MasterRec.refreshed_requests (m : Master) (r : MasterRec) : (r.refreshed m).requests = r.requests := rfl
@[simp] theorem MasterRec.refreshed_replies (m : Master) (r : MasterRec) : (r.refreshed m).replies = r.replies := rfl
@[simp] theorem MasterRec.refreshed_notices (m : Master) (r : MasterRec) : (r.refreshed m).notices = r.notices := rfl
@[simp] theorem MasterRec.refreshed_overrun (m : Master) (r : MasterRec) : (r.refreshed m).overrun = r.overrun := rfl
@[simp] theorem MasterRec.refreshed_mask (m : Master) (r : MasterRec) : (r.refreshed m).mask = r.mask := rfl
@[simp] theorem MasterRec.refreshed_watermark (m : Master) (r : MasterRec) : (r.refreshed m).watermark = r.watermark := rfl
@[simp] theorem MasterRec.refreshed_protocolErrors (m : Master) (r : MasterRec) : (r.refreshed m).protocolErrors = r.protocolErrors := rfl
@[simp] theorem MasterRec.refreshed_framingErrors (m : Master) (r : MasterRec) : (r.refreshed m).framingErrors = r.framingErrors := rfl
@[simp] theorem MasterRec.refreshed_fetchOut (m : Master) (r : MasterRec) : (r.refreshed m).fetchOut = r.fetchOut := rfl
@[simp] theorem MasterRec.refreshed_sending (m : Master) (r : MasterRec) : (r.refreshed m).sending = r.sending := rfl
@[simp] theorem MasterRec.refreshed_advertised (m : Master) (r : MasterRec) : (r.refreshed m).advertised = r.advertised := rfl
@[simp] theorem MasterRec.refreshed_creditDue (m : Master) (r : MasterRec) : (r.refreshed m).creditDue = r.creditDue := rfl
@[simp] theorem MasterRec.refreshed_spi (m : Master) (r : MasterRec) : (r.refreshed m).spi = r.spi := rfl
@[simp] theorem MasterRec.refreshed_attention (m : Master) (r : MasterRec) :
    (r.refreshed m).attention = attentionDue (decide (m = .C)) r := rfl

/-- The attention line judged again is the line it was judged to be. -/
@[simp] theorem attentionDue_refreshed (b : Bool) (m : Master) (r : MasterRec) :
    attentionDue b (r.refreshed m) = attentionDue b r := rfl

end Sys2Proof.Machine
end

