-- ==== Sys2Proof/Laws/Frames.lean ====
section
/-! SUPPORT. What the shared operations of a port leave alone: each of them changes nothing outside its port's record, the frame
store and the records of the masters (`OnlyTraffic`), and notices and replies change the masters alone (`SameButMasters`). -/

namespace Sys2Proof.Machine

variable {s t u : State} {p : Port}

/-! ## The relations -/

/-- Nothing has changed outside port `p`'s record, the frame store and the masters, and the port keeps its power, its marks, its
break log, its profile and its subscribers. -/
def OnlyTraffic (s t : State) (p : Port) : Prop :=
  SameOutside s t p ∧ (t.port p).power = (s.port p).power ∧ (t.port p).marks = (s.port p).marks ∧
  (t.port p).breakLog = (s.port p).breakLog ∧ (t.port p).profile = (s.port p).profile ∧
  (t.port p).subscribers = (s.port p).subscribers

theorem SameOutside.refl (s : State) (p : Port) : SameOutside s s p :=
  ⟨fun _ _ => rfl, rfl, rfl, rfl, rfl, rfl, rfl, rfl⟩

theorem SameOutside.trans (h : SameOutside s t p) (k : SameOutside t u p) : SameOutside s u p := by
  obtain ⟨h1, h2, h3, h4, h5, h6, h7, h8⟩ := h
  obtain ⟨k1, k2, k3, k4, k5, k6, k7, k8⟩ := k
  exact ⟨fun q hq => (k1 q hq).trans (h1 q hq), k2.trans h2, k3.trans h3, k4.trans h4, k5.trans h5, k6.trans h6,
    k7.trans h7, k8.trans h8⟩

theorem OnlyTraffic.refl (s : State) (p : Port) : OnlyTraffic s s p := ⟨SameOutside.refl s p, rfl, rfl, rfl, rfl, rfl⟩

theorem OnlyTraffic.trans (h : OnlyTraffic s t p) (k : OnlyTraffic t u p) : OnlyTraffic s u p := by
  obtain ⟨h1, h2, h3, h4, h5, h6⟩ := h
  obtain ⟨k1, k2, k3, k4, k5, k6⟩ := k
  exact ⟨h1.trans k1, k2.trans h2, k3.trans h3, k4.trans h4, k5.trans h5, k6.trans h6⟩

theorem SameButMasters.refl (s : State) : SameButMasters s s :=
  ⟨fun _ => rfl, rfl, rfl, rfl, rfl, rfl, rfl, rfl, rfl⟩

theorem SameButMasters.trans (h : SameButMasters s t) (k : SameButMasters t u) : SameButMasters s u := by
  obtain ⟨h1, h2, h3, h4, h5, h6, h7, h8, h9⟩ := h
  obtain ⟨k1, k2, k3, k4, k5, k6, k7, k8, k9⟩ := k
  exact ⟨fun q => (k1 q).trans (h1 q), k2.trans h2, k3.trans h3, k4.trans h4, k5.trans h5, k6.trans h6, k7.trans h7,
    k8.trans h8, k9.trans h9⟩

theorem SameButMasters.only (h : SameButMasters s t) (p : Port) : OnlyTraffic s t p := by
  obtain ⟨h1, h2, h3, h4, h5, _, h7, h8, h9⟩ := h
  exact ⟨⟨fun q _ => h1 q, h2, h3, h4, h5, h7, h8, h9⟩, by rw [h1 p], by rw [h1 p], by rw [h1 p], by rw [h1 p], by rw [h1 p]⟩

theorem ite_only {c : Prop} [Decidable c] (h : OnlyTraffic s t p) (k : OnlyTraffic s u p) :
    OnlyTraffic s (if c then t else u) p := by
  split
  · exact h
  · exact k

/-! ## Masters -/

theorem updMaster_same (s : State) (m : Master) (f : MasterRec → MasterRec) : SameButMasters s (s.updMaster m f) :=
  ⟨fun _ => rfl, rfl, rfl, rfl, rfl, rfl, rfl, rfl, rfl⟩

theorem notify_same (s : State) (m : Master) (u : Bool) (b : NoticeBody) : SameButMasters s (s.notify m u b) :=
  updMaster_same s m _

theorem notifyAll_same (s : State) (u : Bool) (b : NoticeBody) : SameButMasters s (s.notifyAll u b) :=
  ((notify_same s .A u b).trans (notify_same _ .B u b)).trans (notify_same _ .C u b)

theorem notifyOpt_same (s : State) (m : Option Master) (u : Bool) (b : NoticeBody) :
    SameButMasters s (s.notifyOpt m u b) := by
  cases m with
  | none => exact SameButMasters.refl s
  | some m => exact notify_same s m u b

theorem reply_same (s : State) (m : Master) (e : RequestEntry) (a : Answer) : SameButMasters s (s.reply m e a) :=
  updMaster_same s m _

theorem taken_same (s : State) (m : Master) : SameButMasters s (s.taken m) := updMaster_same s m _

theorem handFetch_same (s : State) (m : Analysis) (f : FetchMsg) : SameButMasters s (s.handFetch m f) :=
  updMaster_same s m.master _

theorem notify_master_of_ne (s : State) {m k : Master} (u : Bool) (b : NoticeBody) (h : m ≠ k) :
    (s.notify m u b).master k = s.master k := by simp [State.notify, h]

/-! ## Updates of one port and of the store -/

theorem updPort_outside (s : State) (p : Port) (f : PortRec → PortRec) : SameOutside s (s.updPort p f) p :=
  ⟨fun q h => by simp [Ne.symm h], rfl, rfl, rfl, rfl, rfl, rfl, rfl⟩

theorem updSeq_only (s : State) (p : Port) (f : SeqCtx → SeqCtx) : OnlyTraffic s (s.updSeq p f) p :=
  ⟨updPort_outside s p _, by simp, by simp, by simp, by simp, by simp⟩

theorem updLens_only (s : State) (p : Port) (f : LensRec → LensRec) : OnlyTraffic s (s.updLens p f) p :=
  ⟨updPort_outside s p _, by simp, by simp, by simp, by simp, by simp⟩

theorem updLink_only (s : State) (p : Port) (f : LinkRec → LinkRec) : OnlyTraffic s (s.updLink p f) p :=
  ⟨updPort_outside s p _, by simp, by simp, by simp, by simp, by simp⟩

theorem updIntake_only (s : State) (p : Port) (f : IntakeRec → IntakeRec) : OnlyTraffic s (s.updIntake p f) p :=
  ⟨updPort_outside s p _, by simp, by simp, by simp, by simp, by simp⟩

theorem updCounters_only (s : State) (p : Port) (f : Counters → Counters) : OnlyTraffic s (s.updCounters p f) p :=
  ⟨updPort_outside s p _, by simp, by simp, by simp, by simp, by simp⟩

theorem updWaiting_only (s : State) (p : Port) (f : List DownPacket → List DownPacket) :
    OnlyTraffic s (s.updPort p (fun r => { r with waiting := f r.waiting })) p :=
  ⟨updPort_outside s p _, by simp, by simp, by simp, by simp, by simp⟩

theorem updStore_only (s : State) (p : Port) (f : Store → Store) : OnlyTraffic s (s.updStore f) p :=
  ⟨⟨fun _ _ => rfl, rfl, rfl, rfl, rfl, rfl, rfl, rfl⟩, rfl, rfl, rfl, rfl, rfl⟩

theorem updFrame_only (s : State) (p : Port) (id : Nat) (f : FrameRec → FrameRec) : OnlyTraffic s (s.updFrame id f) p :=
  updStore_only s p _

theorem notify_only (s : State) (p : Port) (m : Master) (u : Bool) (b : NoticeBody) :
    OnlyTraffic s (s.notify m u b) p := (notify_same s m u b).only p

theorem notifyOpt_only (s : State) (p : Port) (m : Option Master) (u : Bool) (b : NoticeBody) :
    OnlyTraffic s (s.notifyOpt m u b) p := (notifyOpt_same s m u b).only p

/-! ## The down-channel -/

/-- R3: a packet handed to a down-channel is dropped, or is its newest waiting packet. -/
theorem handDown_cases (s : State) (p : Port) (k : DownPacket) :
    (s.handDown p k = s ∧ ((k.needsUp = true ∧ (s.port p).link.state ≠ .up) ∨ 16 ≤ (s.port p).waiting.length)) ∨
    (s.handDown p k = s.updPort p (fun r => { r with waiting := r.waiting ++ [k] }) ∧
      (k.needsUp = true → (s.port p).link.state = .up) ∧ (s.port p).waiting.length < 16) := by
  unfold State.handDown
  split
  · rename_i h; left; simp_all
  · split
    · rename_i h; left; exact ⟨rfl, .inr h⟩
    · rename_i h g
      right
      refine ⟨rfl, fun hk => ?_, Nat.lt_of_not_le g⟩
      simpa [hk] using h

theorem handDown_only (s : State) (p : Port) (k : DownPacket) : OnlyTraffic s (s.handDown p k) p := by
  rcases handDown_cases s p k with ⟨h, _⟩ | ⟨h, _⟩ <;> rw [h]
  · exact OnlyTraffic.refl s p
  · exact updWaiting_only s p (fun l => l ++ [k])

theorem dropDown_only (s : State) (p : Port) : OnlyTraffic s (s.dropDown p) p :=
  updWaiting_only s p (fun l => l.filter (fun k => !k.needsUp))

/-! ## Moves and the sequencer -/

theorem makeMove_only (s : State) (p : Port) (t : PerAxis (Option Nat)) (a : Nat) (m : Option Master) :
    OnlyTraffic s (s.makeMove p t a m) p := by
  unfold State.makeMove
  dsimp only
  split
  · exact OnlyTraffic.refl s p
  · exact (handDown_only s p _).trans (updLens_only _ p _)

theorem seqEvent_same (s : State) (p : Port) (u : Bool) (c : SeqCause) (i : Option Nat) :
    SameButMasters s (s.seqEvent p u c i) := notifyOpt_same s _ u _

theorem endRun_only (s : State) (p : Port) (e : EndStatus) (x : EndExtras) : OnlyTraffic s (s.endRun p e x) p := by
  unfold State.endRun
  dsimp only
  refine OnlyTraffic.trans ?_ ((seqEvent_same _ p _ _ _).only p)
  have h1 := (updSeq_only s p (SeqCtx.ending e)).trans
    (updStore_only _ p (fun st => st.unreserve (s.port p).seq.reservedPages (s.port p).seq.reservedRecords))
  have h2 := ite_only (c := (((s.updSeq p (SeqCtx.ending e)).updStore
    (fun st => st.unreserve (s.port p).seq.reservedPages (s.port p).seq.reservedRecords)).port p).lens.implicitFor
      (s.port p).seq.starter = true) (h1.trans (updLens_only _ p LensRec.freed)) h1
  exact ite_only h2 (h2.trans (updSeq_only _ p _))

theorem lensStep_only (s : State) (p : Port) (k : Option Nat) (t : PerAxis (Option Nat)) (a : Option Nat) :
    OnlyTraffic s (s.lensStep p k t a).1 p := by
  unfold State.lensStep
  dsimp only
  repeat' split
  all_goals first
    | exact makeMove_only s p _ _ _
    | exact endRun_only s p _ _
    | exact updSeq_only s p _

theorem settleStep_only (s : State) (p : Port) (n : Nat) : OnlyTraffic s (s.settleStep p n).1 p := by
  unfold State.settleStep
  dsimp only
  repeat' split
  · exact endRun_only s p _ _
  · exact updSeq_only s p _
  · exact OnlyTraffic.refl s p

theorem handTrigger_only (s : State) (p : Port) (x : Option Nat) (c : Nat) : OnlyTraffic s (s.handTrigger p x c) p :=
  (handDown_only s p _).trans (updSeq_only _ p _)

theorem startStep_only (s : State) (p : Port) (st : Step) : OnlyTraffic s (s.startStep p st).1 p := by
  have h1 := updSeq_only s p (fun c => { c with state := .running, phase := none, deadline := none })
  unfold State.startStep
  dsimp only
  generalize hT : (if st.note = true then _ else _ : State) = t
  have h : OnlyTraffic s t p := by
    rw [← hT]
    exact ite_only (h1.trans ((seqEvent_same _ p _ _ _).only p)) h1
  split
  · exact h.trans (lensStep_only t p _ _ _)
  · exact h.trans (settleStep_only t p _)
  · exact h.trans (updSeq_only t p _)
  · split
    · exact h.trans (updSeq_only t p _)
    · exact h.trans (handTrigger_only t p _ _)
  · exact h.trans (updSeq_only t p _)

theorem enterStep_only (p : Port) : ∀ (n : Nat) (s : State), OnlyTraffic s (State.enterStep n s p) p := by
  intro n
  induction n with
  | zero => exact fun s => OnlyTraffic.refl s p
  | succ n ih =>
    intro s
    unfold State.enterStep
    split
    · exact OnlyTraffic.refl s p
    · rename_i st _
      split
      · exact (updSeq_only s p _).trans ((seqEvent_same _ p _ _ _).only p)
      · dsimp only
        split
        · exact startStep_only s p st
        · have h := (startStep_only s p st).trans (updSeq_only _ p SeqCtx.stepDone)
          split
          · exact (h.trans (updSeq_only _ p _)).trans (ih _)
          · exact h.trans (endRun_only _ p _ _)

theorem completeStep_only (s : State) (p : Port) : OnlyTraffic s (s.completeStep p) p := by
  unfold State.completeStep
  split
  · exact OnlyTraffic.refl s p
  · dsimp only
    split
    · exact ((updSeq_only s p _).trans (updSeq_only _ p _)).trans (enterStep_only p _ _)
    · exact (updSeq_only s p _).trans (endRun_only _ p _ _)

theorem afterStart_only (r : State × Bool) (p : Port) (h : OnlyTraffic s r.1 p) :
    OnlyTraffic s (State.afterStart r p) p := by
  unfold State.afterStart
  split
  · exact h.trans (completeStep_only _ p)
  · exact h

theorem startRun_only (s : State) (p : Port) (m : Master) (c : Option Nat) : OnlyTraffic s (s.startRun p m c) p := by
  unfold State.startRun
  dsimp only
  refine OnlyTraffic.trans ?_ (enterStep_only p _ _)
  have h1 := updStore_only s p (fun st => st.reserve (s.port p).seq.pageCount (s.port p).seq.recordCount)
  split <;> split
  · exact ((h1.trans (updLens_only _ p _)).trans (updSeq_only _ p _)).trans (updSeq_only _ p _)
  · exact (h1.trans (updSeq_only _ p _)).trans (updSeq_only _ p _)
  · exact (h1.trans (updLens_only _ p _)).trans (updSeq_only _ p _)
  · exact h1.trans (updSeq_only _ p _)

theorem seqCameraLost_only (s : State) (p : Port) : OnlyTraffic s (s.seqCameraLost p) p := by
  unfold State.seqCameraLost; split
  · exact endRun_only s p _ _
  · exact OnlyTraffic.refl s p

theorem seqHoldLapsed_only (s : State) (p : Port) : OnlyTraffic s (s.seqHoldLapsed p) p := by
  unfold State.seqHoldLapsed; split
  · exact endRun_only s p _ _
  · exact OnlyTraffic.refl s p

theorem seqAxisIdle_only (s : State) (p : Port) : OnlyTraffic s (s.seqAxisIdle p) p := by
  unfold State.seqAxisIdle; split
  · exact completeStep_only s p
  · exact OnlyTraffic.refl s p

theorem seqAxisStalled_only (s : State) (p : Port) (a : Axis) : OnlyTraffic s (s.seqAxisStalled p a) p := by
  unfold State.seqAxisStalled; split
  · exact endRun_only s p _ _
  · exact OnlyTraffic.refl s p

theorem seqReport_only (s : State) (p : Port) (r : FrameReport) : OnlyTraffic s (s.seqReport p r) p := by
  unfold State.seqReport
  split
  · dsimp only; split
    · exact completeStep_only s p
    · exact endRun_only s p _ _
  · exact completeStep_only s p
  · exact endRun_only s p _ _

theorem seqStoreDone_only (s : State) (p : Port) (n : Fin 64) : OnlyTraffic s (s.seqStoreDone p n) p := by
  unfold State.seqStoreDone
  repeat' split
  all_goals first
    | exact OnlyTraffic.refl s p
    | exact afterStart_only _ p (lensStep_only s p _ _ _)

/-! ## The frame store -/

theorem dropNotice_same (s : State) (m : Analysis) (f : FrameRec) (w : DropReason) (b : Bool) :
    SameButMasters s (s.dropNotice m f w b) := notify_same s _ _ _

theorem reclaimOne_only (s : State) (p : Port) (h : s.reclaimOne = some t) : OnlyTraffic s t p := by
  unfold State.reclaimOne at h
  split at h
  · cases h
  · rename_i f _
    simp only [Option.some.injEq] at h
    subst h
    refine OnlyTraffic.trans ?_ (updStore_only _ p _)
    split <;> split
    · exact ((dropNotice_same s _ _ _ _).trans (dropNotice_same _ _ _ _ _)).only p
    · exact (dropNotice_same s _ _ _ _).only p
    · exact (dropNotice_same s _ _ _ _).only p
    · exact OnlyTraffic.refl s p

theorem reclaimPages_only (p : Port) : ∀ (n : Nat) (s : State) (k : Nat), OnlyTraffic s (State.reclaimPages n s k) p := by
  intro n
  induction n with
  | zero => exact fun s _ => OnlyTraffic.refl s p
  | succ n ih =>
    intro s k
    unfold State.reclaimPages
    split
    · exact OnlyTraffic.refl s p
    · split
      · exact OnlyTraffic.refl s p
      · rename_i t h
        exact (reclaimOne_only s p h).trans (ih t k)

theorem holdRelease_only (m : Analysis) (s : State) (p : Port) (id : Nat) :
    OnlyTraffic s (State.holdRelease m s id) p := by
  unfold State.holdRelease
  split
  · exact OnlyTraffic.refl s p
  · exact ((dropNotice_same s _ _ _ _).only p).trans (updStore_only _ p _)

theorem listFrame_only (s : State) (p : Port) (m : Analysis) (id : Nat) : OnlyTraffic s (s.listFrame m id) p := by
  unfold State.listFrame
  dsimp only
  split
  · exact updStore_only s p _
  · exact (updStore_only s p _).trans (notify_only _ p _ _ _)

theorem giveUp_only (s : State) (p : Port) (m : Analysis) (id : Nat) : OnlyTraffic s (s.giveUp m id) p := by
  unfold State.giveUp
  split
  · exact OnlyTraffic.refl s p
  · exact (updFrame_only s p _ _).trans ((dropNotice_same _ _ _ _ _).only p)

theorem foldl_only {α : Type} (f : State → α → State) (p : Port) (h : ∀ s a, OnlyTraffic s (f s a) p) :
    ∀ (l : List α) (s : State), OnlyTraffic s (l.foldl f s) p := by
  intro l
  induction l with
  | nil => exact fun s => OnlyTraffic.refl s p
  | cons a l ih => exact fun s => (h s a).trans (ih (f s a))

theorem judgeReader_only (s : State) (p : Port) (m : Analysis) (id : Nat) : OnlyTraffic s (s.judgeReader m id) p := by
  unfold State.judgeReader
  dsimp only
  repeat' split
  all_goals first
    | exact OnlyTraffic.refl s p
    | exact listFrame_only s p m id
    | exact giveUp_only s p m id
    | exact (foldl_only _ p (fun s id => holdRelease_only m s p id) _ s).trans (listFrame_only _ p m id)

theorem handover_only (s : State) (p : Port) (id : Nat) : OnlyTraffic s (s.handover id) p := by
  unfold State.handover
  dsimp only
  have h0 := updStore_only s p (fun st => { st with handovers := (st.handovers + 1) % 2 ^ 64 })
  split
  · exact h0
  · split
    · exact h0.trans (updStore_only _ p _)
    · split
      · exact h0.trans (updStore_only _ p _)
      · have h1 := fun g => ((h0.trans (updFrame_only _ p id g)).trans (judgeReader_only _ p .A id)).trans
          (judgeReader_only _ p .B id)
        split
        · split
          · exact (h1 _).trans (updStore_only _ p _)
          · exact h1 _
        · exact h1 _

/-! ## The frame intake -/

theorem needPages_only (s : State) (p : Port) (id n : Nat) : OnlyTraffic s (s.needPages p id n).1 p := by
  unfold State.needPages
  dsimp only
  split
  · exact OnlyTraffic.refl s p
  · split
    · exact OnlyTraffic.refl s p
    · split
      · exact updStore_only s p _
      · split
        · exact (reclaimPages_only p _ s _).trans (updStore_only _ p _)
        · exact ((reclaimPages_only p _ s _).trans (updIntake_only _ p _)).trans (updFrame_only _ p _ _)

theorem zeroLines_only (s : State) (p : Port) (id lo hi : Nat) : OnlyTraffic s (s.zeroLines id lo hi) p := by
  unfold State.zeroLines
  split
  · exact OnlyTraffic.refl s p
  · exact updStore_only s p _

theorem fillHoles_only (s : State) (p : Port) (id lo hi : Nat) : OnlyTraffic s (s.fillHoles id lo hi) p := by
  unfold State.fillHoles
  split
  · exact OnlyTraffic.refl s p
  · exact (zeroLines_only s p id lo hi).trans (updFrame_only _ p _ _)

theorem storeLine_only (s : State) (p : Port) (id k : Nat) (l : List Byte) (d : Bool) :
    OnlyTraffic s (s.storeLine p id k l d) p :=
  ((fillHoles_only s p id _ k).trans (updFrame_only _ p id _)).trans (updIntake_only _ p _)

theorem writeBuffered_only (s : State) (p : Port) (b : BufferedLine) : OnlyTraffic s (s.writeBuffered b) p := by
  unfold State.writeBuffered
  split
  · exact OnlyTraffic.refl s p
  · exact updStore_only s p _

theorem flushFrame_only (s : State) (p : Port) (id : Nat) : OnlyTraffic s (s.flushFrame p id) p :=
  (foldl_only _ p (fun s b => writeBuffered_only s p b) _ s).trans (updIntake_only _ p _)

theorem padFrame_only (s : State) (p : Port) (id : Nat) : OnlyTraffic s (s.padFrame p id) p := by
  unfold State.padFrame
  split
  · exact OnlyTraffic.refl s p
  · split
    · exact ((needPages_only s p id _).trans (zeroLines_only _ p id _ _)).trans (updFrame_only _ p _ _)
    · exact OnlyTraffic.refl s p

theorem finalize_only (s : State) (p : Port) (e : EndTags) (b : Bool) : OnlyTraffic s (s.finalize p e b) p := by
  unfold State.finalize
  split
  · exact updIntake_only s p _
  · rename_i id _
    dsimp only
    have h : ∀ f g h k : _, OnlyTraffic s
        ((((((((s.updFrame id f).flushFrame p id).padFrame p id).updFrame id g).updStore h).updIntake p k).handover id)) p :=
      fun f g h k =>
        ((((((updFrame_only s p id f).trans (flushFrame_only _ p id)).trans (padFrame_only _ p id)).trans
          (updFrame_only _ p id g)).trans (updStore_only _ p h)).trans (updIntake_only _ p k)).trans
          (handover_only _ p id)
    split
    · exact (h _ _ _ _).trans (seqReport_only _ p _)
    · exact h _ _ _ _

theorem reportDiscard_only (s : State) (p : Port) (e : DiscardEnd) : OnlyTraffic s (s.reportDiscard p e) p := by
  unfold State.reportDiscard
  dsimp only
  repeat' split
  all_goals first
    | exact OnlyTraffic.refl s p
    | exact seqReport_only s p _
    | exact (notifyOpt_only s p _ _ _).trans (seqReport_only _ p _)

theorem endDiscard_only (s : State) (p : Port) (e : DiscardEnd) : OnlyTraffic s (s.endDiscard p e) p :=
  (reportDiscard_only s p e).trans (updIntake_only _ p _)

theorem countDiscarded_only (s : State) (p : Port) (k n : Nat) (d : Bool) :
    OnlyTraffic s (s.countDiscarded p k n d) p := by
  unfold State.countDiscarded
  dsimp only
  repeat' split
  all_goals first
    | exact OnlyTraffic.refl s p
    | exact updCounters_only s p _
    | exact updIntake_only s p _

theorem openRecord_only (s : State) (p : Port) (o : Opening) (n : Nat) : OnlyTraffic s (s.openRecord p o n) p :=
  (updStore_only s p _).trans (updIntake_only _ p _)

theorem discard_only (s : State) (p : Port) (c : DiscardCause) (n : Option DiscardCounts) :
    OnlyTraffic s (s.discard p c n) p := updIntake_only s p _

theorem countRefused_only (s : State) (p : Port) : OnlyTraffic s (s.countRefused p) p := updCounters_only s p _

theorem countStray_only (s : State) (p : Port) : OnlyTraffic s (s.countStray p) p := updCounters_only s p _

theorem openUnsequenced_only (s : State) (p : Port) (o : Option PendingOrigin) (a b c : Nat) :
    OnlyTraffic s (s.openUnsequenced p o a b c) p := by
  unfold State.openUnsequenced
  dsimp only
  have h1 := updIntake_only s p (IntakeRec.shaped b b c none)
  split
  · exact (h1.trans (countRefused_only _ p)).trans (discard_only _ p _ _)
  · split
    · exact h1.trans (discard_only _ p _ _)
    · split
      · exact h1.trans (openRecord_only _ p _ _)
      · split
        · rename_i t h
          exact (h1.trans (reclaimOne_only _ p h)).trans (openRecord_only _ p _ _)
        · exact (h1.trans (countRefused_only _ p)).trans (discard_only _ p _ _)

theorem openSequenced_only (s : State) (p : Port) (st : Step) (a b c d e : Nat) :
    OnlyTraffic s (s.openSequenced p st a b c d e) p := by
  unfold State.openSequenced
  dsimp only
  have h1 := (updIntake_only s p (IntakeRec.shaped e b d (some ⟨(s.port p).seq.index.getD 0, st.lenient⟩))).trans
    (updSeq_only _ p (fun c => { c with phase := some .frameWait, bound := some .discarded }))
  split
  · exact h1.trans (discard_only _ p _ _)
  · split
    · exact h1.trans (discard_only _ p _ _)
    · split
      · exact h1.trans (discard_only _ p _ _)
      · exact ((h1.trans (updSeq_only _ p _)).trans (updStore_only _ p _)).trans (openRecord_only _ p _ _)

theorem openFrame_only (s : State) (p : Port) (a b c : Nat) : OnlyTraffic s (s.openFrame p a b c) p := by
  have h0 : OnlyTraffic s (s.endPrevious p) p := by
    unfold State.endPrevious
    split
    · exact OnlyTraffic.refl s p
    · exact finalize_only s p _ _
    · exact endDiscard_only s p _
  unfold State.openFrame
  dsimp only
  have h1 := h0.trans (updIntake_only _ p (IntakeRec.opening s.now))
  repeat' split
  all_goals first
    | exact h1.trans (openSequenced_only _ p _ _ _ _ _ _)
    | exact h1.trans (openUnsequenced_only _ p _ _ _ _)

theorem lineFilling_only (s : State) (p : Port) (k : Nat) (l : List Byte) (d : Bool) :
    OnlyTraffic s (s.lineFilling p k l d) p := by
  unfold State.lineFilling
  dsimp only
  repeat' split
  all_goals first
    | exact OnlyTraffic.refl _ p
    | exact countStray_only _ p
    | exact updFrame_only _ p _ _
    | exact (needPages_only _ p _ _).trans (storeLine_only _ p _ _ _ _)
    | exact needPages_only _ p _ _

theorem takeLine_only (s : State) (p : Port) (k : Nat) (l : List Byte) (d : Bool) :
    OnlyTraffic s (s.takeLine p k l d) p := by
  unfold State.takeLine
  split
  · exact countStray_only s p
  · exact OnlyTraffic.trans (updIntake_only s p _) (countDiscarded_only _ p _ _ _)
  · exact OnlyTraffic.trans (updIntake_only s p _) (lineFilling_only _ p _ _ _)

theorem closeFilling_only (s : State) (p : Port) (c : Nat) : OnlyTraffic s (s.closeFilling p c) p := by
  unfold State.closeFilling
  dsimp only
  split
  · exact OnlyTraffic.refl s p
  · rename_i id _
    have h1 := ite_only (c := (s.port p).intake.capacity.getD 0 < c)
      (updFrame_only s p id (fun r => { r with tags := { r.tags with truncated := true } })) (OnlyTraffic.refl s p)
    refine ite_only ?_ h1
    exact ite_only ((((h1.trans (needPages_only _ p _ _)).trans (fillHoles_only _ p _ _ _)).trans
      (updFrame_only _ p _ _)).trans (updIntake_only _ p _)) (h1.trans (needPages_only _ p _ _))

theorem closeFrame_only (s : State) (p : Port) (c : Nat) : OnlyTraffic s (s.closeFrame p c) p := by
  unfold State.closeFrame
  split
  · exact countStray_only s p
  · exact endDiscard_only s p _
  · exact (closeFilling_only s p c).trans (finalize_only _ p _ _)

theorem intakeLinkLeft_only (s : State) (p : Port) : OnlyTraffic s (s.intakeLinkLeft p) p := by
  unfold State.intakeLinkLeft
  dsimp only
  refine OnlyTraffic.trans ?_ (updIntake_only _ p _)
  split
  · exact OnlyTraffic.refl s p
  · exact finalize_only s p _ _
  · exact endDiscard_only s p _

/-! ## The link -/

theorem linkEvent_same (s : State) (p : Port) (l : LinkState) (n : Option Nat) : SameButMasters s (s.linkEvent p l n) :=
  notifyAll_same s _ _

theorem announceLeft_only (s : State) (p : Port) : OnlyTraffic s (s.announceLeft p) p :=
  ((((updLink_only s p _).trans (dropDown_only _ p)).trans (seqCameraLost_only _ p)).trans
    (intakeLinkLeft_only _ p)).trans (updLens_only _ p _)

theorem leftFrom_only (s : State) (p : Port) (l : LinkState) (n : Option Nat) : OnlyTraffic s (s.leftFrom p l n) p := by
  unfold State.leftFrom
  split
  · exact (announceLeft_only s p).trans ((linkEvent_same _ p _ _).only p)
  · exact OnlyTraffic.refl s p

theorem enterRetraining_only (s : State) (p : Port) (r : Rate) (n : Option Nat) :
    OnlyTraffic s (s.enterRetraining p r n) p :=
  (((updLink_only s p _).trans (leftFrom_only _ p _ _)).trans (handDown_only _ p _)).trans (updLink_only _ p _)

theorem linkPowerLeft_only (s : State) (p : Port) : OnlyTraffic s (s.linkPowerLeft p) p := by
  unfold State.linkPowerLeft
  dsimp only
  split
  · exact updLink_only s p _
  · exact (updLink_only s p _).trans (leftFrom_only _ p _ _)

theorem startTraining_only (s : State) (p : Port) (i : Identity) : OnlyTraffic s (s.startTraining p i) p :=
  ((handDown_only s p _).trans (updLink_only _ p _)).trans (leftFrom_only _ p _ _)

theorem classDown_only (s : State) (p : Port) : OnlyTraffic s (s.classDown p) p := by
  unfold State.classDown
  dsimp only
  split
  · exact (updLink_only s p _).trans (leftFrom_only _ p _ _)
  · exact (updLink_only s p _).trans ((linkEvent_same _ p _ _).only p)

theorem countClean_only (s : State) (p : Port) : OnlyTraffic s (s.countClean p) p := by
  unfold State.countClean
  dsimp only
  repeat' split
  all_goals first
    | exact OnlyTraffic.refl s p
    | exact updLink_only s p _

end Sys2Proof.Machine
end

