-- ==== Sys2Proof/Laws/Memory.lean ====
section
/-! SUPPORT. The stacked DRAM: every operation keeps the list's canonical form, a byte written reads back, and a write or a
clearing leaves every other byte as it was. -/

namespace Sys2Proof.Machine

theorem Memory.wfFrom_mono {lo lo' : Nat} (h : lo' ≤ lo) : ∀ {m : Memory}, Memory.wfFrom lo m = true →
    Memory.wfFrom lo' m = true
  | [], _ => rfl
  | (k, v) :: r, hm => by
    simp only [Memory.wfFrom, Bool.and_eq_true, decide_eq_true_eq] at hm ⊢
    exact ⟨⟨by omega, hm.1.2⟩, hm.2⟩

/-- Nothing is listed below a bound. -/
theorem Memory.read_below {lo a : Nat} (h : a < lo) : ∀ {m : Memory}, Memory.wfFrom lo m = true → m.read a = Memory.blank
  | [], _ => rfl
  | (k, v) :: r, hm => by
    simp only [Memory.wfFrom, Bool.and_eq_true, decide_eq_true_eq] at hm
    rw [Memory.read, if_neg (by omega), if_pos (by omega)]

theorem Memory.wfFrom_write {lo a : Nat} (b : Byte) (h : lo ≤ a) : ∀ {m : Memory}, Memory.wfFrom lo m = true →
    Memory.wfFrom lo (m.write a b) = true
  | [], _ => by
    by_cases hb : b = Memory.blank <;> simp [Memory.write, Memory.wfFrom, hb, h]
  | (k, v) :: r, hm => by
    have hm' := hm
    simp only [Memory.wfFrom, Bool.and_eq_true, decide_eq_true_eq] at hm'
    obtain ⟨⟨hk, hv⟩, hr⟩ := hm'
    rw [Memory.write]
    split
    · split
      · exact hm
      · next hb => simp [Memory.wfFrom, h, hb, hv, hr]; omega
    · split
      · split
        · exact Memory.wfFrom_mono (by omega) hr
        · next hb => simp [Memory.wfFrom, hk, hb, hr]
      · have := Memory.wfFrom_write b (by omega : k + 1 ≤ a) hr
        simp [Memory.wfFrom, hk, hv, this]

theorem Memory.read_write_from {lo a c : Nat} (b : Byte) : ∀ {m : Memory}, Memory.wfFrom lo m = true →
    (m.write a b).read c = if c = a then b else m.read c
  | [], _ => by
    by_cases hb : b = Memory.blank <;> by_cases hc : c = a <;> simp [Memory.write, Memory.read, hb, hc]
  | (k, v) :: r, hm => by
    simp only [Memory.wfFrom, Bool.and_eq_true, decide_eq_true_eq] at hm
    obtain ⟨⟨hk, hv⟩, hr⟩ := hm
    have below : ∀ {x : Nat}, x < k + 1 → Memory.read r x = Memory.blank := fun h => Memory.read_below h hr
    rw [Memory.write]
    split
    · next hak =>
      split
      · next hb =>
        by_cases hc : c = a
        · subst hc; simp only [if_true]; rw [Memory.read, if_neg (by omega), if_pos (by omega)]; exact hb.symm
        · simp [hc]
      · by_cases hc : c = a
        · simp [hc, Memory.read]
        · simp only [hc, if_false]
          rw [Memory.read]
          simp only [hc, if_false]
          split
          · rw [Memory.read, if_neg (by omega), if_pos (by omega)]
          · rfl
    · next hak =>
      split
      · next hka =>
        subst hka
        split
        · next hb =>
          by_cases hc : c = a
          · subst hc; simp only [if_true]; rw [below (by omega)]; exact hb.symm
          · simp only [hc, if_false]
            rw [Memory.read.eq_2]
            simp only [hc, if_false]
            split
            · exact below (by omega)
            · rfl
        · by_cases hc : c = a <;> simp [Memory.read, hc]
      · next hka =>
        have ih := Memory.read_write_from (a := a) (c := c) b hr
        rw [Memory.read, ih]
        by_cases hc : c = a
        · subst hc; simp [show ¬ c = k by omega, show ¬ c < k by omega]
        · simp [Memory.read, hc]

/-- Reading a byte just written gives the value written. -/
theorem Memory.read_write_self {m : Memory} (h : m.wf = true) (a : Nat) (b : Byte) : (m.write a b).read a = b := by
  rw [Memory.read_write_from b h, if_pos rfl]

/-- A write leaves every other byte as it was. -/
theorem Memory.read_write_of_ne {m : Memory} (h : m.wf = true) {a c : Nat} (b : Byte) (hc : c ≠ a) :
    (m.write a b).read c = m.read c := by
  rw [Memory.read_write_from b h, if_neg hc]

/-- A write keeps the canonical form. -/
theorem Memory.wf_write {m : Memory} (h : m.wf = true) (a : Nat) (b : Byte) : (m.write a b).wf = true :=
  Memory.wfFrom_write b (Nat.zero_le a) h

theorem Memory.wfFrom_filter {lo : Nat} (t : Host.Cell → Bool) : ∀ {m : Memory}, Memory.wfFrom lo m = true →
    Memory.wfFrom lo (m.filter t) = true
  | [], _ => rfl
  | (k, v) :: r, hm => by
    simp only [Memory.wfFrom, Bool.and_eq_true, decide_eq_true_eq] at hm
    obtain ⟨⟨hk, hv⟩, hr⟩ := hm
    have ih := Memory.wfFrom_filter t hr
    by_cases ht : t (k, v) = true
    · simp [ht, Memory.wfFrom, hk, hv, ih]
    · simp only [List.filter_cons, ht, if_false, Bool.false_eq_true]
      exact Memory.wfFrom_mono (by omega) ih

/-- Clearing a range keeps the canonical form. -/
theorem Memory.wf_zeroRange {m : Memory} (h : m.wf = true) (lo n : Nat) : (m.zeroRange lo n).wf = true :=
  Memory.wfFrom_filter _ h

theorem Memory.read_filter {lo a : Nat} (t : Host.Cell → Bool) (f : Nat → Bool) (hf : ∀ x, t x = f x.1) :
    ∀ {m : Memory}, Memory.wfFrom lo m = true → Memory.read (m.filter t) a = if f a then m.read a else Memory.blank
  | [], _ => by simp [Memory.read]
  | (k, v) :: r, hm => by
    simp only [Memory.wfFrom, Bool.and_eq_true, decide_eq_true_eq] at hm
    have hr := hm.2
    have ih := Memory.read_filter (a := a) t f hf hr
    have hk : t (k, v) = f k := hf _
    by_cases ht : f k = true
    · simp only [List.filter_cons, hk, ht, if_true, Memory.read, ih]
      by_cases hak : a = k
      · subst hak; simp [ht]
      · by_cases hlt : a < k <;> simp [hak, hlt]
    · simp only [List.filter_cons, hk, ht, if_false, Bool.false_eq_true, ih, Memory.read]
      by_cases hak : a = k
      · subst hak; simp [ht]
      · by_cases hlt : a < k
        · simp [hak, hlt, Memory.read_below (by omega : a < k + 1) hr]
        · simp [hak, hlt]

/-- A cleared byte reads as blank, and every other byte as before. -/
theorem Memory.read_zeroRange {m : Memory} (h : m.wf = true) (lo n a : Nat) :
    (m.zeroRange lo n).read a = if lo ≤ a ∧ a < lo + n then Memory.blank else m.read a := by
  have := Memory.read_filter (a := a) (fun c : Host.Cell => decide (c.1 < lo) || decide (lo + n ≤ c.1))
    (fun x => decide (x < lo) || decide (lo + n ≤ x)) (fun _ => rfl) h
  rw [Memory.zeroRange, this]
  by_cases h1 : lo ≤ a ∧ a < lo + n
  · rw [if_pos h1, if_neg (by simp only [Bool.or_eq_true, decide_eq_true_eq]; omega)]
  · rw [if_neg h1, if_pos (by simp only [Bool.or_eq_true, decide_eq_true_eq]; omega)]

/-- Writing a frame's bytes keeps the canonical form. -/
theorem writeFrameBytes_wf (pages : List Nat) : ∀ (l : List Byte) (b : Nat) {m : Memory}, m.wf = true →
    (writeFrameBytes pages b l m).wf = true
  | [], _, _, h => h
  | x :: xs, b, m, h => by
    rw [writeFrameBytes]
    split
    · exact writeFrameBytes_wf pages xs (b + 1) (Memory.wf_write h _ _)
    · exact writeFrameBytes_wf pages xs (b + 1) h

/-- Zero-filling a frame's bytes keeps the canonical form. -/
theorem zeroFrameBytes_wf (lo hi : Nat) : ∀ (pages : List Nat) (i : Nat) {m : Memory}, m.wf = true →
    (zeroFrameBytes lo hi i pages m).wf = true
  | [], _, _, h => h
  | page :: rest, i, m, h => by
    rw [zeroFrameBytes]
    refine zeroFrameBytes_wf lo hi rest (i + 1) ?_
    split
    · exact Memory.wf_zeroRange h _ _
    · exact h

/-- Zero-filling, page by page from page `i` on: the bytes between the bounds read as zeros, every other as before. -/
theorem zeroFrameBytes_read (lo hi a : Nat) : ∀ (pages : List Nat) (i : Nat) {m : Memory}, m.wf = true →
    ((∃ j page b, pages[j]? = some page ∧ b < Config.pageBytes ∧ lo ≤ (i + j) * Config.pageBytes + b ∧
        (i + j) * Config.pageBytes + b < hi ∧ a = page * Config.pageBytes + b) →
      (zeroFrameBytes lo hi i pages m).read a = 0) ∧
    ((∀ j page b, pages[j]? = some page → b < Config.pageBytes → lo ≤ (i + j) * Config.pageBytes + b →
        (i + j) * Config.pageBytes + b < hi → a ≠ page * Config.pageBytes + b) →
      (zeroFrameBytes lo hi i pages m).read a = m.read a)
  | [], i, m, h => by simp [zeroFrameBytes]
  | page :: rest, i, m, h => by
    have hw : (if max lo (i * Config.pageBytes) < min hi (i * Config.pageBytes + Config.pageBytes) then
        m.zeroRange (page * Config.pageBytes + (max lo (i * Config.pageBytes) - i * Config.pageBytes))
          (min hi (i * Config.pageBytes + Config.pageBytes) - max lo (i * Config.pageBytes)) else m).wf = true := by
      split
      · exact Memory.wf_zeroRange h _ _
      · exact h
    obtain ⟨ih1, ih2⟩ := zeroFrameBytes_read lo hi a rest (i + 1) hw
    rw [zeroFrameBytes]
    generalize hP : Config.pageBytes = P at *
    by_cases hr : ∃ j p' b, rest[j]? = some p' ∧ b < P ∧ lo ≤ (i + 1 + j) * P + b ∧ (i + 1 + j) * P + b < hi ∧
        a = p' * P + b
    · refine ⟨fun _ => ih1 hr, fun k => ?_⟩
      obtain ⟨j, p', b, x1, x2, x3, x4, x5⟩ := hr
      have e : i + 1 + j = i + (j + 1) := by omega
      rw [e] at x3 x4
      exact absurd x5 (k (j + 1) p' b x1 x2 x3 x4)
    · have e2 := ih2 (fun j p' b x1 x2 x3 x4 x5 => hr ⟨j, p', b, x1, x2, x3, x4, x5⟩)
      rw [e2]
      refine ⟨fun k => ?_, fun k => ?_⟩
      · obtain ⟨j, p', b, x1, x2, x3, x4, x5⟩ := k
        cases j with
        | succ j =>
          have e : i + (j + 1) = i + 1 + j := by omega
          rw [e] at x3 x4
          exact absurd ⟨j, p', b, x1, x2, x3, x4, x5⟩ hr
        | zero =>
          simp only [List.getElem?_cons_zero, Option.some.injEq] at x1
          subst x1
          simp only [Nat.add_zero] at x3 x4
          rw [if_pos (by omega), Memory.read_zeroRange h, if_pos (by omega)]; rfl
      · split
        · rw [Memory.read_zeroRange h, if_neg]
          intro hc
          refine k 0 page (a - page * P) rfl ?_ ?_ ?_ ?_ <;> (try rw [Nat.add_zero]) <;> omega
        · rfl

/-- The place of a byte of a frame, by its page. -/
theorem frameAddr_eq (pages : List Nat) (b a : Nat) : frameAddr pages b = some a ↔
    ∃ page, pages[b / Config.pageBytes]? = some page ∧ a = page * Config.pageBytes + b % Config.pageBytes := by
  unfold frameAddr
  split <;> rename_i h
  · simp [h, eq_comm]
  · simp [h]

/-- R82, R86: zero-filling a frame's bytes writes zeros to their places and to no other. -/
theorem zeroFrameBytes_spec {m : Memory} (h : m.wf = true) (lo hi : Nat) (pages : List Nat) :
    (∀ b a, lo ≤ b → b < hi → frameAddr pages b = some a → (zeroFrameBytes lo hi 0 pages m).read a = 0) ∧
    (∀ a, (∀ b, lo ≤ b → b < hi → frameAddr pages b ≠ some a) → (zeroFrameBytes lo hi 0 pages m).read a = m.read a) := by
  have hP : 0 < Config.pageBytes := by decide
  refine ⟨fun b a h1 h2 h3 => ?_, fun a k => ?_⟩
  · obtain ⟨page, q, r⟩ := (frameAddr_eq _ _ _).1 h3
    have e := Nat.div_add_mod' b Config.pageBytes
    refine (zeroFrameBytes_read lo hi a pages 0 h).1
      ⟨b / Config.pageBytes, page, b % Config.pageBytes, q, Nat.mod_lt _ hP, ?_, ?_, r⟩ <;>
      rw [Nat.zero_add] <;> omega
  · refine (zeroFrameBytes_read lo hi a pages 0 h).2 (fun j page b x1 x2 x3 x4 x5 => ?_)
    rw [Nat.zero_add] at x3 x4
    have d : (j * Config.pageBytes + b) / Config.pageBytes = j := by
      rw [Nat.add_comm, Nat.add_mul_div_right _ _ hP, Nat.div_eq_of_lt x2, Nat.zero_add]
    have e : (j * Config.pageBytes + b) % Config.pageBytes = b := by
      rw [Nat.add_comm, Nat.add_mul_mod_self_right, Nat.mod_eq_of_lt x2]
    exact k _ x3 x4 ((frameAddr_eq _ _ _).2 ⟨page, by rw [d]; exact x1, by rw [e]; exact x5⟩)

end Sys2Proof.Machine
end

