-- ==== Sys2Proof/Laws/Lines.lean ====
section
/-! SUPPORT. What storing a line does: the frame reclaimed for it, the pages it draws, the record it counts in and the bytes it
clears. -/

namespace Sys2Proof.Machine

variable {s : State} {st : Store} {id x : Nat} {f : FrameRec} {g : FrameRec → FrameRec}

/-! ## Frame records -/

/-- The record found under an id has that id. -/
theorem Store.id_of_frame? (h : st.frame? id = some f) : f.id = id := by simpa using List.find?_some h

/-- Changing the record with an id changes what is found under it. -/
theorem Store.frame?_updFrame (h : ∀ r, (g r).id = r.id) : (st.updFrame id g).frame? id = (st.frame? id).map g := by
  unfold Store.updFrame Store.frame?
  dsimp only
  induction st.frames with
  | nil => rfl
  | cons a l ih =>
    unfold updFirst
    by_cases ha : a.id = id <;> simp [ha, h, ih]

/-- Changing the record with an id leaves what is found under any other. -/
theorem Store.frame?_updFrame_of_ne (h : ∀ r, (g r).id = r.id) (hx : x ≠ id) :
    (st.updFrame id g).frame? x = st.frame? x := by
  unfold Store.updFrame Store.frame?
  dsimp only
  induction st.frames with
  | nil => rfl
  | cons a l ih =>
    unfold updFirst
    by_cases ha : a.id = id
    · have hx' : ¬ id = x := fun e => hx e.symm
      simp [ha, h, hx']
    · by_cases hb : a.id = x
      · subst hb; simp [ha]
      · simp [ha, hb, ih]

/-- A freed frame is found no more. -/
theorem Store.frame?_freeFrame : (st.freeFrame id).frame? id = none := by
  simp only [Store.freeFrame, Store.frame?, List.find?_filter, List.find?_eq_none]
  intro a _
  simp

/-- Freeing a frame leaves the others. -/
theorem Store.frame?_freeFrame_of_ne (hx : x ≠ id) : (st.freeFrame id).frame? x = st.frame? x := by
  simp only [Store.freeFrame, Store.frame?, List.find?_filter]
  congr 1
  funext a
  by_cases h : a.id = x <;> simp [h, hx]

/-! ## The victim of a reclaim -/

/-- The frame that is before every other, among some frames and a candidate, is the one the search ends with. -/
theorem foldl_olderVictim (v : FrameRec) : ∀ (l : List FrameRec) (b : Option FrameRec),
    (∀ x ∈ l, x ≠ v → v.before x = true ∧ x.before v = false) →
    (∀ x, b = some x → x ≠ v → v.before x = true ∧ x.before v = false) →
    (v ∈ l ∨ b = some v) → l.foldl olderVictim b = some v
  | [], b, _, _, h => by simpa using h
  | x :: l, b, hl, hb, h => by
    rw [List.foldl_cons]
    refine foldl_olderVictim v l _ (fun y hy => hl y (List.mem_cons_of_mem _ hy)) ?_ ?_
    · intro y hy hne
      cases b with
      | none => simp only [olderVictim, Option.some.injEq] at hy; subst hy; exact hl _ List.mem_cons_self hne
      | some b =>
        simp only [olderVictim] at hy
        split at hy
        · cases hy; exact hl _ List.mem_cons_self hne
        · cases hy; exact hb _ rfl hne
    · rcases h with h | h
      · rcases List.mem_cons.1 h with h | h
        · subst h
          cases b with
          | none => exact .inr rfl
          | some b =>
            right
            simp only [olderVictim]
            by_cases e : b = v
            · subst e; simp
            · rw [if_pos (hb b rfl e).1]
        · exact .inl h
      · subst h
        right
        simp only [olderVictim]
        by_cases e : x = v
        · subst e; simp
        · rw [(hl x List.mem_cons_self e).2]; rfl

/-- R111: the oldest unpinned READY frame is the victim. -/
theorem OldestUnpinned.victim {v : FrameRec} (h : OldestUnpinned st v) : st.victim = some v := by
  obtain ⟨a, b, c, d⟩ := h
  have hm : v ∈ st.frames :=
    (List.mem_filter.1 (by rw [c]; exact List.mem_singleton.2 rfl : v ∈ st.frames.filter (fun x => x.id == v.id))).1
  refine foldl_olderVictim v _ none ?_ (by simp) (.inl ?_)
  · intro x hx hne
    obtain ⟨hx, hr⟩ := List.mem_filter.1 hx
    have hs : x.state = .ready ∧ x.pins = ⟨0, 0⟩ := by
      simp only [FrameRec.reclaimable, FrameRec.pinned, Bool.and_eq_true, decide_eq_true_eq] at hr
      refine ⟨hr.1, ?_⟩
      have := hr.2
      cases hp : x.pins with
      | mk pa pb => rw [hp] at this; simp at this; rw [this.1, this.2]
    have := d x hx hs.1 hs.2 hne
    simp only [FrameRec.before, Bool.or_eq_true, Bool.and_eq_true, decide_eq_true_eq, Bool.or_eq_false_iff,
      Bool.and_eq_false_iff, decide_eq_false_iff_not]
    rcases this with h | ⟨h, h'⟩
    · exact ⟨.inl h, Nat.lt_asymm h, .inl (Nat.ne_of_gt h)⟩
    · exact ⟨.inr ⟨h, h'⟩, fun e => Nat.lt_irrefl _ (h ▸ e), .inr (Nat.lt_asymm h')⟩
  · refine List.mem_filter.2 ⟨hm, ?_⟩
    simp [FrameRec.reclaimable, FrameRec.pinned, a, b]

/-! ## Drawing pages -/

/-- R98, R85: pages drawn from the head of the free list join the frame's, and nothing else of the store changes. -/
theorem Store.drawPages_spec (n : Nat) (h : st.frame? id = some f) :
    (st.drawPages id n).frame? id = some { f with pages := f.pages ++ st.freeList.take n } ∧
    (∀ x, x ≠ id → (st.drawPages id n).frame? x = st.frame? x) ∧
    st.drawPages id n = { st with frames := (st.drawPages id n).frames, freeList := st.freeList.drop n } := by
  unfold Store.drawPages
  rw [h]
  dsimp only
  refine ⟨?_, fun x hx => Store.frame?_updFrame_of_ne (by intro _; rfl) hx, rfl⟩
  rw [Store.frame?_updFrame (by intro _; rfl)]
  show (st.frame? id).map _ = _
  rw [h]; rfl

/-- R85, R108: pages drawn from a frame's step reservation lower it, and the reserved pages, by as many as it covers. -/
theorem Store.drawReserved_spec (n : Nat) (h : st.frame? id = some f) :
    (st.drawReserved id n).frame? id =
      some { f with pages := f.pages ++ st.freeList.take n, stepReserved := f.stepReserved - min n f.stepReserved } ∧
    (∀ x, x ≠ id → (st.drawReserved id n).frame? x = st.frame? x) ∧
    st.drawReserved id n = { st with
      frames := (st.drawReserved id n).frames, freeList := st.freeList.drop n
      reservedPages := st.reservedPages - min n f.stepReserved } := by
  obtain ⟨a, b, c⟩ := Store.drawPages_spec n h
  unfold Store.drawReserved
  rw [h]
  dsimp only
  refine ⟨?_, fun x hx => ?_, ?_⟩
  · refine (Store.frame?_updFrame (st := st.drawPages id n) (by intro _; rfl)).trans ?_
    rw [a]; rfl
  · show (Store.updFrame _ id _).frame? x = _
    rw [Store.frame?_updFrame_of_ne ?_ hx, b x hx]
    exact fun _ => rfl
  · unfold Store.updFrame
    rw [c]

/-! ## Storing a line -/

/-- R86: holes write zeros to the places of their lines alone, and are counted in the frame's record. -/
theorem State.fillHoles_spec (lo hi : Nat) (h : s.frame? id = some f) :
    (s.fillHoles id lo hi).frame? id =
      some { f with missing := f.missing + (hi - lo), tags := { f.tags with gaps := f.tags.gaps || decide (lo < hi) } } ∧
    (∀ x, x ≠ id → (s.fillHoles id lo hi).frame? x = s.frame? x) ∧
    (∃ fr dr, s.fillHoles id lo hi = { s with store := { s.store with frames := fr, dram := dr } }) ∧
    (s.store.dram.wf = true →
      (∀ b a, lo * f.width ≤ b → b < hi * f.width → frameAddr f.pages b = some a →
        (s.fillHoles id lo hi).store.dram.read a = 0) ∧
      (∀ a, (∀ b, lo * f.width ≤ b → b < hi * f.width → frameAddr f.pages b ≠ some a) →
        (s.fillHoles id lo hi).store.dram.read a = s.store.dram.read a)) := by
  unfold State.fillHoles
  by_cases hle : hi ≤ lo
  · rw [if_pos hle]
    have e : hi - lo = 0 := by omega
    have e2 : decide (lo < hi) = false := by simp; omega
    refine ⟨by rw [h, e, e2]; simp, fun _ _ => rfl, ⟨s.store.frames, s.store.dram, rfl⟩,
      fun _ => ⟨fun b a h1 h2 => ?_, fun _ _ => rfl⟩⟩
    have := Nat.mul_le_mul_right f.width hle
    omega
  · rw [if_neg hle]
    have e2 : decide (lo < hi) = true := by simp; omega
    unfold State.zeroLines
    rw [h]
    dsimp only
    refine ⟨?_, fun x hx => Store.frame?_updFrame_of_ne (by intro _; rfl) hx, ⟨_, _, rfl⟩,
      fun w => zeroFrameBytes_spec w _ _ _⟩
    refine (Store.frame?_updFrame (by intro _; rfl)).trans ?_
    show (s.frame? id).map _ = _
    rw [h, e2]; simp

/-- R86: storing line `k`: the holes before it, its counts in the frame's record, and its bytes in a buffer. -/
theorem State.storeLine_spec (p : Port) (k : Nat) (l : List Byte) (d : Bool) (h : s.frame? id = some f)
    (hw : (s.port p).intake.width = some f.width) :
    ∀ next bad, next = (s.port p).intake.highest.elim 0 (fun n => n + 1) →
      bad = (d || decide ((s.port p).intake.declaredWidth ≠ some l.length)) →
    (s.storeLine p id k l d).frame? id = some { f with
      stored := k + 1, missing := f.missing + (k - next)
      damaged := if bad = true then f.damaged + 1 else f.damaged
      firstDamaged := if bad = true then some (f.firstDamaged.getD k) else f.firstDamaged
      tags := { f.tags with gaps := f.tags.gaps || decide (next < k), damaged := f.tags.damaged || bad } } ∧
    (∀ x, x ≠ id → (s.storeLine p id k l d).frame? x = s.frame? x) ∧
    (∃ fr dr, s.storeLine p id k l d =
      { (s.updIntake p (fun i => { i with highest := some k, buffers := i.buffers ++
          [⟨id, k, (l ++ List.replicate (f.width - l.length) 0).take f.width⟩] })) with
        store := { s.store with frames := fr, dram := dr } }) ∧
    (s.store.dram.wf = true →
      (∀ b a, next * f.width ≤ b → b < k * f.width → frameAddr f.pages b = some a →
        (s.storeLine p id k l d).store.dram.read a = 0) ∧
      (∀ a, (∀ b, next * f.width ≤ b → b < k * f.width → frameAddr f.pages b ≠ some a) →
        (s.storeLine p id k l d).store.dram.read a = s.store.dram.read a)) := by
  intro next bad hn hb
  obtain ⟨a1, a2, ⟨fr, dr, a3⟩, a4⟩ := State.fillHoles_spec next k h
  have key : s.storeLine p id k l d = ((s.fillHoles id next k).updFrame id (fun r =>
      { r with stored := k + 1
               damaged := if bad then r.damaged + 1 else r.damaged
               firstDamaged := if bad && r.firstDamaged.isNone then some k else r.firstDamaged
               tags := if bad then { r.tags with damaged := true } else r.tags })).updIntake p
      (fun i => { i with highest := some k, buffers := i.buffers ++ [⟨id, k, fitLine (i.width.getD 0) l⟩] }) := by
    rw [hn, hb]
    unfold State.storeLine
    dsimp only
    generalize (s.port p).intake.highest = o
    cases o <;> rfl
  rw [key]
  refine ⟨?_, fun x hx => ?_, ?_, a4⟩
  · refine (Store.frame?_updFrame (st := (s.fillHoles id next k).store) (by intro _; rfl)).trans ?_
    show ((s.fillHoles id next k).frame? id).map _ = _
    rw [a1]
    cases bad <;> cases f.firstDamaged <;> simp
  · exact (Store.frame?_updFrame_of_ne (st := (s.fillHoles id next k).store) (by intro _; rfl) hx).trans (a2 x hx)
  · refine ⟨(s.storeLine p id k l d).store.frames, dr, ?_⟩
    rw [key, a3]
    simp only [State.updIntake, State.updPort, State.updFrame, State.updStore, Store.updFrame]
    have e : (s.ports.get p).intake.width = some f.width := hw
    rw [e]
    rfl

end Sys2Proof.Machine
end

