-- ==== Sys2Proof/Laws/Pages.lean ====
section
/-! SUPPORT. What each operation of the frame store does to the pages: none is lost and none is had twice (R98). -/

namespace Sys2Proof.Machine

variable (st : Store)

/-- The pages of the free list and of the frames. -/
def Store.allPages (st : Store) : List Nat := st.freeList ++ st.frames.flatMap FrameRec.pages

theorem pagesKept_of_perm {st st' : Store} (h : st.pagesKept) (k : st'.allPages.Perm st.allPages) : st'.pagesKept :=
  k.trans h

/-- Changing the first element that meets a test keeps a list, element by element, where the change keeps `g`. -/
theorem map_updFirst {α β : Type} (t : α → Bool) (f : α → α) (g : α → β) (h : ∀ a, g (f a) = g a) :
    ∀ l : List α, (updFirst t f l).map g = l.map g
  | [] => rfl
  | a :: l => by
    unfold updFirst
    split
    · simp [h]
    · simp [map_updFirst t f g h l]

theorem flatMap_updFirst {α β : Type} (t : α → Bool) (f : α → α) (g : α → List β) (h : ∀ a, g (f a) = g a) (l : List α) :
    (updFirst t f l).flatMap g = l.flatMap g := by
  simp only [List.flatMap, map_updFirst t f g h l]

theorem length_updFirst {α : Type} (t : α → Bool) (f : α → α) (l : List α) : (updFirst t f l).length = l.length := by
  have := congrArg List.length (map_updFirst t f (fun _ => ()) (fun _ => rfl) l)
  simpa using this

/-- A change of a frame that keeps its pages keeps all pages. -/
theorem allPages_updFrame (id : Nat) (f : FrameRec → FrameRec) (h : ∀ r, (f r).pages = r.pages) :
    (st.updFrame id f).allPages = st.allPages := by
  simp [Store.allPages, Store.updFrame, flatMap_updFirst _ f FrameRec.pages h]

/-- What leaves a list by a test and what stays. -/
theorem perm_filter_flatMap {α β : Type} (t : α → Bool) (g : α → List β) :
    ∀ l : List α, ((l.filter t).flatMap g ++ (l.filter (fun a => !t a)).flatMap g).Perm (l.flatMap g)
  | [] => by simp
  | a :: l => by
    have ih := perm_filter_flatMap t g l
    cases h : t a
    · simp only [List.filter_cons, h, Bool.not_false, if_true, Bool.false_eq_true, if_false, List.flatMap_cons]
      refine List.Perm.trans ?_ (List.Perm.append_left (g a) ih)
      rw [← List.append_assoc, ← List.append_assoc]
      exact List.Perm.append_right _ List.perm_append_comm
    · simp only [List.filter_cons, h, Bool.not_true, if_true, Bool.false_eq_true, if_false, List.flatMap_cons,
        List.append_assoc]
      exact List.Perm.append_left (g a) ih

/-- R101: freeing a frame returns its pages. -/
theorem allPages_freeFrame (id : Nat) : (st.freeFrame id).allPages.Perm st.allPages := by
  simp only [Store.allPages, Store.freeFrame, List.append_assoc]
  exact List.Perm.append_left _ (perm_filter_flatMap (fun f => f.id == id) FrameRec.pages st.frames)

/-- Pages appended to the first element that meets a test, where some element does. -/
theorem flatMap_append_updFirst (t : FrameRec → Bool) (x : List Nat) :
    ∀ l : List FrameRec, (l.find? t).isSome = true →
      ((updFirst t (fun f => { f with pages := f.pages ++ x }) l).flatMap FrameRec.pages).Perm
        (x ++ l.flatMap FrameRec.pages)
  | [], h => by simp at h
  | f :: l, h => by
    unfold updFirst
    cases ht : t f
    · have h' : (l.find? t).isSome = true := by simpa [List.find?_cons, ht] using h
      simp only [Bool.false_eq_true, if_false, List.flatMap_cons]
      refine (List.Perm.append_left f.pages (flatMap_append_updFirst t x l h')).trans ?_
      rw [← List.append_assoc, ← List.append_assoc]
      exact List.Perm.append_right _ List.perm_append_comm
    · simp only [if_true, List.flatMap_cons]
      rw [← List.append_assoc]
      exact List.Perm.append_right _ List.perm_append_comm

/-- R98, R85: drawing pages moves them from the free list into the frame. -/
theorem allPages_drawPages (id n : Nat) : (st.drawPages id n).allPages.Perm st.allPages := by
  unfold Store.drawPages
  split
  · exact List.Perm.refl _
  · rename_i f h
    simp only [Store.allPages, Store.updFrame]
    refine (List.Perm.append_left _ (flatMap_append_updFirst _ (st.freeList.take n) st.frames ?_)).trans ?_
    · simp only [Store.frame?] at h
      simp [h]
    · rw [← List.append_assoc]
      refine List.Perm.append_right _ (List.perm_append_comm.trans ?_)
      rw [List.take_append_drop]

theorem allPages_drawReserved (id n : Nat) : (st.drawReserved id n).allPages.Perm st.allPages := by
  unfold Store.drawReserved
  split
  · exact List.Perm.refl _
  · rename_i f _
    have := allPages_updFrame (st.drawPages id n) id
      (fun g => { g with stepReserved := g.stepReserved - min n f.stepReserved }) (fun _ => rfl)
    refine List.Perm.trans (List.Perm.of_eq ?_) (allPages_drawPages st id n)
    exact this

theorem allPages_releaseStep (id : Nat) : (st.releaseStep id).allPages = st.allPages := by
  unfold Store.releaseStep
  split
  · rfl
  · exact allPages_updFrame st id (fun g => { g with stepReserved := 0 }) (fun _ => rfl)

/-- R103: a reader dropped, its frame freed where it was the last. -/
theorem allPages_dropReader (id : Nat) (m : Analysis) : (st.dropReader id m).allPages.Perm st.allPages := by
  have h : ((st.updFrame id (fun f => { f with readers := f.readers.set m false })).updReader m
      (fun r => { r with ready := r.ready.filter (fun i => !(i == id)) })).allPages = st.allPages :=
    allPages_updFrame st id _ (fun _ => rfl)
  unfold Store.dropReader
  dsimp only
  split
  · split
    · exact (allPages_freeFrame _ id).trans (List.Perm.of_eq h)
    · exact List.Perm.of_eq h
  · exact List.Perm.of_eq h

theorem allPages_unpin (id : Nat) (m : Analysis) : (st.unpin id m).allPages = st.allPages :=
  allPages_updFrame st id _ (fun _ => rfl)

theorem allPages_freeUnread (id : Nat) : (st.freeUnread id).allPages.Perm st.allPages := by
  unfold Store.freeUnread
  split
  · split
    · exact allPages_freeFrame st id
    · exact List.Perm.refl _
  · exact List.Perm.refl _

/-- R121: a teardown frees frames and loses no page. -/
theorem allPages_teardown (m : Analysis) : (st.teardown m).allPages.Perm st.allPages := by
  have key : ∀ (l : List Nat) (x : Store), (l.foldl Store.freeUnread x).allPages.Perm x.allPages := by
    intro l
    induction l with
    | nil => exact fun x => List.Perm.refl _
    | cons a l ih => exact fun x => (ih _).trans (allPages_freeUnread x a)
  refine (key _ _).trans (List.Perm.of_eq ?_)
  simp [Store.allPages, List.flatMap_map]

end Sys2Proof.Machine
end

