-- ==== Sys2Proof/Laws/Power.lean ====
section
/-! SUPPORT. What switching a port's power leaves alone (`SameTraffic`), and what the start queue and the sweep queue do. -/

namespace Sys2Proof.Machine

variable {s t u : State} {p : Port}

/-! ## The relation -/

theorem sameTraffic_refl (r : PortRec) : r.sameTraffic r := ⟨rfl, rfl, rfl, rfl, rfl, rfl, rfl, rfl⟩

theorem sameTraffic_trans {r v w : PortRec} (h : r.sameTraffic v) (k : v.sameTraffic w) : r.sameTraffic w := by
  obtain ⟨h1, h2, h3, h4, h5, h6, h7, h8⟩ := h
  obtain ⟨k1, k2, k3, k4, k5, k6, k7, k8⟩ := k
  exact ⟨k1.trans h1, k2.trans h2, k3.trans h3, k4.trans h4, k5.trans h5, k6.trans h6, k7.trans h7, k8.trans h8⟩

theorem SameTraffic.refl (s : State) (p : Port) : SameTraffic s s p :=
  ⟨fun _ _ => sameTraffic_refl _, rfl, rfl, rfl, rfl, rfl, rfl, rfl, rfl⟩

theorem SameTraffic.trans (h : SameTraffic s t p) (k : SameTraffic t u p) : SameTraffic s u p := by
  obtain ⟨h1, h2, h3, h4, h5, h6, h7, h8, h9⟩ := h
  obtain ⟨k1, k2, k3, k4, k5, k6, k7, k8, k9⟩ := k
  exact ⟨fun q hq => sameTraffic_trans (h1 q hq) (k1 q hq), k2.trans h2, k3.trans h3, k4.trans h4, k5.trans h5,
    k6.trans h6, k7.trans h7, k8.trans h8, k9.trans h9⟩

/-- What stays outside a port's record stays within its traffic, where the port keeps its profile, log and subscribers. -/
theorem SameOutside.traffic (h : SameOutside s t p) (h1 : (t.port p).profile = (s.port p).profile)
    (h2 : (t.port p).breakLog = (s.port p).breakLog) (h3 : (t.port p).subscribers = (s.port p).subscribers) :
    SameTraffic s t p := by
  obtain ⟨g1, g2, g3, _, _, g6, g7, g8⟩ := h
  exact ⟨fun q hq => by rw [g1 q hq]; exact sameTraffic_refl _, h1, h2, h3, g2, g3, g6, g7, g8⟩

theorem OnlyTraffic.traffic (h : OnlyTraffic s t p) : SameTraffic s t p :=
  h.1.traffic h.2.2.2.2.1 h.2.2.2.1 h.2.2.2.2.2

/-! ## The start queue (R32, R33) -/

/-- R32: a test of the head starts it, where no port is in INRUSH and the gap has passed, or changes nothing. -/
theorem testHead_cases (s : State) :
    s.testHead = s ∨
    ∃ p rest, s.mgr.startQueue = p :: rest ∧ s.noInrush = true ∧ s.gapPassed = true ∧ s.testHead = s.startPort p := by
  unfold State.testHead
  split
  · exact .inl rfl
  · rename_i p rest h
    split
    · rename_i hc
      simp only [Bool.and_eq_true] at hc
      exact .inr ⟨p, rest, h, hc.1, hc.2, rfl⟩
    · exact .inl rfl

/-- R33: what starting a port leaves in its record. -/
theorem startPort_port_self (s : State) (p : Port) :
    (s.startPort p).port p = { s.port p with
      power := PowerRec.enterInrush s.now (s.port p).profile.inrushWindow (s.port p).power
      link := { (s.port p).link with helloDeadline := some (s.now + ms (s.port p).profile.helloTimeout) } } := by
  simp [State.startPort, State.updLink, State.updPower]

theorem startPort_port_of_ne (s : State) {p q : Port} (h : q ≠ p) : (s.startPort p).port q = s.port q := by
  simp [State.startPort, h.symm]

theorem startPort_traffic (s : State) (p q : Port) : SameTraffic s (s.startPort p) q := by
  have key : ∀ r : Port, (s.port r).sameTraffic ((s.startPort p).port r) ∧
      ((s.startPort p).port r).profile = (s.port r).profile ∧ ((s.startPort p).port r).breakLog = (s.port r).breakLog ∧
      ((s.startPort p).port r).subscribers = (s.port r).subscribers := by
    intro r
    by_cases h : r = p
    · subst h
      rw [startPort_port_self]
      exact ⟨⟨rfl, rfl, rfl, rfl, rfl, rfl, rfl, rfl⟩, rfl, rfl, rfl⟩
    · rw [startPort_port_of_ne s h]
      exact ⟨sameTraffic_refl _, rfl, rfl, rfl⟩
  exact ⟨fun r _ => (key r).1, (key q).2.1, (key q).2.2.1, (key q).2.2.2, rfl, rfl, rfl, rfl, rfl⟩

theorem testHead_traffic (s : State) (p : Port) : SameTraffic s s.testHead p := by
  rcases testHead_cases s with h | ⟨q, _, _, _, _, h⟩ <;> rw [h]
  · exact SameTraffic.refl s p
  · exact startPort_traffic s q p

/-- A port that is not in the start queue keeps its record at a test of the head. -/
theorem testHead_port_of_not_mem (s : State) {p : Port} (h : p ∉ s.mgr.startQueue) : s.testHead.port p = s.port p := by
  rcases testHead_cases s with k | ⟨q, rest, hq, _, _, k⟩ <;> rw [k]
  exact startPort_port_of_ne s (fun e => h (by rw [hq, e]; exact List.mem_cons_self))

/-- The test of the head changes neither the committed sum nor the supply. -/
theorem testHead_mgr (s : State) : s.testHead.mgr = { s.mgr with startQueue := s.testHead.mgr.startQueue } := by
  rcases testHead_cases s with h | ⟨q, _, _, _, _, h⟩
  · rw [h]
  · rw [h]; rfl

/-! ## Switching off (R26, R31, R37) -/

theorem powerEvent_same (s : State) (u : Bool) (e : PowerEvent) : SameButMasters s (s.powerEvent u e) :=
  notifyAll_same s u _

theorem SameButMasters.traffic (h : SameButMasters s t) (p : Port) : SameTraffic s t p :=
  (h.only p).traffic

/-- R26: releasing an allotment. -/
theorem releaseAllotment_port_self (s : State) (p : Port) :
    (s.releaseAllotment p).port p = { s.port p with power := { (s.port p).power with allotment := none } } := by
  simp [State.releaseAllotment, State.updPower]

theorem releaseAllotment_port_of_ne (s : State) {p q : Port} (h : q ≠ p) : (s.releaseAllotment p).port q = s.port q := by
  simp [State.releaseAllotment, h.symm]

/-- Entry into OFF: the port's record, the committed sum and the start queue. -/
theorem enterOff_port_self (s : State) (p : Port) (c : OffCause) :
    (s.enterOff p c).port p =
      { s.port p with power := { (s.port p).power with allotment := none, state := .off, lastOff := some c } } := by
  simp [State.enterOff, State.releaseAllotment, State.updPower]

theorem enterOff_port_of_ne (s : State) {p q : Port} (c : OffCause) (h : q ≠ p) : (s.enterOff p c).port q = s.port q := by
  simp [State.enterOff, State.releaseAllotment, h.symm]

theorem enterOff_mgr (s : State) (p : Port) (c : OffCause) :
    (s.enterOff p c).mgr = { s.mgr with
      committed := s.mgr.committed - (s.port p).power.allotment.getD 0
      startQueue := s.mgr.startQueue.filter (fun q => !(q == p)) } := rfl

/-! ## Admission (R26, R27) -/

/-- An admission admits, or changes nothing. -/
theorem admit_cases (s : State) (p : Port) :
    (s.admitPort p = s.commitPort p ∧ s.admissionOutcome p = .done ∧ (s.port p).power.state = .off) ∨ s.admitPort p = s := by
  unfold State.admitPort
  split
  · rename_i h; exact .inl ⟨rfl, h.1, h.2⟩
  · exact .inr rfl

/-- R26: what admission leaves in the port's record. -/
theorem commitPort_port_self (s : State) (p : Port) :
    (s.commitPort p).port p = { s.port p with power :=
      { (s.port p).power with state := .queued, allotment := some (s.port p).profile.allotment } } := by
  simp [State.commitPort, State.updPower]

theorem commitPort_port_of_ne (s : State) {p q : Port} (h : q ≠ p) : (s.commitPort p).port q = s.port q := by
  simp [State.commitPort, h.symm]

theorem commitPort_mgr (s : State) (p : Port) :
    (s.commitPort p).mgr = { s.mgr with
      committed := s.mgr.committed + (s.port p).profile.allotment, startQueue := s.mgr.startQueue ++ [p] } := rfl

/-! ## The sweep queue (R49, R52, R53) -/

/-- R53: what entry into ACQUIRING leaves in the port's record. -/
theorem enterAcquiring_port_self (s : State) (e : SweepEntry) :
    (s.enterAcquiring e).port e.port = { s.port e.port with
      marks := { (s.port e.port).marks with sweepPending := false, testing := true }
      link := { (s.port e.port).link with state := .testing } } := by
  simp [State.enterAcquiring, State.updMarks, State.updLink]

theorem enterAcquiring_port_of_ne (s : State) (e : SweepEntry) {q : Port} (h : q ≠ e.port) :
    (s.enterAcquiring e).port q = s.port q := by
  simp [State.enterAcquiring, h.symm]

/-- R52: what an IDLE engine with a waiting entry does. -/
theorem takeEntry_cases (s : State) :
    (s.takeEntry = s ∧ (s.engine.state ≠ .idle ∨ s.engine.queue = [])) ∨
    ∃ e rest, s.engine.state = .idle ∧ s.engine.queue = e :: rest ∧
      ((s.now < (s.port e.port).power.deenergized + ms 100 ∧ s.takeEntry = s.updEngine (fun g => { g with
          queue := rest, current := some e, state := .dischargeWait
          dischargeEnd := some ((s.port e.port).power.deenergized + ms 100) })) ∨
        ((s.port e.port).power.deenergized + ms 100 ≤ s.now ∧ s.takeEntry = (s.updEngine (fun g => { g with
          queue := rest, current := some e, state := .dischargeWait
          dischargeEnd := some ((s.port e.port).power.deenergized + ms 100) })).enterAcquiring e)) := by
  unfold State.takeEntry
  split
  · rename_i e rest h1 h2
    refine .inr ⟨e, rest, h1, h2, ?_⟩
    dsimp only
    split
    · rename_i h; exact .inr ⟨h, rfl⟩
    · rename_i h; exact .inl ⟨Nat.lt_of_not_le h, rfl⟩
  · rename_i h
    refine .inl ⟨rfl, ?_⟩
    by_cases hi : s.engine.state = .idle
    · cases hq : s.engine.queue with
      | nil => exact .inr rfl
      | cons e rest => exact (h e rest hi hq).elim
    · exact .inl hi

end Sys2Proof.Machine
end

