-- ==== Sys2Proof/Laws/Requests.lean ====
section
/-! SUPPORT. What taking a request, replying to it and offering a notice do, said once. -/

namespace Sys2Proof.Machine

variable {s : State} {m : Master} {k : RequestKind} {e : RequestEntry} {fits : Bool} {act : State → Answer × State}

/-! ## Requests (R192, R193) -/

/-- A request that reaches its block: the block acts on the state without the request, and its answer is the reply. -/
theorem takeRequest_of_reaches (h : Reaches s m k e) :
    s.takeRequest m k true act = (act (s.taken m)).2.reply m e (act (s.taken m)).1 := by
  obtain ⟨⟨h1, h2⟩, h3, h4⟩ := h
  simp [State.takeRequest, State.taken, h1, h2, h3, h4]

/-- The same for a request whose fields have been judged to fit. -/
theorem takeRequest_of_reaches_fits (h : Reaches s m k e) (hf : fits = true) :
    s.takeRequest m k fits act = (act (s.taken m)).2.reply m e (act (s.taken m)).1 := by
  subst hf
  exact takeRequest_of_reaches h

/-- A malformed request, or one whose fields do not fit. -/
theorem takeRequest_of_malformed (h : Next s m k e) (hm : e.malformed = true ∨ fits = false) :
    s.takeRequest m k fits act = s.answered m e { result := .badRequest } := by
  obtain ⟨h1, h2⟩ := h
  have : (e.malformed || !fits) = true := by rcases hm with h | h <;> simp [h]
  simp [State.takeRequest, State.answered, State.taken, h1, h2, this]

/-- A request of a kind the port may not use. -/
theorem takeRequest_of_not_permitted (h : Next s m k e) (hm : e.malformed = false) (hp : k.permits m = false) :
    s.takeRequest m k true act = s.answered m e { result := .notPermitted } := by
  obtain ⟨h1, h2⟩ := h
  simp [State.takeRequest, State.answered, State.taken, h1, h2, hm, hp]

/-- A command whose request is not its master's next request changes nothing. -/
theorem takeRequest_of_no_next (h : ∀ e, ¬ Next s m k e) : s.takeRequest m k fits act = s := by
  unfold State.takeRequest
  split
  · rfl
  · rename_i e h1
    have : e.kind ≠ k.code := fun h2 => h e ⟨h1, h2⟩
    simp [this]

/-- A command that carries the bytes of its request's fields acts where they are those of its master's next request. -/
theorem ofRecord_of_next {l : List Byte} {t : State} (h : Next s m k e) (hl : e.fields = l) : s.ofRecord m l t = t := by
  simp [State.ofRecord, h.1, hl]

/-- Where they are other bytes, or no request of the kind is next, such a command changes nothing. -/
theorem ofRecord_takeRequest_of_other {l : List Byte} (h : ∀ e, Next s m k e → e.fields ≠ l) :
    s.ofRecord m l (s.takeRequest m k fits act) = s := by
  unfold State.ofRecord
  split
  · rename_i hf
    refine takeRequest_of_no_next (fun e he => h e he ?_)
    simpa [he.1] using hf
  · rfl

/-- Everything a request's command can do. -/
theorem takeRequest_cases (s : State) (m : Master) (k : RequestKind) (fits : Bool) (act : State → Answer × State) :
    s.takeRequest m k fits act = s ∨
    ∃ e, Next s m k e ∧
      (((e.malformed = true ∨ fits = false) ∧
          s.takeRequest m k fits act = s.answered m e { result := .badRequest }) ∨
        (k.permits m = false ∧ s.takeRequest m k fits act = s.answered m e { result := .notPermitted }) ∨
        (Reaches s m k e ∧ fits = true ∧
          s.takeRequest m k fits act = (act (s.taken m)).2.reply m e (act (s.taken m)).1)) := by
  by_cases hn : ∃ e, Next s m k e
  · obtain ⟨e, he⟩ := hn
    refine .inr ⟨e, he, ?_⟩
    by_cases hm : e.malformed = true ∨ fits = false
    · exact .inl ⟨hm, takeRequest_of_malformed he hm⟩
    · have h1 : e.malformed = false := by
        cases h : e.malformed
        · rfl
        · exact absurd (.inl h) hm
      have h2 : fits = true := by
        cases h : fits
        · exact absurd (.inr h) hm
        · rfl
      subst h2
      cases hp : k.permits m with
      | false => exact .inr (.inl ⟨rfl, takeRequest_of_not_permitted he h1 hp⟩)
      | true => exact .inr (.inr ⟨⟨he, h1, hp⟩, rfl, takeRequest_of_reaches ⟨he, h1, hp⟩⟩)
  · exact .inl (takeRequest_of_no_next (fun e he => hn ⟨e, he⟩))

/-- A request that names a port in 0..7. -/
@[simp] theorem onPort_of_portOf {n : Nat} {p : Port} (h : portOf n = some p) (act : Port → State → Answer × State)
    (s : State) : onPort n act s = act p s := by simp [onPort, h]

/-- A request that names a port outside 0..7. -/
theorem onPort_of_gt {n : Nat} (h : 7 < n) (act : Port → State → Answer × State) (s : State) :
    onPort n act s = ({ result := .badRange }, s) := by
  have : portOf n = none := by simp [portOf]; omega
  simp [onPort, this]

@[simp] theorem portOf_val (p : Port) : portOf p.val = some p := by simp [portOf]

theorem portOf_eq_some {n : Nat} {p : Port} : portOf n = some p ↔ n = p.val := by
  unfold portOf
  split
  · constructor
    · intro h
      simp only [Option.some.injEq] at h
      exact congrArg Fin.val h
    · intro h
      subst h
      rfl
  · rename_i h
    constructor
    · intro h2
      cases h2
    · intro h2
      exact absurd (h2 ▸ p.isLt) h

/-! ## Replies (R192, R205) -/

/-- Outside the cell port a reply is one record. -/
@[simp] theorem replyParts_fabric (r : ReplyRecord) : replyParts false r = [r] := by simp [replyParts]

/-- A reply that lists nothing is one record. -/
theorem replyParts_of_no_list (c : Bool) (r : ReplyRecord) (h : r.body.listed.1 = 0) : replyParts c r = [r] := by
  simp [replyParts, h]

/-! ## Notices (R188, R194, R195) -/

variable (n : Notice) (r : MasterRec)

/-- An offered notice changes no part of a master's record but its notices, its overrun mark and its transaction. -/
theorem offer_fields : (r.offer n).attached = r.attached ∧ (r.offer n).requests = r.requests ∧
    (r.offer n).replies = r.replies ∧ (r.offer n).mask = r.mask ∧ (r.offer n).watermark = r.watermark ∧
    (r.offer n).protocolErrors = r.protocolErrors ∧ (r.offer n).framingErrors = r.framingErrors ∧
    (r.offer n).fetchOut = r.fetchOut ∧ (r.offer n).sending = r.sending ∧ (r.offer n).advertised = r.advertised ∧
    (r.offer n).creditDue = r.creditDue := by
  unfold MasterRec.offer
  repeat' split
  all_goals simp

/-- A queue without its oldest routine notice is one shorter, where it holds one. -/
theorem length_dropRoutine : ∀ l : List Notice, l.any (fun x => !x.urgent) = true → (dropRoutine l).length + 1 = l.length
  | [], h => by simp at h
  | x :: l, h => by
    unfold dropRoutine
    split
    · rename_i hx
      have : l.any (fun x => !x.urgent) = true := by simpa [hx] using h
      simp [length_dropRoutine l this]
    · simp

/-- R187: a notice queue never holds more than 32. -/
theorem offer_notices_length (h : r.notices.length ≤ 32) : (r.offer n).notices.length ≤ 32 := by
  unfold MasterRec.offer
  split
  · exact h
  · split
    · exact h
    · split
      · rename_i hl
        simp only [Config.noticeEntries] at hl
        simp
        omega
      · split
        · rename_i hr
          have := length_dropRoutine r.notices (by simp only [Bool.and_eq_true] at hr; exact hr.2)
          simp
          omega
        · exact h

/-- R188, R194: a notice reaches an attached master with room whose mask lets it pass. -/
theorem offer_of_room (ha : r.attached = true) (hm : n.urgent = true ∨ r.mask.enabled n.body.kind = true)
    (hl : r.notices.length < 32) : r.offer n = { r with notices := r.notices ++ [n] } := by
  have : (!n.urgent && !r.mask.enabled n.body.kind) = false := by rcases hm with h | h <;> simp [h]
  simp [MasterRec.offer, ha, this, Config.noticeEntries, hl]

/-- R188: nothing is offered to a detached master. -/
theorem offer_of_detached (ha : r.attached = false) : r.offer n = r := by simp [MasterRec.offer, ha]

end Sys2Proof.Machine
end

