-- ==== Sys2Proof/Tests/Slice0.lean ====
section
/-! SUPPORT. Tests: the checks of `WellFormed` refuse what they must; worked cases and tables of the spec; and for each statement
of Obligations.lean a state and operands that meet its hypotheses (`witness_<statement>`), at boundary values. -/

namespace Sys2Proof.Tests

open Sys2Proof Sys2Proof.Machine

/-! ## Well-formedness: one ill-formed command for each check -/

/-- A HELLO body of the right form. -/
def goodHello : HelloBody :=
  { modelLength := 1, model := List.replicate 24 0, serialLength := 1, serial := List.replicate 16 65, rateCode := 2,
    powerClass := 500, present := ⟨true, false, true⟩, speed := ⟨40, 0, 10⟩, bodyLength := 49 }

theorem test_wf_hello : Instr.wellFormed (.hello 0 .r1250 goodHello) = true := by decide

theorem test_wf_hello_refused :
    Instr.wellFormed (.hello 0 .r1250 { goodHello with modelLength := 256 }) = false ∧
    Instr.wellFormed (.hello 0 .r1250 { goodHello with serialLength := 256 }) = false ∧
    Instr.wellFormed (.hello 0 .r1250 { goodHello with rateCode := 256 }) = false ∧
    Instr.wellFormed (.hello 0 .r1250 { goodHello with powerClass := 65536 }) = false ∧
    Instr.wellFormed (.hello 0 .r1250 { goodHello with speed := ⟨256, 0, 10⟩ }) = false ∧
    Instr.wellFormed (.hello 0 .r1250 { goodHello with speed := ⟨40, 256, 10⟩ }) = false ∧
    Instr.wellFormed (.hello 0 .r1250 { goodHello with speed := ⟨40, 0, 256⟩ }) = false ∧
    Instr.wellFormed (.hello 0 .r1250 { goodHello with bodyLength := 32771 }) = false ∧
    Instr.wellFormed (.hello 0 .r1250 { goodHello with model := [] }) = false ∧
    Instr.wellFormed (.hello 0 .r1250 { goodHello with serial := [] }) = false ∧
    Instr.wellFormed (.hello 0 .r1250 { goodHello with bodyLength := 48, serial := List.replicate 17 0 }) = false := by decide

theorem test_wf_lensReport_refused :
    Instr.wellFormed (.lensReport 0 .r1250
      [⟨.focus, 0, true⟩, ⟨.iris, 0, true⟩, ⟨.zoom, 0, true⟩, ⟨.focus, 0, true⟩]) = false ∧
    Instr.wellFormed (.lensReport 0 .r1250 [⟨.iris, 0, true⟩, ⟨.iris, 1, true⟩]) = false ∧
    Instr.wellFormed (.lensReport 0 .r1250 [⟨.iris, 4096, true⟩]) = false := by decide

theorem test_wf_frames_refused :
    Instr.wellFormed (.frameOpen 0 .r1250 65536 16 1) = false ∧ Instr.wellFormed (.frameOpen 0 .r1250 0 65536 1) = false ∧
    Instr.wellFormed (.frameOpen 0 .r1250 0 16 65536) = false ∧ Instr.wellFormed (.line 0 .r1250 65536 []) = false ∧
    Instr.wellFormed (.frameClose 0 .r1250 65536) = false ∧
    Instr.wellFormed (.checkFailedPacket 0 .r1250 (some (65536, []))) = false := by decide

theorem test_wf_lengths_refused :
    Instr.wellFormed (.line 0 .r1250 0 (List.replicate 32769 0)) = false ∧
    Instr.wellFormed (.checkFailedPacket 0 .r1250 (some (0, List.replicate 32769 0))) = false ∧
    Instr.wellFormed (.acquisitionRepetition (List.replicate 1023 0)) = false ∧
    Instr.wellFormed (.fabricRecordArrival .A (List.replicate 65536 0) true true) = false ∧
    Instr.wellFormed (.writePreset .A (List.replicate 65528 0)) = false ∧
    Instr.wellFormed (.loadSequence .A (List.replicate 65528 0)) = false ∧
    Instr.wellFormed (.fire .A 0 (some 4294967296)) = false := by
  simp only [Instr.wellFormed, lineBytes, recordBytes, isWord, isLong, Config.traceSamples, List.length_replicate]
  decide

/-! ## Worked cases of the spec -/

/-- A trace at a launch level with one deviation at an index and one at the index before it, of 1024 samples. -/
def traceOf (launch : Int) (i : Nat) (before at_ : Int) : List Int :=
  List.replicate (i - 1) launch ++ [launch + before, launch + at_] ++ List.replicate (1024 - (i + 1)) launch

/-- The fixed parameters of the worked cases (3, "Worked cases"). -/
def caseParams : SweepParams := ⟨16, 14000, 660, 350, 200, 16⟩

/-- The record of a worked case. -/
def caseRecord (q : SweepParams) (trace : List Int) : BreakRecord := breakRecord 0 .linkLost q trace

/-- Case 1: L = 1200, T = 240, crossing 300 with 180 before 420: p16 = 4788, 14 451 mm, CAMERA_END. -/
theorem test_case1 :
    let r := caseRecord caseParams (traceOf 1200 300 180 420)
    (r.launch, r.threshold, r.crossing, r.position) = (1200, some 240, some 300, some 4788) ∧
      (r.distance, r.kind, r.lengthDiffers) = (14451, .cameraEnd, false) := by decide +kernel

/-- Case 2: with S = 30 000 the same trace is OPEN and locks out. -/
theorem test_case2 :
    let r := caseRecord { caseParams with installed := 30000 } (traceOf 1200 300 180 420)
    (r.distance, r.kind, r.kind.locksOut) = (14451, .open, true) := by decide +kernel

/-- Case 3: with S = 0 it is OPEN_UNPLACED, without lockout. -/
theorem test_case3 :
    let r := caseRecord { caseParams with installed := 0 } (traceOf 1200 300 180 420)
    (r.distance, r.kind, r.kind.locksOut) = (14451, .openUnplaced, false) := by decide +kernel

/-- Case 4: a crossing at the blind edge, and the same with O = 1000. -/
theorem test_case4 :
    let r := caseRecord caseParams (traceOf 1000 16 250 310)
    let r' := caseRecord { caseParams with offset := 1000 } (traceOf 1000 16 250 310)
    (r.threshold, r.crossing, r.position, r.distance, r.kind) = (some 200, some 16, some 240, 391, .open) ∧
      (r'.crossing, r'.position, r'.distance) = (some 16, some 240, 0) := by decide +kernel

/-- Case 5: a crossing exactly at the threshold takes f = 15; the distance is above S + tol. -/
theorem test_case5 :
    let r := caseRecord caseParams (traceOf 1200 500 (-30) 240)
    (r.crossing, r.position, r.distance, r.kind, r.lengthDiffers) =
      (some 500, some 7999, 24378, .cameraEnd, true) := by decide +kernel

/-- Case 6: the launch samples sum to -313; rounding down gives L = -40, the near-end short. -/
theorem test_case6 :
    let r := caseRecord caseParams (List.replicate 4 0 ++ [-313] ++ List.replicate 1019 0)
    (r.launch, r.kind, r.distance) = (-40, .short, 0) ∧
      (r.crossing, r.position, r.threshold, r.peak) = (none, none, none, none) := by decide +kernel

/-- Case 7: no index reaches 230; CLEAR with the peak deviation 97. -/
theorem test_case7 :
    let r := caseRecord caseParams (traceOf 1150 700 (-97) 20)
    (r.launch, r.threshold, r.kind, r.distance, r.peak, r.crossing) =
      (1150, some 230, .clear, 0, some 97, none) := by decide +kernel

/-- R56: a sum of -37 with N = 16 gives -3, and 37 gives 2. -/
theorem test_averaged : averagedTrace 16 [-37, 37] = [-3, 2] := by decide

/-- 6, worked sequence: focus from 1000 to 3000 at 40 counts a ms and zoom over 600 counts at 10, allowance 20: the deadlines at
570 and 580 ms. -/
theorem test_move_deadlines :
    (AxisRec.moveTo 0 20 3000 ⟨40, some 1000, none, .idle, none⟩).deadline = some (ms 570) ∧
    (AxisRec.moveTo 0 20 1400 ⟨10, some 2000, none, .idle, none⟩).deadline = some (ms 580) := by decide

/-- R205: a LIST_FRAMES reply of 32 entries on C comes back in 8 parts of 4 entries. -/
theorem test_list_frames_parts :
    let e : ListEntry := ⟨1, 0, .freeRun, 0, 1, 0, 0, 16, 1, 1, 0, 0, none, Tags.none, ⟨none, none, none⟩, ⟨true, false⟩, 0⟩
    let parts := replyParts true ⟨7, 14, .done, [], .frames ⟨32, 64, .keepNewest, 0⟩ (List.replicate 32 e), 0, true⟩
    parts.length = 8 ∧ parts.all (fun r => r.body.listed.1 == 4) = true ∧
      parts.map ReplyRecord.lastPart = [false, false, false, false, false, false, false, true] := by decide

/-! ### Bytes (11.1 to 11.3), written out from the layouts -/

/-- IDLE: kind 0, length 0, the complement of 0. LENS_REPORT: zoom at 4095, settled: body 01 02 FF 0F 01, sum 274. -/
theorem test_packet_bytes :
    upPacketOf 2 .r2500 [0x00, 0x00, 0x00, 0xFF] = .idle 2 .r2500 ∧
    upPacketOf 2 .r2500 [0x02, 0x05, 0x00, 0xF8, 0x01, 0x02, 0xFF, 0x0F, 0x01, 0x12, 0x01] =
      .lensReport 2 .r2500 [⟨.zoom, 4095, true⟩] ∧
    upPacketOf 2 .r2500 [0x03, 0x06, 0x00, 0xF6, 0x34, 0x12, 0x00, 0x08, 0xB0, 0x04, 0x02, 0x01] =
      .frameOpen 2 .r2500 0x1234 2048 1200 ∧
    upPacketOf 2 .r2500 [0x04, 0x04, 0x00, 0xF7, 0x02, 0x01, 0xAA, 0xBB, 0x68, 0x01] = .line 2 .r2500 258 [0xAA, 0xBB] ∧
    upPacketOf 2 .r2500 [0x05, 0x02, 0x00, 0xF8, 0x10, 0x00, 0x10, 0x00] = .frameClose 2 .r2500 16 := by decide

/-- A wrong header check or body check fails a check; a LINE whose body check fails keeps its index; kind 6 and a LINE body of one
byte are malformed. -/
theorem test_bad_packets :
    upPacketOf 2 .r2500 [0x00, 0x00, 0x00, 0xFE] = .checkFailedPacket 2 .r2500 none ∧
    upPacketOf 2 .r2500 [0x04, 0x04, 0x00, 0xF7, 0x02, 0x01, 0xAA, 0xBB, 0x69, 0x01] =
      .checkFailedPacket 2 .r2500 (some (258, [0xAA, 0xBB])) ∧
    upPacketOf 2 .r2500 [0x05, 0x02, 0x00, 0xF8, 0x10, 0x00, 0x11, 0x00] = .checkFailedPacket 2 .r2500 none ∧
    upPacketOf 2 .r2500 [0x06, 0x00, 0x00, 0xF9] = .malformedPacket 2 .r2500 ∧
    upPacketOf 2 .r2500 [0x04, 0x01, 0x00, 0xFA, 0x02, 0x02, 0x00] = .malformedPacket 2 .r2500 := by decide

/-- Down-channel packets: WELCOME at 5.0 Gb/s, TRIGGER of 250 µs, LENS_GOTO of iris 100 and zoom 300. -/
theorem test_down_packet_bytes :
    DownPacket.bytes (.welcome .r5000) = [0x01, 0x01, 0x00, 0xFD, 0x02, 0x02, 0x00] ∧
    DownPacket.bytes (.trigger (some 250)) = [0x03, 0x04, 0x00, 0xF8, 0xFA, 0x00, 0x00, 0x00, 0xFA, 0x00] ∧
    DownPacket.bytes (.lensGoto ⟨none, some 100, some 300⟩) =
      [0x04, 0x07, 0x00, 0xF4, 0x02, 0x01, 0x64, 0x00, 0x02, 0x2C, 0x01, 0x96, 0x00] := by decide

/-- The fourteen bytes of a step: a DWELL of 60 000 ms with chain and note; a TRIGGER of 16 lines of 32 bytes, no exposure, no close
timeout; a LENS on preset 63; a reserved flag bit is refused. -/
theorem test_step_bytes :
    parseStep [0x04, 0x05, 0x60, 0xEA, 0, 0, 0, 0, 0, 0, 0, 0, 0, 0] =
      some ⟨.dwell 60000, true, false, true, false, false⟩ ∧
    parseStep [0x03, 0x08, 0x00, 0x00, 0, 0, 0, 0, 0x10, 0x00, 0x20, 0x00, 0xFF, 0xFF] =
      some ⟨.trigger none 16 32 none, false, false, false, true, false⟩ ∧
    parseStep [0x00, 0x01, 0x01, 0x3F, 0xFF, 0xFF, 0xFF, 0xFF, 0xFF, 0xFF, 0xFF, 0xFF, 0, 0] =
      some ⟨.lens (some 63) ⟨none, none, none⟩ none, true, false, false, false, false⟩ ∧
    parseStep [0x04, 0x20, 0x60, 0xEA, 0, 0, 0, 0, 0, 0, 0, 0, 0, 0] = none := by decide

/-- Master records: the EMPTY record, a credit message of 5, and a header read back. -/
theorem test_record_bytes :
    emptyRecord = [0, 0, 0, 0, 8, 0, 0, 0] ∧ creditRecord 5 = [6, 0, 0, 0, 8, 0, 5, 0] ∧
    parseHeader [1, 44, 0x34, 0x12, 8, 0, 0, 0] = some ⟨1, 44, 0x1234, 8, 0, 0⟩ := by decide

/-- R202, 11.1: an urgent HOLD_LAPSED notice with the overrun mark, and the last part, number 2, of a LIST_FRAMES reply on C
with result BAD_RANGE and no clamped field. -/
theorem test_record_heads :
    Notice.head true 0 20 true ⟨true, 258, .holdLapsed 3 .breakHold false⟩ =
      [3, 10, 0, 0, 20, 0, 0, 0, 2, 1, 0, 0, 0, 0, 0, 0, 3, 0] ∧
    ReplyRecord.head true 0 10 ⟨7, 14, .badRange, [], .empty, 2, true⟩ = [2, 14, 7, 0, 10, 0, 0, 130, 5, 0] ∧
    [WriteKind.writePreset, .erasePreset, .writeProfile, .writeCell, .lockPreset].map WriteKind.code = [23, 24, 25, 26, 27] ∧
    PresetStore.newPart.engineCode = 0 ∧ powerActionCode false = 1 ∧
    Result.fetchQueueFull.code = 27 ∧ NoticeKind.holdLapsed.code = 10 ∧ EndStatus.presetMissing.code = 8 := by decide

/-! ## Witnesses -/

/-- The hub one second after reset. -/
def at1 : State := { State.reset with now := 1000000 }

/-- A waiting request of a kind, with tag 7, and with some bytes of fields. -/
def entryWith (k : RequestKind) (fields : List Byte) : RequestEntry := ⟨7, k.code, false, true, fields⟩

/-- A waiting request of a kind, with tag 7. -/
def entryOf (k : RequestKind) : RequestEntry := entryWith k []

/-- A state in which master `m` has one request waiting, of kind `k`, with some bytes of fields. -/
def askedWith (s : State) (m : Master) (k : RequestKind) (fields : List Byte) : State :=
  s.updMaster m (fun r => { r with attached := true, requests := [entryWith k fields] })

/-- A state in which master `m` has one request waiting, of kind `k`. -/
def asked (s : State) (m : Master) (k : RequestKind) : State := askedWith s m k []

theorem asked_next (s : State) (m : Master) (k : RequestKind) : Next (asked s m k) m k (entryOf k) := by
  refine ⟨?_, rfl⟩
  simp [asked, askedWith, MasterRec.nextRequest, entryOf, entryWith]

/-- The request is next, well-formed, and of a kind that its port may use. -/
theorem asked_reaches (s : State) (m : Master) (k : RequestKind) (h : k.permits m = true) :
    Reaches (asked s m k) m k (entryOf k) := ⟨asked_next s m k, rfl, h⟩

/-- The same of a request with bytes of fields. -/
theorem askedWith_reaches (s : State) (m : Master) (k : RequestKind) (l : List Byte) (h : k.permits m = true) :
    Reaches (askedWith s m k l) m k (entryWith k l) := by
  refine ⟨⟨?_, rfl⟩, rfl, h⟩
  simp [askedWith, MasterRec.nextRequest, entryWith]

/-- A request leaves the ports, the store and every other block as they were. -/
theorem asked_same (s : State) (m : Master) (k : RequestKind) (p : Port) :
    (asked s m k).port p = s.port p ∧ (asked s m k).store = s.store ∧ (asked s m k).mgr = s.mgr ∧
    (asked s m k).presets = s.presets ∧ (asked s m k).engine = s.engine ∧ (asked s m k).lines = s.lines ∧
    (asked s m k).now = s.now := ⟨rfl, rfl, rfl, rfl, rfl, rfl, rfl⟩

/-- A port in a power state, with an allotment of 500 mA where it is committed. -/
def powered (st : PowerState) (r : PortRec) : PortRec :=
  { r with power := { r.power with state := st, allotment := if st.committed then some 500 else none } }

/-- A link in a state at 5.0 Gb/s, last heard at 900 ms. -/
def linked (st : LinkState) (r : PortRec) : PortRec :=
  { r with link := { r.link with state := st, listen := .r5000, current := some .r5000, lastPacket := some 900000 } }

/-- The hub with camera 3 ON and its link UP, the supply NORMAL. -/
def cam : State :=
  (at1.updPort 3 (fun r => linked .up (powered .on r))).updMgr
    (fun g => { g with supply := .normal, committed := 500, startUpPending := false })

/-- That hub with port 3's record changed. -/
def on3 (f : PortRec → PortRec) : State := cam.updPort 3 f

/-- A frame record: frame 9 of port 3, 16 lines of 16 bytes, in one page. -/
def frame9 (st : FrameState) (stored : Nat) (readers : PerAnalysis Bool) : FrameRec :=
  ⟨9, 3, .freeRun, st, 0, none, 16, 16, stored, 1, 16, 0, 0, none, Tags.none, ⟨none, none, none⟩, [5], readers, ⟨0, 0⟩, none,
    none, 0⟩

/-- An intake FILLING frame 9. -/
def fillingIntake (highest : Option Nat) (buffers : List BufferedLine) : IntakeRec :=
  { IntakeRec.reset with
    state := .filling, openFrame := some 9, width := some 16, declaredWidth := some 16, lines := some 16,
    capacity := some 16, highest := highest, lastActivity := some 750000, buffers := buffers }

/-- Camera 3 with frame 9 open. -/
def camFilling (highest : Option Nat) (buffers : List BufferedLine) (stored : Nat) : State :=
  { on3 (fun r => { r with intake := fillingIntake highest buffers }) with
    store := { cam.store with frames := [frame9 .filling stored ⟨true, false⟩] } }

/-- A step of a kind, the last of its list unless `chain`. -/
def stepOf (k : StepKind) (chain : Bool) : Step := ⟨k, chain, false, false, false, false⟩

/-- A context READY with a list of steps. -/
def readyCtx (l : List Step) : SeqCtx :=
  { SeqCtx.reset with state := .ready, owner := some .A, steps := some l, starter := some .A, ended := some (.normal, 0) }

/-- A context RUNNING step 0 of a list in a phase, with a deadline. -/
def runCtx (l : List Step) (f : Phase) (d : Option Time) : SeqCtx :=
  { readyCtx l with state := .running, index := some 0, phase := some f, deadline := d }

/-- Camera 3 with a context. -/
def camSeq (c : SeqCtx) : State := on3 (fun r => { r with seq := c })

/-- An axis entry. -/
def axisOf (m : Motion) (t : Option Nat) (d : Option Time) : AxisRec := ⟨40, some 1000, t, m, d⟩

/-- Camera 3 with a lens of two axes, focus MOVING to 3000 by 1 s. -/
def camLens (h : Option Master) : State :=
  on3 (fun r => { r with lens :=
    ⟨⟨some (axisOf .moving (some 3000) (some 1000000)), none, some (axisOf .stalled (some 5) none)⟩, h, false, some .B⟩ })

theorem witness_EmptyQueueTicksTheTimebase : State.reset.pending = [] := rfl

theorem witness_AttentionLinesFollowTheQueues : State.reset.attentionFollows ∧ step State.reset = .next State.reset.tick :=
  ⟨fun m => by cases m <;> rfl, rfl⟩

theorem witness_DramKeepsItsCanonicalForm : State.reset.store.dram.wf = true ∧ step State.reset = .next State.reset.tick :=
  ⟨rfl, rfl⟩

theorem witness_PagesAreFreeOrInOneFrame : State.reset.store.pagesKept ∧ step State.reset = .next State.reset.tick := by
  refine ⟨?_, rfl⟩
  rw [show State.reset.store = Store.afterReset [] from rfl]
  unfold Store.pagesKept Store.afterReset
  simp only [List.flatMap_nil, List.append_nil]
  exact List.Perm.refl _

theorem witness_QueuesStayWithinTheirBounds : State.reset.queuesBounded ∧ step State.reset = .next State.reset.tick := by
  refine ⟨⟨fun p => ?_, fun a => ?_, fun m => ?_⟩, rfl⟩
  · revert p; decide
  · cases a <;> decide
  · cases m <;> decide

theorem witness_HubAccountsAreKept :
    cam.powerAccounts ∧ cam.sweepAccounts ∧ cam.sequencesUp ∧ step cam = .next cam.tick := by
  refine ⟨⟨?_, ?_, ?_, ?_, ?_⟩, ⟨?_, ?_, ?_, ?_⟩, ?_, rfl⟩ <;>
    first | decide | (unfold State.sequencesUp; decide)

theorem witness_LeavingUpQuietensThePort :
    cam.powerAccounts ∧ cam.sweepAccounts ∧ (cam.port 3).link.state = .up ∧
    ∃ t, exec (.lockLoss 3) cam = .next t ∧ (t.port 3).link.state ≠ .up := by
  refine ⟨⟨?_, ?_, ?_, ?_, ?_⟩, ⟨?_, ?_, ?_, ?_⟩, rfl, _, rfl, ?_⟩ <;>
    decide

theorem witness_UpPacketsRoundTrip :
    Instr.wellFormed (.lensReport 7 .r1250 [⟨.zoom, 4095, true⟩]) = true ∧
    soundPacket 7 .r1250 (.lensReport 7 .r1250 [⟨.zoom, 4095, true⟩]) ∧
    upPacketBytes (.lensReport 7 .r1250 [⟨.zoom, 4095, true⟩]) =
      some [0x02, 0x05, 0x00, 0xF8, 0x01, 0x02, 0xFF, 0x0F, 0x01, 0x12, 0x01] ∧
    Instr.wellFormed (.hello 7 .r1250 goodHello) = true ∧ soundPacket 7 .r1250 (.hello 7 .r1250 goodHello) :=
  ⟨by decide, ⟨rfl, rfl⟩, by decide, by decide, ⟨rfl, rfl, rfl⟩⟩

theorem witness_SequenceStepsRoundTrip :
    StepKind.fitsFields (.dwell 65535) = true ∧ StepKind.fitsFields (.lens (some 255) ⟨some 65534, none, none⟩ none) = true := by
  decide

theorem witness_ReservedKindsAreNotPermitted :
    requestOf (.lockDown .A) = some (.A, .lockDown) ∧ Next (asked at1 .A .lockDown) .A .lockDown (entryOf .lockDown) ∧
    (entryOf .lockDown).malformed = false ∧ fieldsFit (.lockDown .A) = true ∧
    requestOf (.setFramePolicy .C none (some 1)) = some (.C, .setFramePolicy) ∧
    Next (asked at1 .C .setFramePolicy) .C .setFramePolicy (entryOf .setFramePolicy) ∧
    fieldsFit (.setFramePolicy .C none (some 1)) = true :=
  ⟨rfl, asked_next .., rfl, rfl, rfl, asked_next .., rfl⟩

theorem witness_MalformedRequestsAreRefused :
    requestOf (.portPowerOn .B []) = some (.B, .portPower) ∧ Next (asked at1 .B .portPower) .B .portPower (entryOf .portPower) ∧
    fieldsFit (.portPowerOn .B []) = false ∧ fieldsFit (.portPowerOn .B (List.replicate 9 0)) = false ∧
    ((at1.updMaster .B (fun r => { r with requests := [⟨7, 45, false, true, []⟩] })).master .B).nextRequest =
      some ⟨7, 45, false, true, []⟩ :=
  ⟨rfl, asked_next .., by decide, by decide, rfl⟩

theorem witness_PortsOutsideTheRangeAreRefused :
    requestOf (.fire .A 8 none) = some (.A, .fire) ∧ Reaches (asked at1 .A .fire) .A .fire (entryOf .fire) ∧
    fieldsFit (.fire .A 8 none) = true ∧ portNamed (.fire .A 8 none) = some 8 ∧ 7 < 8 :=
  ⟨rfl, asked_reaches _ _ _ rfl, rfl, rfl, by decide⟩

/-- The kinds of the requests that only read. -/
def readKinds : List RequestKind :=
  [RequestKind.readPower, .readBreakLog, .readLens, .readSequence, .readProfile, .readPreset, .readCell,
    .readStoreStatus, .readStore, .readTriggers, .readPart, .listFrames]

theorem witness_ReadRequestsAnswerFromTheState :
    (∀ k ∈ readKinds, Reaches (asked at1 .C k) .C k (entryOf k)) ∧
    Reaches (asked at1 .B .listFrames) .B .listFrames (entryOf .listFrames) ∧ portOf 7 = some 7 ∧
    Master.B = Analysis.B.master ∧ Option.getD (some 511) 0 ≤ 511 :=
  ⟨fun k h => asked_reaches at1 .C k ((by decide : ∀ k ∈ readKinds, k.permits .C = true) k h), asked_reaches _ _ _ rfl, rfl,
    rfl, by decide⟩

theorem witness_LinkRequestsAct :
    (∀ k, (k = .readCamera ∨ k = .setRateLimit ∨ k = .retrain) → Reaches (asked cam .A k) .A k (entryOf k)) ∧
    portOf 3 = some 3 ∧ ((asked cam .A .retrain).port 3).link.state = .up ∧
    ((asked cam .A .retrain).port 0).link.state ≠ .up ∧ ((asked cam .A .retrain).port 3).waiting.length < 16 :=
  ⟨fun k h => asked_reaches cam .A k (by rcases h with h | h | h <;> subst h <;> rfl), rfl, rfl, by decide, by decide⟩

/-- Camera 3 in training at 5.0 Gb/s, the clean run started at 990 ms. -/
def training (clean : Option Time) (r : Rate) : State :=
  on3 (fun x => { x with link :=
    { x.link with state := .training, listen := r, current := some r, attempt := some ⟨800000, 1000000, clean, true⟩ } })

theorem witness_CheckPassedPacketsCountTowardTheCleanRun :
    (cam.port 0).link.state = .down ∧ (cam.port 3).link.state = .up ∧ (cam.port 3).link.attempt = none ∧
    ((training none .r5000).port 3).link.attempt = some ⟨800000, 1000000, none, true⟩ ∧
    ((training (some 990001) .r5000).port 3).link.state = .training ∧
    (training (some 990001) .r5000).now < 990001 + 10000 ∧ 990000 + 10000 ≤ (training (some 990000) .r5000).now ∧
    cam.receives 3 .r5000 = true := by decide

theorem witness_CheckFailedPacketsCountAndFailAttempts :
    ((on3 (linked .lost)).port 3).link.state = .lost ∧ ((on3 (linked .lost)).port 3).link.attempt = none ∧
    ((on3 (fun r => { r with link := { r.link with window := some ⟨0, 32⟩ } })).port 3).link.window = some ⟨0, 32⟩ ∧
    ((training none .r2500).port 3).link.current = some .r2500 ∧ Rate.lower .r2500 = some .r1250 ∧
    ((training none .r2500).port 3).waiting.length < 16 := by decide

theorem witness_HelloIsRecordedAndStartsTraining :
    ((on3 (linked .awaitHello)).port 3).link.attempt = none ∧
    ((on3 (linked .awaitHello)).port 3).link.state = .awaitHello ∧
    HelloBody.wellFormed { goodHello with powerClass := 49 } = false ∧ HelloBody.wellFormed goodHello = true ∧
    (HelloBody.identity goodHello).powerClass ≤ ((on3 (linked .awaitHello)).port 3).power.allotment.getD 0 ∧
    HelloBody.wellFormed { goodHello with powerClass := 501 } = true ∧
    ((on3 (linked .awaitHello)).port 3).power.allotment.getD 0 < 501 ∧ (cam.port 3).power.state = .on := by decide

theorem witness_DownChannelSendsInOrder :
    (cam.port 3).link.state = .up ∧ (cam.port 3).waiting = [] ∧
    ((on3 (fun r => { r with waiting := [.rateSet .r2500, .lensStop] })).port 3).waiting = [.rateSet .r2500, .lensStop] ∧
    DownPacket.needsUp (.rateSet .r2500) = false ∧ DownPacket.needsUp .lensStop = true ∧ (cam.port 0).link.state = .down := by
  decide

theorem witness_LinkDeadlinesLeadToLost :
    ((on3 (fun r => { r with link := { (linked .awaitHello r).link with helloDeadline := some 1000000 } })).port
      3).link.helloDeadline = some 1000000 ∧
    ((training none .r1250).port 3).link.attempt = some ⟨800000, 1000000, none, true⟩ ∧
    (training none .r1250).now = 1000000 ∧ ((training none .r1250).port 3).link.current = some .r1250 ∧
    (cam.port 3).link.lastPacket = some 900000 ∧ 900000 + 50000 ≤ cam.now ∧ (cam.port 3).profile.autoSweep = true ∧
    (cam.port 3).held = false ∧ cam.mgr.startQueue = [] ∧ cam.engine.queue = [] ∧
    ((on3 (fun r => { r with profile := { r.profile with autoSweep := false } })).port 3).profile.autoSweep = false := by
  decide

theorem witness_ErrorWindowsAreJudgedAtTheirEnd :
    let s := fun n r => on3 (fun x => { x with link := { x.link with window := some ⟨0, n⟩, current := some r } })
    ((s 32 .r5000).port 3).link.window = some ⟨0, 32⟩ ∧ 0 + 1000000 ≤ (s 32 .r5000).now ∧
    32 ≤ ((s 32 .r5000).port 3).profile.degradeThreshold ∧ ((s 33 .r1250).port 3).profile.degradeThreshold < 33 ∧
    ((s 33 .r1250).port 3).link.current = some .r1250 ∧ ((s 33 .r5000).port 3).link.current.bind Rate.lower = some .r2500 := by
  decide

theorem witness_CurrentSamplesAreJudged :
    (cam.port 0).power.state = .off ∧ (cam.port 3).power.state = .on ∧ (cam.port 3).power.allotment = some 500 ∧
    min 625 5000 ≤ 2500 ∧ ((on3 (powered .inrush)).port 3).power.state = .inrush ∧ min 1500 5000 ≤ 3 * 500 ∧
    499 ≤ ((on3 (fun r => { r with power := { r.power with underRun := 499 } })).port 3).power.underRun ∧
    (cam.port 3).power.openSuspect = false ∧ (cam.port 3).profile.autoSweep = true ∧ (cam.port 3).marks.testing = false := by
  decide

theorem witness_PortsTripOnTheirLimits :
    (cam.port 3).power.allotment = some 500 ∧ (cam.port 3).link.state ≠ .testing ∧ (3 : Port) ∉ cam.mgr.startQueue ∧
    (cam.port 3).power.state = .on ∧ 2500 < min 2501 5000 ∧
    ((on3 (powered .inrush)).port 3).power.state = .inrush ∧ 3 * 500 < min 1501 5000 ∧ 500 * 5 / 4 < min 626 5000 ∧
    19 ≤ ((on3 (fun r => { r with power := { r.power with overloadRun := 19 } })).port 3).power.overloadRun := by decide

/-- Port 3 in INRUSH to 1 s. -/
def inrush3 : State := on3 (fun r => { powered .inrush r with
  power := { (powered .inrush r).power with inrush := some (950000, 1000000) }, link := LinkRec.reset })

/-- Ports 1 and 2 QUEUED, no port in INRUSH, the last inrush end 10 ms ago. -/
def queued12 : State :=
  ((at1.updPort 1 (powered .queued)).updPort 2 (powered .queued)).updMgr
    (fun g => { g with startQueue := [1, 2], lastInrushEnd := some 990000, committed := 1000, supply := .normal })

theorem witness_StartQueueStartsPortByPort :
    (inrush3.port 3).power.state = .inrush ∧ (inrush3.port 3).power.inrush = some (950000, 1000000) ∧
    (3 : Port) ∉ inrush3.mgr.startQueue ∧ inrush3.now = 1000000 ∧ inrush3.mgr.stagger ≠ 0 ∧
    queued12.mgr.startQueue = [1, 2] ∧ (∀ q : Port, (queued12.port q).power.state ≠ .inrush) ∧
    queued12.mgr.lastInrushEnd = some 990000 ∧ 990000 + queued12.mgr.stagger * 1000 ≤ queued12.now := by decide

/-- The hub LOW, port 3 to be restored, port 5 powered at start. -/
def lowHub : State :=
  (at1.updPort 5 (fun r => { r with profile := { r.profile with powerAtStart := true } })).updMgr
    (fun g => { g with restoreSet := [3] })

theorem witness_SupplyStatesSwitchPorts :
    cam.mgr.supply = .normal ∧ (∀ p : Port, (cam.port p).link.state ≠ .testing) ∧ 19999 < 20000 ∧
    lowHub.mgr.supply = .low ∧ 100000 ≤ lowHub.now ∧
    (∀ p : Port, (lowHub.port p).power.state = .off ∧ (lowHub.port p).held = false ∧ (lowHub.port p).marks.lockout = false) ∧
    lowHub.mgr.committed + (allPorts.map (fun p => (lowHub.port p).profile.allotment)).sum ≤ lowHub.effectiveBudget ∧
    (lowHub.port 3).profile.autoRestore = true ∧ (lowHub.port 5).profile.powerAtStart = true := by decide

theorem witness_PortPowerOnAdmitsPorts :
    (∀ s : State, Reaches (asked s .A .portPower) .A .portPower (entryOf .portPower)) ∧
    (∃ n ∈ [0, 1, 2, 3, 4, 5, 6, 8], 7 < n) ∧ portOf 7 = some 7 ∧ (cam.port 7).marks.lockout = false ∧
    (cam.port 7).held = false ∧ cam.mgr.supply = .normal ∧ (cam.port 7).power.state = .off ∧
    cam.mgr.committed + (cam.port 7).profile.allotment ≤ cam.effectiveBudget ∧ cam.mgr.startQueue = [] ∧
    (∀ q : Port, (cam.port q).power.state ≠ .inrush) ∧ queued12.mgr.startQueue ≠ [] ∧
    (cam.updMgr (fun g => { g with committed := 3501 })).effectiveBudget < 3501 + (cam.port 7).profile.allotment ∧
    (cam.port 3).power.state.committed = true :=
  ⟨fun s => asked_reaches s _ _ rfl, by decide, rfl, by decide, by decide, rfl, by decide, by decide, rfl, by decide,
    by decide, by decide, by decide⟩

theorem witness_PortPowerOffAndFaultsClear :
    Reaches (asked cam .C .portPower) .C .portPower (entryOf .portPower) ∧
    Reaches (asked cam .C .clearPortFault) .C .clearPortFault (entryOf .clearPortFault) ∧ cam.mgr.supply = .normal ∧
    (cam.port 0).power.state.committed = false ∧ (queued12.port 2).power.state = .queued ∧
    queued12.mgr.supply = .normal ∧ (cam.port 3).power.state = .on ∧ (cam.port 3).link.state ≠ .testing ∧
    ((on3 (powered .tripped)).port 3).power.state = .tripped :=
  ⟨asked_reaches _ _ _ rfl, asked_reaches _ _ _ rfl, rfl, by decide, by decide, rfl, by decide, by decide, by decide⟩

/-- An entry of the sweep queue for port 3. -/
def entry3 : SweepEntry := ⟨3, .linkLost, none, none⟩

/-- The engine waiting for port 3 to discharge until 1 s. -/
def waiting3 : State :=
  ((on3 (fun r => { powered .off (linked .down r) with marks := ⟨true, false, false⟩ })).updEngine (fun g => { g with
    state := .dischargeWait, current := some entry3, dischargeEnd := some 1000000 }))

/-- The engine acquiring from port 3, one repetition of N = 1, or all done, at 1 s. -/
def acquiring3 (reps : Nat) : State :=
  (on3 (fun r => { powered .off (linked .testing r) with marks := ⟨false, true, false⟩ })).updEngine (fun g => { g with
    state := .acquiring, current := some entry3, params := some { caseParams with averaging := 1 }, repetitions := reps
    acquisitionEnd := some 1000000 })

theorem acquiring3_buffer : (acquiring3 0).engine.buffer.length = 1024 := by
  show (List.replicate Config.traceSamples (0 : Int)).length = 1024
  rw [List.length_replicate]
  rfl

theorem witness_SweepsAreQueuedAndAcquired :
    Reaches (asked cam .B .sweep) .B .sweep (entryOf .sweep) ∧ (cam.port 3).power.state.committed = true ∧
    (cam.port 0).power.state.committed = false ∧ (cam.port 0).held = false ∧ cam.engine.state = .idle ∧
    cam.engine.queue = [] ∧ (cam.port 0).power.deenergized + 100000 ≤ cam.now ∧ waiting3.engine.state ≠ .idle ∧
    (waiting3.port 3).held = true ∧ waiting3.engine.current = some entry3 ∧ waiting3.engine.dischargeEnd = some 1000000 ∧
    waiting3.now = 1000000 ∧ (acquiring3 0).engine.state = .acquiring ∧ (acquiring3 0).engine.repetitions < 1 ∧
    (acquiring3 0).engine.acquisitionEnd = some 1000000 ∧ (acquiring3 0).engine.buffer.length = 1024 ∧
    (List.replicate 1024 (0 : BitVec 12)).length = 1024 :=
  ⟨asked_reaches _ _ _ rfl, by decide, by decide, by decide, rfl, rfl, by decide, by decide, by decide, rfl, rfl, rfl, rfl,
    by decide, rfl, acquiring3_buffer,
    List.length_replicate⟩

theorem witness_SweepEndsAreRecorded :
    (acquiring3 1).engine.state = .acquiring ∧ (acquiring3 1).engine.current = some entry3 ∧
    (acquiring3 1).engine.repetitions = 1 ∧ (acquiring3 1).engine.acquisitionEnd = some 1000000 ∧
    (acquiring3 1).now = 1000000 ∧ (acquiring3 1).engine.queue = [] ∧ entry3.cause ≠ .request ∧
    ((acquiring3 1).port 3).profile.autoRestore = true ∧ (acquiring3 1).mgr.supply = .normal ∧
    ((acquiring3 1).port 3).marks.lockout = false ∧ ((acquiring3 1).port 3).power.state = .off ∧
    (acquiring3 1).mgr.committed + ((acquiring3 1).port 3).profile.allotment ≤ (acquiring3 1).effectiveBudget := by decide

theorem witness_SweepEndsAreRecorded_kind :
    (breakRecord 1000000 .linkLost { caseParams with averaging := 1 }
      (averagedTrace 1 (traceOf 1200 300 180 420))).kind = .cameraEnd := by decide +kernel

theorem witness_AveragingIsReducedToAPowerOfTwo :
    64 < 65 ∧ (parseProfile ⟨some 0, some 0, some 0, some 0, some 0, some 0, some 0, some 0, some 0, some 0, some 0,
      some true, some true, some true⟩).isSome = true ∧
    Reaches (asked cam .A .sweep) .A .sweep (entryOf .sweep) ∧ (cam.port 7).power.state.committed = false ∧
    (cam.port 7).held = false := ⟨by decide, by decide, asked_reaches _ _ _ rfl, by decide, by decide⟩

theorem witness_CrossingIsTheFirstIndexAtTheThreshold :
    (traceOf 64 300 0 8).length = 1024 ∧ 12 ≤ caseParams.blind ∧ 50 ≤ caseParams.threshold ∧
    (∀ x ∈ traceOf 64 300 0 8, -2048 ≤ x ∧ x ≤ 2047) ∧ launchLevel (traceOf 64 300 0 8) = 64 := by decide +kernel

theorem witness_BreakDistancesAreBounded :
    (traceOf 63 300 0 8).length = 1024 ∧ { caseParams with velocity := 990, blind := 12 }.velocity ≤ 990 ∧
    (launchLevel (traceOf 63 300 0 8)).natAbs < 64 := by decide +kernel

theorem witness_KindsFollowTheInstalledLength :
    0 < 14000 ∧ 700 = max 500 (14000 / 20) ∧ 13299 + 700 < 14000 ∧ 14000 ≤ 13300 + 700 ∧ 14700 ≤ 14000 + 700 ∧
    14000 + 700 < 14701 ∧ (caseRecord caseParams (traceOf 1200 300 180 420)).crossing = some 300 := by decide +kernel

theorem witness_LensAxesSettleAndStall :
    ((camLens none).port 3).link.state = .up ∧ ((camLens none).port 3).link.attempt = none ∧
    ((camLens none).port 3).seq.inPhase .settling = false ∧
    ((camLens none).port 3).lens.axes.get .focus = some (axisOf .moving (some 3000) (some 1000000)) ∧ 3008 ≤ 3000 + 8 ∧
    2992 + 8 ≥ 3000 ∧ (camLens none).now = 1000000 ∧
    (((camLens none).updSeq 3 (fun _ => runCtx [stepOf (.settle 10) false] .settling none)).port 3).seq.inPhase .settling =
      true := by decide

theorem witness_LensHoldsAreTakenGivenAndBroken :
    (∀ s k, (k = .takeLens ∨ k = .giveLens ∨ k = .breakHold) → Reaches (asked s .C k) .C k (entryOf k)) ∧
    ((camLens none).port 3).lens.holder = none ∧ ((camLens (some .A)).port 3).lens.holder = some .A ∧ Master.A ≠ .C ∧
    ((camLens (some .C)).port 3).lens.holder = some .C ∧ ((camLens (some .C)).port 3).seq.active = false ∧
    (((camLens (some .C)).updSeq 3 (fun _ => { runCtx [] .dwelling none with starter := some .C })).port 3).seq.active =
      true :=
  ⟨fun s k h => asked_reaches s .C k (by rcases h with h | h | h <;> subst h <;> rfl), rfl, rfl, by decide, rfl, by decide,
    by decide⟩

theorem witness_LensesMoveAndStop :
    (∀ s k, (k = .moveLens ∨ k = .recallPreset ∨ k = .stopLens) → Reaches (asked s .B k) .B k (entryOf k)) ∧
    ((camLens none).port 3).lens.holder = none ∧ ((camLens none).port 3).link.state = .up ∧
    ((camLens none).port 3).waiting.length < 16 ∧ ((camLens (some .A)).port 3).lens.holder = some .A ∧
    clampTargets ⟨some (-1), some 4096, none⟩ = ⟨some 0, some 4095, none⟩ ∧ Option.getD (some 2000) 20 ≤ 2000 ∧
    2000 < Option.getD (some 2001) 20 ∧ (cam.port 0).link.state ≠ .up ∧ 0 < (axisOf .moving none none).speed ∧
    cam.presets.preset 63 = none ∧ cam.presets.writing (.preset 63) = false ∧
    (({ cam.presets with presets := cam.presets.presets.set (0 : Fin 64) ⟨true, some ⟨some 3, [], ⟨some 5, none, none⟩, 20, false⟩⟩ } :
      PresetStore).preset 0).isSome = true :=
  ⟨fun s k h => asked_reaches s .B k (by rcases h with h | h | h <;> subst h <;> rfl), rfl, rfl, by decide, rfl, by decide,
    by decide, by decide, by decide, by decide, rfl, rfl, by decide⟩

theorem witness_LinesAreStoredOrStray :
    ((on3 (linked .lost)).port 3).link.state = .lost ∧ (cam.port 3).intake.state = .idle ∧
    ((camFilling (some 3) [] 4).port 3).intake.state = .filling ∧
    ((camFilling (some 3) [] 4).port 3).intake.openFrame = some 9 ∧
    (camFilling (some 3) [] 4).frame? 9 = some (frame9 .filling 4 ⟨true, false⟩) ∧
    ((camFilling (some 3) [] 4).port 3).intake.capacity = some 16 ∧ (15 + 1) * 16 ≤ [5].length * 65536 ∧
    (camFilling (some 3) [] 4).store.dram.wf = true ∧
    2 ≤ ((camFilling (some 3) [⟨9, 2, []⟩, ⟨9, 3, []⟩] 4).port 3).intake.buffers.length := by decide

theorem witness_FramesOpen :
    (cam.port 3).link.state = .up ∧ (cam.port 3).link.attempt = none ∧ (cam.port 3).intake.state = .idle ∧
    (cam.port 3).seq.inPhase .openWait = false ∧ (cam.port 3).subscribers = ⟨false, false⟩ ∧
    ((on3 (fun r => { r with subscribers := ⟨false, true⟩ })).port 3).subscribers ≠ ⟨false, false⟩ ∧
    cam.store.reservedRecords + cam.store.frames.length < 512 ∧
    ((camSeq (runCtx [stepOf (.trigger none 16 16 none) false] .openWait none)).port 3).seq.inPhase .openWait = true ∧
    ((camSeq (runCtx [stepOf (.trigger none 16 16 none) false] .openWait none)).port 3).seq.currentStep =
      some (stepOf (.trigger none 16 16 none) false) ∧
    (⟨(cam.port 3).subscribers.a || decide (Master.A = .A), (cam.port 3).subscribers.b || decide (Master.A = .B)⟩ :
      PerAnalysis Bool) ≠ ⟨false, false⟩ := by decide

theorem witness_FramesReachTheirReaders :
    ((camFilling (some 3) [] 4).port 3).intake.lastActivity = some 750000 ∧
    750000 + 250000 ≤ (camFilling (some 3) [] 4).now ∧ ((camFilling (some 3) [] 4).port 3).intake.bound = none ∧
    ((camFilling (some 3) [] 4).port 3).intake.buffers = [] ∧
    (camFilling (some 3) [] 4).frame? 9 = some (frame9 .filling 4 ⟨true, false⟩) ∧
    (frame9 .filling 4 ⟨true, false⟩).readers = (⟨false, false⟩ : PerAnalysis Bool).set .A true ∧
    ((camFilling (some 3) [] 4).store.readers.get .A).ready.length <
      ((camFilling (some 3) [] 4).store.readers.get .A).holdLimit ∧
    (frame9 .filling 0 ⟨true, false⟩).stored = 0 ∧
    ((on3 (fun r => { r with intake := { r.intake with state := .discarding } })).port 3).intake.bound = none := by decide

theorem witness_ArbiterMovesLines :
    (∀ p : Port, (cam.port p).intake.buffers = []) ∧
    ((camFilling (some 3) [⟨9, 3, List.replicate 16 7⟩] 4).port 3).intake.buffers = [⟨9, 3, List.replicate 16 7⟩] ∧
    (∀ q : Port, (q.val + 7 - 7) % 8 < 3 → ((camFilling (some 3) [⟨9, 3, []⟩] 4).port q).intake.buffers = []) ∧
    (frame9 .filling 4 ⟨true, false⟩).pages.Nodup ∧ cam.store.lastPort = 7 := by decide

/-- Frame 9 READY on A's list, with a fetch of two of its four lines. -/
def fetching (sent : Nat) : State :=
  { cam with store := { cam.store with
    frames := [frame9 .ready 4 ⟨true, false⟩], readers := ⟨{ ReaderRec.reset with
      ready := [9], fetches := [⟨7, 9, 0, 2, sent, sent⟩] }, ReaderRec.reset⟩ } }.updMaster .A
    (fun r => { r with attached := true })

theorem witness_ArbiterMovesLines_fetch :
    ((fetching 1).master .A).attached = true ∧ ((fetching 1).master .A).sending = none ∧
    ((fetching 1).master .A).fetchOut = [] ∧ ((fetching 1).store.readers.get .A).fetches = [⟨7, 9, 0, 2, 1, 1⟩] ∧
    ((fetching 1).store.readers.get .B).fetches = [] ∧ (fetching 1).frame? 9 = some (frame9 .ready 4 ⟨true, false⟩) ∧
    (∀ p : Port, ((fetching 1).port p).intake.buffers = []) := by decide

theorem witness_SubscriptionsAndPoliciesAreSet :
    Reaches (asked cam .A .subscribe) Analysis.A.master .subscribe (entryOf .subscribe) ∧
    Reaches (asked cam .A .unsubscribe) Analysis.A.master .unsubscribe (entryOf .unsubscribe) ∧
    Reaches (asked cam .B .setFramePolicy) Analysis.B.master .setFramePolicy (entryOf .setFramePolicy) ∧ 512 < 513 :=
  ⟨asked_reaches _ _ _ rfl, asked_reaches _ _ _ rfl, asked_reaches _ _ _ rfl, by decide⟩

theorem witness_FetchesAreQueuedAndFramesReleased :
    Reaches (asked (fetching 1) .A .fetch) Analysis.A.master .fetch (entryOf .fetch) ∧
    Reaches (asked (fetching 1) .A .release) Analysis.A.master .release (entryOf .release) ∧
    (fetching 1).frame? 8 = none ∧ (fetching 1).frame? 9 = some (frame9 .ready 4 ⟨true, false⟩) ∧
    9 ∈ ((fetching 1).store.readers.get .A).ready ∧ 3 < (frame9 .ready 4 ⟨true, false⟩).stored ∧
    (frame9 .ready 4 ⟨true, false⟩).stored ≤ 4 ∧ ((fetching 1).store.readers.get .A).fetches.length < 4 ∧
    (frame9 .ready 4 ⟨true, false⟩).readers.get .B = false :=
  ⟨asked_reaches _ _ _ rfl, asked_reaches _ _ _ rfl, by decide, by decide, by decide, by decide, by decide, by decide, rfl⟩

/-- The preset record of preset 63 for port 3: focus 4096, which is clamped, no other target, allowance 2000, no name. -/
def record63 : List Byte :=
  [63, 1, 3, 2, 0x00, 0x10, 0xFF, 0xFF, 0xFF, 0xFF, 0xD0, 0x07, 0, 0, 0, 0] ++ List.replicate 16 0

/-- A whole line of a cell record. -/
def rawLine : RawLine := ⟨some true, some 1, some 5, some 0, some 255⟩

theorem witness_StoreWritesStart :
    Reaches (asked cam .A .writePreset) .A .writePreset (entryOf .writePreset) ∧
    parsePreset record63 = some ⟨63, 3, [], ⟨some 4096, none, none⟩, 2000⟩ ∧ presetNo 63 = some 63 ∧
    Reaches (asked cam .C .writeCell) .C .writeCell (entryOf .writeCell) ∧
    (∀ b, (parseCell ⟨some b, some 10, rawLine, rawLine, rawLine, rawLine⟩).isSome = true) ∧ cam.mgr.committed ≤ 500 ∧
    cam.presets.write = none ∧ cam.presets.fault = false ∧ cam.presets.lockDown = false :=
  ⟨asked_reaches _ _ _ rfl, by decide, by decide, asked_reaches _ _ _ rfl, fun _ => rfl, by decide, rfl, rfl, rfl⟩

/-- A write in progress. -/
def writing (r : RecordName) (k : WriteKind) (c : NewContent) : State :=
  cam.updPresets (fun st => { st with write := some ⟨r, k, .C, c, 995000⟩ })

theorem witness_StoreWritesCompleteAndLocksHold :
    (writing .cell .writeCell (.cell Cell.default)).presets.write =
      some ⟨.cell, .writeCell, .C, .cell Cell.default, 995000⟩ ∧
    (writing .cell .writeCell (.cell Cell.default)).mgr.startQueue = [] ∧
    (∀ p : Port, ((writing .cell .writeCell (.cell Cell.default)).port p).seq.inPhase .storeWait = false) ∧
    (writing (.preset 0) .erasePreset (.preset none)).presets.write =
      some ⟨.preset 0, .erasePreset, .C, .preset none, 995000⟩ ∧
    (writing (.profile 3) .writeProfile (.profile Profile.default)).presets.write =
      some ⟨.profile 3, .writeProfile, .C, .profile Profile.default, 995000⟩ ∧
    Reaches (asked cam .C .erasePreset) .C .erasePreset (entryOf .erasePreset) ∧ 63 < 64 ∧
    Reaches (asked cam .C .lockPreset) .C .lockPreset (entryOf .lockPreset) ∧ cam.presets.preset 0 = none ∧
    Reaches (asked cam .C .writeCell) .C .writeCell (entryOf .writeCell) ∧
    (parseCell ⟨some 499, some 10, rawLine, rawLine, rawLine, rawLine⟩).isSome = true ∧ 499 < cam.mgr.committed ∧
    Reaches (asked cam .C .lockDown) .C .lockDown (entryOf .lockDown) ∧ cam.presets.lockDown = false ∧
    Reaches (asked cam .C .clearStoreError) .C .clearStoreError (entryOf .clearStoreError) :=
  ⟨rfl, rfl, by decide, rfl, rfl, asked_reaches _ _ _ rfl, by decide, asked_reaches _ _ _ rfl, rfl, asked_reaches _ _ _ rfl,
    by decide, by decide, asked_reaches _ _ _ rfl, rfl, asked_reaches _ _ _ rfl⟩

/-- The body of a LOAD_SEQUENCE for port 3: one DWELL step of 1 ms. -/
def loadBody : List Byte := [3, 1, 0, 0, 4, 0, 1, 0, 0, 0, 0, 0, 0, 0, 0, 0, 0, 0]

theorem witness_SequencesLoad :
    Reaches (asked cam .B .loadSequence) .B .loadSequence (entryOf .loadSequence) ∧
    parseLoad loadBody = some (3, [stepOf (.dwell 1) false]) ∧ (cam.port 3).seq.active = false ∧
    loadFailure [stepOf (.dwell 1) false] = none ∧ loadFailure [stepOf (.dwell 0) false] = some (0, .range) ∧
    loadFailure [] = some (0, .count) ∧ loadFailure [stepOf (.dwell 1) true] = some (0, .chain) ∧
    ((camSeq (runCtx [] .dwelling none)).port 3).seq.active = true :=
  ⟨asked_reaches _ _ _ rfl, by decide, by decide, by decide, by decide, by decide, by decide, by decide⟩

theorem witness_SequencesStart :
    Reaches (asked (camSeq (readyCtx [stepOf (.dwell 1) false])) .A .startSequence) .A .startSequence
      (entryOf .startSequence) ∧
    ((camSeq (readyCtx [stepOf (.dwell 1) false])).port 3).seq = readyCtx [stepOf (.dwell 1) false] ∧
    (readyCtx [stepOf (.dwell 1) false]).state = .ready ∧ (cam.port 3).link.state = .up ∧ (cam.port 3).held = false ∧
    (cam.port 3).lens.holder = none ∧ (readyCtx []).pageCount ≤ cam.store.freeList.length - cam.store.reservedPages ∧
    (readyCtx []).recordCount ≤ 512 - cam.store.frames.length - cam.store.reservedRecords ∧ 10 ≤ 10 ∧ 600000 ≤ 600000 ∧
    9 < 10 ∧ 600000 < 600001 :=
  ⟨asked_reaches _ _ _ rfl, rfl, rfl, rfl, by decide, rfl, Nat.zero_le _, Nat.zero_le _, by decide, by decide, by decide,
    by decide⟩

/-- A START_SEQUENCE by A of a list of one step, with a packet waiting on the down-channel and
no page free. -/
def starting (st : Step) : State :=
  asked (((camSeq (readyCtx [st])).updPort 3 (fun r => { r with waiting := [.lensStop] })).updStore
    (fun f => { f with freeList := [] })) .A .startSequence

/-- R159, R160: what each kind of first step leaves of the port: its phase, its deadline and the packets that wait. -/
theorem test_sequence_starts :
    [{ stepOf (.dwell 5) false with hold := true }, stepOf (.dwell 5) false, stepOf (.await 1 0) false,
        stepOf (.trigger none 16 16 none) false].map (fun st =>
      match exec (.startSequence .A 3 10) (starting st) with
      | .next t => ((t.port 3).seq.phase, (t.port 3).seq.deadline, (t.port 3).waiting)
      | .fault _ | .refused _ => (none, none, [])) =
    [(some .before, none, [.lensStop]), (some .dwelling, some 1005000, [.lensStop]), (some .awaiting, none, [.lensStop]),
      (some .openWait, some 2000000, [.lensStop, .trigger none])] := by decide

theorem witness_SequencesResumeAndHalt :
    Reaches (asked cam .A .resumeSequence) .A .resumeSequence (entryOf .resumeSequence) ∧
    Reaches (asked cam .A .haltSequence) .A .haltSequence (entryOf .haltSequence) ∧
    ((camSeq { runCtx [stepOf (.dwell 1) false] .before none with state := .held }).port 3).seq.state = .held ∧
    ((camSeq { runCtx [stepOf (.dwell 1) false] .before none with state := .held }).port 3).seq.currentStep =
      some (stepOf (.dwell 1) false) ∧
    ((camSeq (runCtx [] .dwelling none)).port 3).seq.active = true ∧
    ((camSeq (runCtx [] .dwelling none)).port 3).seq.starter = some .A :=
  ⟨asked_reaches _ _ _ rfl, asked_reaches _ _ _ rfl, by decide, by decide, by decide, by decide⟩

/-- Camera 3 with frame 9 bound to a TRIGGER step whose close deadline is 1 s. -/
def frameWaiting : State :=
  (camFilling (some 3) [] 4).updPort 3 (fun r => { r with
    seq := { runCtx [stepOf (.trigger none 16 16 none) false] .frameWait (some 1000000) with bound := some (.frame 9) }
    intake := { r.intake with bound := some ⟨0, false⟩ } })

theorem witness_StepDeadlinesEndRuns :
    ((camSeq (runCtx [stepOf (.settle 10) false] .settling (some 1000000))).port 3).seq.inPhase .settling = true ∧
    ((camSeq (runCtx [stepOf (.await 0 1) false] .awaiting (some 1000000))).port 3).seq.inPhase .awaiting = true ∧
    ((camSeq (runCtx [stepOf (.trigger none 16 16 none) false] .openWait (some 1000000))).port 3).seq.inPhase .openWait =
      true ∧
    cam.now = 1000000 ∧
    (let s := frameWaiting;
      (s.port 3).seq.inPhase .frameWait = true ∧ (s.port 3).seq.bound = some (.frame 9) ∧
      (s.port 3).intake.openFrame = some 9 ∧ s.frame? 9 = some (frame9 .filling 4 ⟨true, false⟩) ∧
      s.store.readers.a.ready.length < s.store.readers.a.holdLimit) := by decide

theorem witness_StepsCompleteAndFollow :
    (let s := camSeq (runCtx [stepOf (.dwell 1) true, stepOf (.dwell 60000) false] .dwelling (some 1000000));
      (s.port 3).seq.currentStep = some (stepOf (.dwell 1) true) ∧ (s.port 3).seq.deadline = some 1000000 ∧
      s.now = 1000000 ∧ (s.port 3).seq.inPhase .dwelling = true ∧ (s.port 3).seq.index = some 0) ∧
    (let s := camSeq (runCtx [stepOf (.trigger none 16 16 none) false] .intakeWait none);
      (s.port 3).seq.currentStep = some (stepOf (.trigger none 16 16 none) false) ∧
      (s.port 3).seq.inPhase .intakeWait = true ∧ (s.port 3).intake.state ≠ .filling ∧ (s.port 3).link.state = .up ∧
      (s.port 3).waiting.length < 16) := by decide

theorem witness_CadenceRestartsRuns :
    (let s := camSeq { readyCtx [stepOf (.dwell 1) false] with period := 10, cadence := some 1000000 };
      (s.port 3).seq.cadence = some 1000000 ∧ (s.port 3).seq.starter = some .A ∧ s.now = 1000000 ∧
      (s.port 3).seq.state = .ready ∧ (s.port 3).seq.ended = some (.normal, 0) ∧ (s.port 3).link.state = .up ∧
      (s.port 3).held = false ∧ (s.port 3).lens.holder = none ∧
      (s.port 3).seq.steps = some [stepOf (.dwell 1) false]) ∧
    ((camSeq (runCtx [] .dwelling none)).port 3).seq.state = .running := by decide

/-- Line 2 with a rising polarity, debounce 5, hold-off 1 ms, all ports routed, low accepted and a run of 4 high samples. -/
def line2 (last : Option Time) : LineRec :=
  ⟨⟨true, .rising, 5, 1, 255⟩, .high, some .low, some .high, 4, last, 0, 0⟩

theorem witness_SamplesAreDebounced :
    (let s := cam.updLine 2 (fun _ => line2 (some 998960));
      (s.lines.get 2).accepted ≠ some .high ∧ (s.lines.get 2).settings.debounce ≤ 5 ∧
      s.now - (5 - 1) * 10 = 999960 ∧ 998960 + 1 * 1000 ≤ 999960 ∧ 999960 < 998961 + 1 * 1000 ∧
      (s.lines.get 2).settings.route.getLsbD 3 = true ∧ (s.port 3).seq.active = false ∧ (s.port 3).link.state = .up ∧
      (s.port 3).intake.state ≠ .filling ∧ (s.port 0).link.state ≠ .up) ∧
    (let s := (camSeq (runCtx [stepOf (.await 2 0) false] .awaiting none)).updLine 2 (fun _ => line2 none);
      (s.port 3).seq.inPhase .awaiting = true ∧
      (s.port 3).seq.currentStep = some (stepOf (.await 2 0) false)) ∧
    (line2 none).accepted ≠ some .high ∧ ({ line2 none with runCount := 3 }).runCount + 1 < 5 := by decide

theorem witness_TriggersFireAndLinesAreSet :
    Reaches (asked cam .A .fire) .A .fire (entryOf .fire) ∧
    Reaches (asked cam .C .setTriggerLine) .C .setTriggerLine (entryOf .setTriggerLine) ∧ portOf 3 = some 3 ∧
    (cam.port 3).seq.active = false ∧ (cam.port 3).link.state = .up ∧ (cam.port 3).intake.state ≠ .filling ∧
    polarityFits (some 1) = true ∧ lineOf 3 = some 3 ∧ 3 < 4 ∧ 255 < 256 ∧ 9 < 10 ∧ 1000000 < 1000001 :=
  ⟨asked_reaches _ _ _ rfl, asked_reaches _ _ _ rfl, rfl, by decide, rfl, by decide, rfl, by decide, by decide, by decide,
    by decide, by decide⟩

theorem witness_FabricLinksCarryRecords :
    ((asked cam .A .readPart).master .A).attached = true ∧ (cam.master .A).attached = false ∧
    8 ≤ [(1 : Byte), 44, 7, 0, 8, 0, 0, 0].length ∧ byteAt [(1 : Byte), 44, 7, 0, 8, 0, 0, 0] 0 = 1 ∧
    wordAt [(1 : Byte), 44, 7, 0, 8, 0, 0, 0] 4 = 8 ∧ ((asked cam .A .readPart).master .A).requests.length < 8 ∧
    ((asked cam .A .readPart).master .A).sending = none ∧
    ((cam.updMaster .A (fun r => { r with attached := true, sending := some ⟨.credit, 8⟩ })).master .A).sending =
      some ⟨.credit, 8⟩ := by decide

theorem witness_TeardownsEmptyTheirMaster :
    Reaches (asked cam .A .detach) .A .detach (entryOf .detach) ∧
    ((asked cam .A .detach).master .A).requests = [] ++ entryOf .detach :: [] ∧
    ((asked cam .A .detach).master .A).attached = true ∧ 1000 < 1001 ∧ (cam.master .A).attached = false ∧
    (∃ t, exec (.fabricLockLost .A 1001) (asked cam .A .detach) = .next t) :=
  ⟨asked_reaches _ _ _ rfl, rfl, rfl, by decide, rfl, _, rfl⟩

theorem witness_SpiTransactionsAndMasks :
    (cam.master .C).spi = none ∧
    ((cam.updMaster .C MasterRec.openTxn).master .C).spi = some ⟨false, 0, .empty, false, false⟩ ∧
    wordAt [(1 : Byte), 44, 7, 0, 8, 0, 0, 0] 4 ≤ 256 ∧
    Reaches (asked cam .C .setNoticeMask) .C .setNoticeMask (entryOf .setNoticeMask) ∧ (∀ i ∈ [1, 10], 1 ≤ i ∧ i ≤ 10) :=
  ⟨rfl, by decide, by decide, asked_reaches _ _ _ rfl, by decide⟩

/-! ### Witnesses of the further clauses -/

/-- A hub whose cell record and profile 7 are valid, profile 0 not. -/
def stored : State := at1.updPresets (fun st => { st with
  cell := ⟨true, Cell.default⟩, profiles := st.profiles.set (7 : Port) ⟨true, Profile.default⟩ })

theorem witness_ResetsReturnEveryBlock :
    stored.presets.cell.valid = true ∧ (stored.presets.profiles.get 7).valid = true ∧
    (stored.updPresets (fun st => { st with cell := ⟨false, Cell.default⟩ })).presets.cell.valid = false := by decide

theorem witness_MalformedRequestsAreRefused_fields :
    requestOf (.writePreset .A []) = some (.A, .writePreset) ∧ recordOf (.writePreset .A []) = some (entryOf .writePreset).fields ∧
    fieldsFit (.writePreset .A []) = false ∧ recordOf (.writePreset .A [1]) = some [1] ∧ (entryOf .writePreset).fields ≠ [1] ∧
    recordOf (.lockDown .C) = none ∧
    (let h := fun k => (⟨1, k, 7, 8, 0, 0⟩ : Header);
      ((h 15).entry [0] true).malformed = true ∧ ((h 15).entry [] true).malformed = false ∧
      ((h 23).entry [0] true).malformed = true ∧ ((h 34).entry [] true).malformed = true ∧
      ((h 16).entry [0] false).malformed = true ∧ ((h 16).entry [] true).malformed = true ∧
      ((h 16).entry [0] true).malformed = false) := by decide

theorem witness_ReadRequestsAnswerFromTheState_refusals :
    Reaches (asked at1 .A .listFrames) .A .listFrames (entryOf .listFrames) ∧ Master.B ≠ .A ∧
    Reaches (asked at1 .C .listFrames) .C .listFrames (entryOf .listFrames) ∧ 511 < Option.getD (some 512) 0 ∧
    ((asked at1 .C .readSequence).port 7).seq.state = .empty ∧
    ((asked (camSeq (readyCtx [])) .C .readSequence).port 3).seq.state ≠ .empty :=
  ⟨asked_reaches _ _ _ rfl, by decide, asked_reaches _ _ _ rfl, by decide, by decide, by decide⟩

theorem witness_HelloIsRecordedAndStartsTraining_again :
    (let s := training (some 990000) .r5000;
      (s.port 3).link.state = .training ∧ (s.port 3).link.attempt = some ⟨800000, 1000000, some 990000, true⟩ ∧
      990000 + 10000 ≤ s.now ∧ s.now < 990001 + 10000 ∧ (s.port 3).waiting.length < 16 ∧
      (HelloBody.identity goodHello).powerClass ≤ (s.port 3).power.allotment.getD 0) := by decide

theorem witness_PortPowerOnAdmitsPorts_lists :
    (let s := asked queued12 .A .portPower;
      Reaches s .A .portPower (entryOf .portPower) ∧ s.mgr.supply = .normal ∧ s.mgr.startQueue ≠ [] ∧
      (s.port 3).marks.lockout = false ∧ (s.port 3).held = false ∧ (s.port 3).power.state = .off ∧
      (s.port 4).marks.lockout = false ∧ (s.port 4).held = false ∧ (s.port 4).power.state = .off ∧
      s.mgr.committed + (s.port 3).profile.allotment + (s.port 4).profile.allotment ≤ s.effectiveBudget) ∧
    (let s := asked (queued12.updMgr (fun g => { g with committed := 3001 })) .A .portPower;
      s.mgr.committed + (s.port 3).profile.allotment ≤ s.effectiveBudget ∧
      s.effectiveBudget < s.mgr.committed + (s.port 3).profile.allotment + (s.port 4).profile.allotment) ∧
    (cam.mgr.committed + (cam.port 5).profile.allotment + (cam.port 6).profile.allotment ≤ cam.effectiveBudget ∧
      cam.mgr.startQueue = [] ∧ ∀ q : Port, (cam.port q).power.state ≠ .inrush) :=
  ⟨⟨asked_reaches _ _ _ rfl, by decide⟩, by decide, by decide⟩

theorem witness_PortPowerOffAndFaultsClear_lists :
    Reaches (asked lowHub .A .portPower) .A .portPower (entryOf .portPower) ∧ lowHub.mgr.supply = .low ∧
    3 ∈ lowHub.mgr.restoreSet ∧ (∀ k ∈ [0, 3, 7], ∃ q, portOf k = some q ∧ (lowHub.port q).power.state.committed = false) ∧
    (∀ k ∈ [0, 7], ∃ q, portOf k = some q ∧ (cam.port q).power.state.committed = false) :=
  ⟨asked_reaches _ _ _ rfl, rfl, by decide, by decide, by decide⟩

/-- The engine of `acquiring3` with a sweep of port 5 waiting, which discharges from a time. -/
def sweepsNext (from_ : Time) : State :=
  ((acquiring3 1).updPower 5 (fun w => { w with deenergized := from_ })).updEngine
    (fun g => { g with queue := [⟨5, .request, some .A, some 4⟩] })

theorem witness_SweepEndsAreRecorded_next :
    (sweepsNext 900000).engine.queue = [⟨5, .request, some .A, some 4⟩] ∧ (5 : Port) ≠ entry3.port ∧
    ((sweepsNext 900000).port 5).power.deenergized + 100000 ≤ (sweepsNext 900000).now ∧
    (sweepsNext 900001).now < ((sweepsNext 900001).port 5).power.deenergized + 100000 ∧
    (let s := (acquiring3 1).updMgr (fun g => { g with supply := .low }); s.mgr.supply = .low ∧ s.engine.queue = []) ∧
    (let s := (acquiring3 1).updMgr (fun g => { g with committed := 3501 });
      s.effectiveBudget < s.mgr.committed + (s.port 3).profile.allotment ∧ (s.port 3).marks.sweepPending = false) := by decide

/-- Camera 3 with focus MOVING to 3000 and iris MOVING to 10, its zoom IDLE, under A's implicit hold. -/
def moving2 (seq : SeqCtx) : State :=
  (camSeq seq).updLens 3 (fun _ =>
    ⟨⟨some (axisOf .moving (some 3000) (some 1000000)), some (axisOf .moving (some 10) none),
      some (axisOf .idle none none)⟩, some .A, true, some .B⟩)

/-- A run in SETTLING. -/
def settlingRun : SeqCtx := runCtx [stepOf (.settle 10) false] .settling (some 2000000)

theorem witness_LensAxesSettleAndStall_settling :
    (((moving2 settlingRun).port 3).seq.inPhase .settling = true ∧
      ((moving2 settlingRun).port 3).seq.currentStep = some (stepOf (.settle 10) false) ∧
      ((moving2 settlingRun).port 3).link.state = .up ∧ ((moving2 settlingRun).port 3).link.attempt = none ∧
      ((moving2 settlingRun).port 3).lens.axes.get .iris = some (axisOf .moving (some 10) none) ∧
      2991 + 8 < 3000 ∧ 2992 + 8 ≥ 3000 ∧ 18 ≤ 10 + 8) ∧
    Reaches (asked (moving2 settlingRun) .A .stopLens) .A .stopLens (entryOf .stopLens) ∧
    ((moving2 settlingRun).port 3).lens.holder = some .A ∧ ((moving2 settlingRun).port 3).waiting.length < 16 ∧
    (∃ t, exec (.stopLens .A 3) (asked (moving2 settlingRun) .A .stopLens) = .next t ∧ (t.port 3).seq.state = .ready) :=
  ⟨by decide, asked_reaches _ _ _ rfl, rfl, by decide, _, rfl, by decide⟩

/-- Camera 3 filling frame 9, which is 32 768 bytes wide and has pages 5 and 6, beside other frames, over a free list. -/
def drawing (free : List Nat) (reserved : Nat) (others : List FrameRec) (bound : Option BoundStep) : State :=
  let s := camFilling (some 3) [] 4
  { s.updIntake 3 (fun i => { i with width := some 32768, declaredWidth := some 32768, bound := bound }) with
    store := { s.store with
      frames := { frame9 .filling 4 ⟨true, false⟩ with width := 32768, stepReserved := 2, pages := [5, 6] } :: others
      freeList := free, reservedPages := reserved } }

/-- A READY frame of both readers, by its id and pages. -/
def ready (id : Nat) (pages : List Nat) (pins : PerAnalysis Nat) : FrameRec :=
  { frame9 .ready 1 ⟨true, true⟩ with id := id, pages := pages, pins := pins, readyTime := some 5, handover := some id }

theorem witness_LinesAreStoredOrStray_draws :
    (let s := drawing [1, 2, 3, 4, 7] 2 [] none;
      (s.port 3).intake.bound = none ∧ 3 = ((8 + 1) * 32768 + 65535) / 65536 - [5, 6].length ∧
      3 + s.store.reservedPages ≤ s.store.freeList.length ∧ (s.port 3).intake.buffers.length < 2) ∧
    ((drawing [1, 2, 3] 9 [] (some ⟨0, false⟩)).port 3).intake.bound.isSome = true ∧
    (let s := drawing [1, 2, 3] 1 [ready 8 [11] ⟨0, 1⟩] none;
      s.store.freeList.length < 3 + s.store.reservedPages ∧ NoVictim s.store) ∧
    (let s := drawing [1, 2, 3] 1 [ready 8 [11] ⟨0, 0⟩, ready 7 [13] ⟨1, 0⟩] none;
      OldestUnpinned s.store (ready 8 [11] ⟨0, 0⟩) ∧ 8 ≠ 9 ∧
      3 + s.store.reservedPages ≤ s.store.freeList.length + [11].length) := by
  refine ⟨by decide, by decide, ⟨by decide, ?_⟩, ⟨rfl, rfl, by decide, ?_⟩, by decide, by decide⟩ <;> (try unfold NoVictim) <;> decide

/-- `drawing` with a byte of page 1 and one of page 3 written. -/
def drawingOver (reserved : Nat) (others : List FrameRec) (bound : Option BoundStep) : State :=
  (drawing [1, 2, 3] reserved others bound).updStore (fun st => { st with dram := [(65541, 9), (196608, 9)] })

/-- R82, R86: lines 4 to 7 are skipped before line 8, whose frame draws pages 1 to 3 behind pages 5 and 6; at a width of 32 768 the
skipped lines lie in pages 1 and 2, which are zeroed, and page 3 is not. -/
theorem test_line_zeroes_drawn_pages :
    [drawingOver 0 [] none, drawingOver 9 [] (some ⟨0, false⟩), drawingOver 1 [ready 8 [11] ⟨0, 0⟩] none].map (fun s =>
      match exec (.line 3 .r5000 8 [1]) s with
      | .next t => t.store.dram.map Prod.fst :: (t.store.frames.filter (fun g => g.tags.gaps && g.tags.damaged)).flatMap
          (fun g => [g.pages, [g.stored, g.missing, g.damaged, g.firstDamaged.getD 0]])
      | .fault _ | .refused _ => []) =
    List.replicate 3 [[196608], [5, 6, 1, 2, 3], [9, 4, 1, 8]] ∧ (drawingOver 0 [] none).store.dram.wf = true := by decide

/-- Every frame record taken or reserved, beside some frames. -/
def noRecords (l : List FrameRec) : State :=
  let s := on3 (fun r => { r with subscribers := ⟨true, false⟩ })
  { s with store := { s.store with reservedRecords := 512 - l.length, frames := l } }

theorem witness_FramesOpen_records :
    512 ≤ (noRecords [ready 7 [13] ⟨1, 0⟩]).store.reservedRecords + (noRecords [ready 7 [13] ⟨1, 0⟩]).store.frames.length ∧
    NoVictim (noRecords [ready 7 [13] ⟨1, 0⟩]).store ∧
    OldestUnpinned (noRecords [ready 8 [11] ⟨0, 0⟩, ready 7 [13] ⟨0, 0⟩]).store (ready 7 [13] ⟨0, 0⟩) ∧
    512 ≤ (noRecords [ready 8 [11] ⟨0, 0⟩, ready 7 [13] ⟨0, 0⟩]).store.reservedRecords + 2 := by
  refine ⟨by decide, ?_, ⟨rfl, rfl, by decide, ?_⟩, by decide⟩ <;> (try unfold NoVictim) <;> decide

/-- Camera 3's frame 9 about to end, with some readers, beside other frames, under a reader record of A. -/
def ending (readers : PerAnalysis Bool) (others : List FrameRec) (a : ReaderRec) : State :=
  let s := camFilling (some 3) [] 4
  { s with store := { s.store with frames := others ++ [frame9 .filling 4 readers], readers := ⟨a, ReaderRec.reset⟩ } }

theorem witness_FramesReachTheirReaders_lists :
    (let s := ending ⟨true, true⟩ [] ReaderRec.reset;
      s.frame? 9 = some (frame9 .filling 4 ⟨true, true⟩) ∧
      ∀ a, (s.store.readers.get a).ready.length < (s.store.readers.get a).holdLimit) ∧
    (let s := ending ⟨true, false⟩ [] { ReaderRec.reset with ready := [8], holdLimit := 1, policy := .keepOldest };
      s.store.readers.a.holdLimit ≤ s.store.readers.a.ready.length ∧ s.store.readers.a.policy = .keepOldest ∧
      s.store.frames.filter (fun x => x.id == 9) = [frame9 .filling 4 ⟨true, false⟩]) ∧
    (let s := ending ⟨true, false⟩ [ready 8 [11] ⟨1, 0⟩] { ReaderRec.reset with ready := [8], holdLimit := 1 };
      ∀ i ∈ s.store.readers.a.ready, ∃ x, s.frame? i = some x ∧ 0 < x.pins.get .A) ∧
    (let s := ending ⟨true, false⟩ [ready 8 [11] ⟨0, 1⟩] { ReaderRec.reset with ready := [8, 7], holdLimit := 2 };
      s.store.readers.a.ready = 8 :: [7] ∧ [8, 7].length = s.store.readers.a.holdLimit ∧
      s.store.readers.a.policy = .keepNewest ∧ 8 ∉ [7] ∧ 8 ≠ 9 ∧ s.frame? 8 = some (ready 8 [11] ⟨0, 1⟩) ∧
      (ready 8 [11] ⟨0, 1⟩).pins.get .A = 0 ∧ (ready 8 [11] ⟨0, 1⟩).readers.get .B = true) := by
  refine ⟨⟨by decide, fun a => ?_⟩, by decide, ?_, by decide⟩
  · cases a <;> decide
  · intro s i hi
    have h : i = 8 := by simpa [s, ending, camFilling] using hi
    subst h
    exact ⟨ready 8 [11] ⟨1, 0⟩, by decide, by decide⟩

theorem witness_StoreWritesStart_bytes :
    Reaches (askedWith cam .A .writePreset record63) .A .writePreset (entryWith .writePreset record63) ∧
    (entryWith .writePreset record63).fields = record63 := ⟨askedWith_reaches _ _ _ _ rfl, rfl⟩

/-- `record63` with one byte changed. -/
def recordAt (i : Nat) (b : Byte) : List Byte := record63.set i b

/-- A run of port 3 in STORE_WAIT for preset 6, which is being written. -/
def storeWaiting : State :=
  (camSeq (runCtx [stepOf (.lens (some 6) ⟨none, none, none⟩ none) false] .storeWait none)).updPresets
    (fun st => { st with write := some ⟨.preset 6, .writePreset, .A, .preset (some ⟨some 3, [], ⟨some 5, none, none⟩, 20, false⟩), 5⟩
                         presets := st.presets.set (6 : Fin 64) ⟨false, none⟩ })

theorem witness_StoreWritesCompleteAndLocksHold_waits :
    Reaches (askedWith cam .A .writePreset (recordAt 0 64)) .A .writePreset (entryWith .writePreset (recordAt 0 64)) ∧
    (parsePreset (recordAt 0 64)).map PresetFields.number = some 64 ∧
    (parsePreset (recordAt 2 8)).map PresetFields.port = some 8 ∧
    (parsePreset (recordAt 10 0xD1)).map PresetFields.settle = some 2001 ∧
    Reaches (asked cam .C .writeProfile) .C .writeProfile (entryOf .writeProfile) ∧ 7 < 8 ∧
    (storeWaiting.presets.presets.get 6).valid = false ∧ (storeWaiting.port 3).seq.inPhase .storeWait = true ∧
    (storeWaiting.port 3).seq.currentStep = some (stepOf (.lens (some 6) ⟨none, none, none⟩ none) false) ∧
    (∀ q : Port, q ≠ 3 → (storeWaiting.port q).seq.inPhase .storeWait = false) ∧ (storeWaiting.port 3).link.state = .up ∧
    (storeWaiting.port 3).waiting.length < 16 :=
  ⟨askedWith_reaches _ _ _ _ rfl, by decide, by decide, by decide, asked_reaches _ _ _ rfl, by decide, by decide, by decide,
    by decide, by decide, rfl, by decide⟩

theorem witness_SequencesLoad_bytes :
    Reaches (askedWith cam .B .loadSequence loadBody) .B .loadSequence (entryWith .loadSequence loadBody) ∧
    (entryWith .loadSequence loadBody).fields = loadBody := ⟨askedWith_reaches _ _ _ _ rfl, rfl⟩

/-- R155: a TRIGGER whose frame has just the bytes of a frame's limit passes, one line more does not; 9 ms of SETTLE do not. -/
theorem test_step_bounds :
    loadFailure [stepOf (.trigger (some 10) 2048 32768 (some 10)) false] = none ∧
    loadFailure [stepOf (.trigger (some 10) 2049 32768 (some 10)) false] = some (0, .size) ∧
    loadFailure [stepOf (.settle 9) false] = some (0, .range) ∧
    loadFailure [stepOf (.lens none ⟨none, none, none⟩ none) false] = some (0, .lensSource) := by decide

/-- A run of port 3 HELD before a step, the lens under A's implicit hold. -/
def heldBefore (k : StepKind) (focus : Motion) : State :=
  (camSeq { runCtx [stepOf k false] .before none with state := .held }).updLens 3 (fun _ =>
    ⟨⟨some (axisOf focus (some 9) none), none, none⟩, some .A, true, none⟩)

theorem witness_SequencesResumeAndHalt_steps :
    (∀ s, Reaches (asked s .A .resumeSequence) .A .resumeSequence (entryOf .resumeSequence)) ∧
    (∀ k ∈ [StepKind.lens none ⟨some 5, none, none⟩ none, .lens (some 6) ⟨none, none, none⟩ none, .settle 10,
        .trigger none 1 16 none],
      ((heldBefore k .idle).port 3).seq.state = .held ∧ ((heldBefore k .idle).port 3).seq.starter = some .A ∧
      ((heldBefore k .idle).port 3).seq.currentStep = some (stepOf k false)) ∧
    ((heldBefore (.settle 10) .stalled).port 3).lens.axes.get .focus = some (axisOf .stalled (some 9) none) ∧
    ((heldBefore (.settle 10) .moving).port 3).lens.axes.get .focus = some (axisOf .moving (some 9) none) ∧
    cam.presets.preset 6 = none ∧ cam.presets.writing (.preset 6) = false ∧ storeWaiting.presets.writing (.preset 6) = true ∧
    (cam.port 3).intake.state ≠ .filling ∧ ((camFilling none [] 0).port 3).intake.state = .filling ∧
    (cam.port 3).link.state = .up ∧ (cam.port 3).waiting.length < 16 :=
  ⟨fun _ => asked_reaches _ _ _ rfl, by decide, by decide, by decide, by decide, by decide, by decide, by decide, by decide,
    rfl, by decide⟩

/-- A notice queue of `n` notices, of which those at the front are urgent. -/
def queueOf (front n : Nat) : List Notice :=
  List.replicate front ⟨true, 1, .holdLapsed 3 .breakHold false⟩ ++
    List.replicate (n - front) ⟨false, 2, .frameDropped 1 3 .holdLimit false⟩

theorem witness_NoticesAreOfferedAndRepliesFormed :
    (cam.master .A).attached = false ∧ (cam.master .C).attached = true ∧ NoticeMask.all.frameReady = true ∧
    { NoticeMask.all with frameReady := false }.frameReady = false ∧ (queueOf 0 31).length < 32 ∧
    32 ≤ (queueOf 5 32).length ∧ (∀ n ∈ queueOf 32 32, n.urgent = true) ∧
    queueOf 5 32 = queueOf 5 5 ++ ⟨false, 2, .frameDropped 1 3 .holdLimit false⟩ :: (queueOf 5 32).drop 6 ∧
    (∀ n ∈ queueOf 5 5, n.urgent = true) ∧
    (cam.updMaster .C MasterRec.openTxn).master .C ≠ cam.master .C ∧
    (∃ t, t = cam.reply .C ⟨7, 14, false, true, []⟩ { result := .done, body := .frames ⟨0, 64, .keepNewest, 0⟩ [] } ∧
      (t.master .C).replies = (cam.master .C).replies ++
        [⟨7, 14, .done, [], .frames ⟨0, 64, .keepNewest, 0⟩ [], 0, true⟩]) :=
  ⟨by decide, by decide, rfl, rfl, by decide, by decide, by decide, by decide, by decide, by decide, _, rfl, rfl⟩

/-- Camera 3 filling frame 9 for step 0 of a run: so many of so many lines of 32 768 bytes stored. -/
def boundFrame (stored lines : Nat) (lenient : Bool) : State :=
  let st := { stepOf (.trigger none lines 32768 none) false with lenient := lenient }
  let s := on3 (fun r => { r with
    seq := { runCtx [st] .frameWait none with bound := some (.frame 9) }
    intake := { fillingIntake (if stored = 0 then none else some (stored - 1)) [] with
      width := some 32768, declaredWidth := some 32768, lines := some lines, capacity := some lines
      bound := some ⟨0, lenient⟩ } })
  { s with store := { s.store with
    frames := [{ frame9 .filling stored ⟨true, false⟩ with width := 32768, lines := lines, stepReserved := 7 }] } }

theorem witness_BoundFramesEnd :
    (∀ x ∈ [(4, 4, false), (3, 4, false), (3, 9, false), (3, 9, true), (0, 9, false), (0, 9, true)],
      let s := boundFrame x.1 x.2.1 x.2.2;
      (s.port 3).link.state = .up ∧ (s.port 3).link.attempt = none ∧ (s.port 3).intake.state = .filling ∧
      (s.port 3).intake.bound = some ⟨0, x.2.2⟩ ∧ (s.port 3).intake.highest.elim 0 (fun h => h + 1) = x.1 ∧
      (s.port 3).intake.capacity = some x.2.1 ∧ (s.port 3).seq.inPhase .frameWait = true ∧
      (s.port 3).seq.bound = some (.frame 9) ∧ (s.port 3).seq.starter = some .A ∧
      (s.frame? 9).map FrameRec.stored = some x.1 ∧ (s.frame? 9).map FrameRec.readers = some ⟨true, false⟩ ∧
      s.store.readers.a.ready.length < s.store.readers.a.holdLimit) ∧
    (9 * 32768 + 65535) / 65536 - [5].length ≤ 7 ∧
    ((camFilling (some 3) [⟨9, 3, [7, 0, 8]⟩] 4).port 3).intake.buffers = [⟨9, 3, [7, 0, 8]⟩] ∧
    (∀ cause ∈ [DiscardCause.discardStep, .noReaders, .widthMismatch],
      let s := on3 (fun r => { r with
        intake := { IntakeRec.reset with
          state := .discarding, cause := some cause, counts := some ⟨4, 0, 1⟩, highest := some 3, lines := some 9
          bound := some ⟨0, false⟩ }
        seq := { runCtx [stepOf (.trigger none 9 16 none) false] .frameWait none with bound := some .discarded } });
      (s.port 3).intake.bound = some ⟨0, false⟩ ∧ (s.port 3).intake.lines = some 9 ∧
      (s.port 3).seq.inPhase .frameWait = true ∧ (s.port 3).seq.bound = some .discarded) := by decide

/-- `boundFrame` with lines 1 and 0 of frame 9 buffered, five pages free, and a byte written in four places: in page 1 one of line 2
and one of line 3, in page 2 one of line 4, in page 5 one of line 1. -/
def boundBuffered (stored lines : Nat) (lenient : Bool) : State :=
  ((boundFrame stored lines lenient).updIntake 3 (fun i => { i with buffers := [⟨9, 1, [7, 0, 8]⟩, ⟨9, 0, [3]⟩] })).updStore
    (fun st => { st with freeList := [1, 2, 3, 4, 6], dram := [(65536, 9), (98304, 9), (131073, 9), (360449, 5)] })

theorem witness_BoundFramesEnd_buffered :
    BuffersApart (boundBuffered 3 9 true) 3
      { frame9 .filling 3 ⟨true, false⟩ with width := 32768, lines := 9, stepReserved := 7 } ∧
    (∀ b ∈ ((boundBuffered 3 9 true).port 3).intake.buffers, b.frame = 9) :=
  ⟨⟨by decide, by decide, by decide, by decide⟩, by decide⟩

/-- R82, R86, R91: the buffered lines go to page 5, and lines 3 to 8 (padded under LENIENT), or lines 3 and 4 (holes before a close of
5), are zeros in the pages drawn, of which line 2 has the first half of page 1. -/
theorem test_bound_frame_ends_buffered :
    [(true, 9, 3), (false, 9, 5)].map (fun x =>
      match exec (.frameClose 3 .r5000 x.2.2) (boundBuffered 3 x.2.1 x.1) with
      | .next t => t.store.dram.map Prod.fst :: t.store.dram.map (fun c => c.2.toNat) :: t.store.freeList ::
          (t.port 3).intake.buffers.map BufferedLine.index :: t.store.frames.map FrameRec.pages
      | .fault _ | .refused _ => []) =
    [[[65536, 327680, 360448, 360450], [9, 3, 7, 8], [6], [], [5, 1, 2, 3, 4]],
      [[65536, 327680, 360448, 360450], [9, 3, 7, 8], [3, 4, 6], [], [5, 1, 2]]] := by decide

/-- Camera 3 in an attempt at 1.25 Gb/s, with auto-sweep as given. -/
def lastAttempt (auto : Bool) : State :=
  (training none .r1250).updPort 3 (fun r => { r with profile := { r.profile with autoSweep := auto } })

theorem witness_CheckFailedPacketsCountAndFailAttempts_lost :
    (∀ auto, let s := lastAttempt auto;
      (s.port 3).link.state = .training ∧ (s.port 3).link.listen = .r1250 ∧ (s.port 3).link.current = some .r1250 ∧
      (s.port 3).profile.autoSweep = auto ∧ (s.port 3).power.state = .on ∧ (s.port 3).held = false ∧
      s.mgr.startQueue = [] ∧ s.engine.queue = []) ∧
    (∃ t, exec (.checkFailedPacket 3 .r1250 none) (lastAttempt false) = .next t ∧ (t.port 3).link.state = .lost) ∧
    (∃ t, exec (.checkFailedPacket 3 .r1250 none) (lastAttempt true) = .next t ∧ (t.port 3).power.state = .off) :=
  ⟨by decide, ⟨_, rfl, by decide⟩, ⟨_, rfl, by decide⟩⟩

/-- Port 7 OFF under a NORMAL supply, the start queue empty, the last inrush end at a time, port 3 in INRUSH or not. -/
def startLater (ended : Time) (inrush : Bool) : State :=
  asked ((at1.updPort 3 (fun r => if inrush then powered .inrush r else r)).updMgr
    (fun g => { g with supply := .normal, lastInrushEnd := some ended })) .A .portPower

theorem witness_PortPowerOnAdmitsPorts_waits :
    (∀ x ∈ [(990001, false), (900000, true)], let s := startLater x.1 x.2;
      Next s .A .portPower (entryOf .portPower) ∧ s.mgr.startQueue = [] ∧ (s.port 7).power.state = .off ∧
      (∃ t, exec (.portPowerOn .A [7]) s = .next t ∧ t.mgr.startQueue = [7])) ∧
    (startLater 990001 false).now < 990001 + (startLater 990001 false).mgr.stagger * 1000 ∧
    ((startLater 900000 true).port 3).power.state = .inrush ∧
    (∃ t, exec (.portPowerOn .A [7, 7]) (startLater 990000 false) = .next t ∧ (t.port 7).power.state = .inrush) := by
  refine ⟨?_, by decide, by decide, _, rfl, by decide⟩
  intro x hx
  simp only [List.mem_cons, List.not_mem_nil, or_false] at hx
  rcases hx with rfl | rfl <;> exact ⟨asked_next _ _ _, by decide, by decide, _, rfl, by decide⟩

/-- Camera 3 discarding a frame of 9 lines of 16 bytes, lines up to index 3 counted. -/
def discarding (cause : DiscardCause) (bound : Option BoundStep) : State :=
  on3 (fun r => { r with
    intake := { IntakeRec.reset with
      state := .discarding, cause := some cause, counts := bound.map (fun _ => ⟨4, 0, 1⟩), highest := some 3
      lines := some 9, declaredWidth := some 16, bound := bound }
    seq := { runCtx [stepOf (.trigger none 9 16 none) false] .frameWait none with bound := some .discarded } })

theorem witness_LinesAreStoredOrStray_discarding :
    (let s := discarding .noReaders (some ⟨0, false⟩);
      (s.port 3).link.state = .up ∧ (s.port 3).link.attempt = none ∧ (s.port 3).intake.state = .discarding ∧
      (s.port 3).intake.counts = some ⟨4, 0, 1⟩ ∧ (s.port 3).intake.lines = some 9 ∧
      ([3, 4, 8, 9].map (fun k => match exec (.line 3 .r5000 k [1]) s with
        | .next t => ((t.port 3).counters.stray, (t.port 3).intake.counts)
        | .fault _ | .refused _ => (0, none))) =
        [(1, some ⟨4, 0, 1⟩), (0, some ⟨5, 0, 2⟩), (0, some ⟨5, 4, 2⟩), (0, some ⟨4, 0, 1⟩)]) ∧
    ((discarding .refused none).port 3).intake.counts = none ∧
    ((training none .r5000).port 3).link.state = .training := by decide

theorem witness_FramesOpen_over :
    (∀ b ∈ [none, some (BoundStep.mk 0 false)], let s := discarding .noReaders b;
      (s.port 3).link.state = .up ∧ (s.port 3).link.attempt = none ∧ (s.port 3).intake.state = .discarding ∧
      (s.port 3).intake.bound = b ∧ (s.port 3).seq.inPhase .frameWait = true ∧
      (s.port 3).seq.bound = some .discarded ∧ (s.port 3).seq.index = some 0 ∧ (s.port 3).seq.starter = some .A) ∧
    (∀ x ∈ [(4, 4, false), (3, 4, false), (3, 4, true)], let s := boundFrame x.1 x.2.1 x.2.2;
      (s.port 3).intake.state = .filling ∧ (s.port 3).intake.bound = some ⟨0, x.2.2⟩ ∧ (s.port 3).intake.buffers = [] ∧
      (s.frame? 9).map FrameRec.stored = some x.1 ∧ (s.port 3).seq.bound = some (.frame 9)) ∧
    (let s := camFilling (some 3) [] 4;
      (s.port 3).intake.bound = none ∧ s.frame? 9 = some (frame9 .filling 4 ⟨true, false⟩) ∧
      s.store.readers.a.ready.length < s.store.readers.a.holdLimit ∧
      ∃ t, exec (.frameOpen 3 .r5000 2 32 8) s = .next t ∧ (t.frame? 9).map FrameRec.state = some .ready) ∧
    (camFilling none [] 0).frame? 9 = some (frame9 .filling 0 ⟨true, false⟩) := by
  refine ⟨by decide, by decide, ⟨by decide, by decide, by decide, _, rfl, by decide⟩, by decide⟩

/-- Camera 3 with a sequence of A's to be restarted by its cadence, which needs pages and records, its lens held. -/
def restarting (holder : Option Master) (pages records : Nat) : State :=
  (camSeq { readyCtx [stepOf (.dwell 1) false] with
    period := 10, cadence := some 1000000, pageCount := pages, recordCount := records }).updLens 3
      (fun l => { l with holder := holder })

theorem witness_CadenceRestartsRuns_skips :
    (∀ h ∈ [none, some Master.A, some .B], ((restarting h 1 1).port 3).lens.holder = h ∧
      ((restarting h 1 1).port 3).link.state = .up ∧ ((restarting h 1 1).port 3).held = false ∧
      ((restarting h 1 1).port 3).seq.cadence = some 1000000 ∧ (restarting h 1 1).now = 1000000) ∧
    (noRecords []).store.reservedRecords = 512 ∧
    512 - (restarting none 0 513).store.frames.length - (restarting none 0 513).store.reservedRecords <
      ((restarting none 0 513).port 3).seq.recordCount := by decide

theorem witness_SamplesAreDebounced_otherLine :
    let s := (camSeq (runCtx [stepOf (.await 1 0) false] .awaiting none)).updLine 2 (fun _ => line2 none);
    (s.port 3).seq.inPhase .awaiting = true ∧ (s.port 3).seq.currentStep = some (stepOf (.await 1 0) false) ∧
    (StepKind.await 1 0 ≠ .await (2 : LineNo).val 0) ∧
    ∃ t, exec (.triggerLineSample 2 .high) s = .next t ∧ (t.port 3).counters.earlyEdges = 1 :=
  ⟨by decide, by decide, by decide, _, rfl, by decide⟩

/-- R140, R141, R144: each field one past a bound of its range takes that bound and is listed; at the bounds none is. -/
theorem test_clamped_fields :
    (parseProfile ⟨some 100001, some 499, some 2001, some 49, some 9, some 499, some 3, some 0, some 49, some 11, some 0, some true,
      some true, some true⟩).map Prod.snd =
      some [(1, 100000), (2, 500), (3, 2000), (4, 50), (5, 10), (6, 500), (7, 2), (8, 1), (9, 50), (10, 12), (11, 1)] ∧
    (parseProfile ⟨some 0, some 991, some 0, some 1501, some 251, some 10001, some 0, some 1001, some 901, some 256, some 65,
      some true, some true, some true⟩).map Prod.snd =
      some [(2, 990), (4, 1500), (5, 250), (6, 10000), (8, 1000), (9, 900), (10, 255), (11, 64)] ∧
    (parseProfile ⟨some 100000, some 990, some 2000, some 1500, some 250, some 10000, some 2, some 1000, some 900, some 255, some 64,
      some true, some true, some true⟩).map Prod.snd = some [] ∧
    (let a := RawLine.mk (some true) (some 1) (some 0) (some 1001) (some 256);
      let b := RawLine.mk (some true) (some 0) (some 256) (some 1000) (some 255);
      (parseCell ⟨some 12001, some 1001, a, b, b, b⟩).map Prod.snd =
        some [(0, 12000), (1, 1000), (4, 1), (5, 1000), (6, 255), (9, 255), (14, 255), (19, 255)]) := by decide

/-- R156: the first failing step and its first reason: step 1 lacks CHAIN before its bad timeout is seen, and step 0 is past SIZE
and within RANGE. -/
theorem test_first_failure :
    loadFailure [stepOf (.dwell 1) true, stepOf (.settle 9) false, stepOf (.dwell 0) false] = some (1, .chain) ∧
    loadFailure [{ stepOf (.dwell 0) true with discard := true }, stepOf (.dwell 0) false] = some (0, .flag) ∧
    loadFailure [stepOf (.trigger none 2049 32768 none) true, stepOf (.dwell 0) false] = some (0, .size) ∧
    loadFailure [stepOf (.dwell 60000) true, stepOf (.lens (some 64) ⟨some 1, none, none⟩ none) false] = some (1, .range) ∧
    loadFailure [stepOf (.lens (some 63) ⟨some 1, none, none⟩ none) false] = some (0, .lensSource) ∧
    loadFailure (List.replicate 17 (stepOf (.dwell 1) true)) = some (0, .count) ∧ loadFailure [] = some (0, .count) := by
  decide

/-- R191: with 7 requests waiting the queue is not full at the fall of select, with 8 it is; nothing stands at the head. -/
theorem test_select_falls_full :
    ([7, 8].map (fun n => match exec .spiSelectFall (cam.updMaster .C (fun r => { r with
        requests := List.replicate n (entryOf .fire) })) with
      | .next t => (t.master .C).spi.map (fun x => (x.queueFull, x.headQueued))
      | .fault _ | .refused _ => none)) = [some (false, false), some (true, false)] := by decide

/-- R123, R129: an axis in motion keeps moving when the hold of its lens is freed by a teardown. -/
theorem test_teardown_keeps_axes :
    let s := moving2 settlingRun
    let t := State.lensTeardown .A s 3
    (s.port 3).lens.holder = some .A ∧ (t.port 3).lens.holder = none ∧ (t.port 3).lens.axes = (s.port 3).lens.axes := by decide

/-- Port 3 in ACQUIRING while port 5 is ON with its link UP. -/
def sweepingBesideOn : State := (acquiring3 0).updPort 5 (fun r => linked .up (powered .on r))

theorem witness_SupplyStatesSwitchPorts_sweep :
    sweepingBesideOn.mgr.supply = .normal ∧ sweepingBesideOn.sweepAccounts ∧ (sweepingBesideOn.port 3).held = true ∧
    (sweepingBesideOn.port 3).link.state = .testing ∧
    (∀ p : Port, ((sweepingBesideOn.port p).power.state = .inrush ∨ (sweepingBesideOn.port p).power.state = .on) →
      (sweepingBesideOn.port p).link.state ≠ .testing) ∧ (sweepingBesideOn.port 5).power.state = .on :=
  ⟨rfl, ⟨by decide, by decide, fun e h => by cases h; decide, by decide⟩, by decide, by decide, by decide, by decide⟩

theorem witness_BreakDistancesAreBounded_fraction :
    (∀ t ∈ [(traceOf 1000 16 250 310, 16, 200), (traceOf 1200 500 (-30) 240, 500, 240)], t.1.length = 1024 ∧
      (caseRecord caseParams t.1).crossing = some t.2.1 ∧ (caseRecord caseParams t.1).threshold = some t.2.2) ∧
    12 ≤ caseParams.blind ∧ caseParams.blind ≤ 255 ∧ caseParams.velocity ≤ 990 ∧
    (0 < 1 ∧ 0 < [(-37 : Int), 37].length ∧ -2048 * (1 : Int) ≤ -37 ∧ (37 : Int) ≤ 2047 * 1) := by decide +kernel

/-- R57, R60: L = -1000 and T = 200; the trace crosses upward at 300 by 300 after 100 the same way: f = 16 × 100 / 200 = 8. -/
theorem test_fraction :
    let r := caseRecord caseParams (traceOf (-1000) 300 100 300)
    (r.launch, r.threshold, r.crossing, r.position) = (-1000, some 200, some 300, some (299 * 16 + 8)) := by decide +kernel

theorem witness_FabricLinksCarryRecords_empty :
    emptyRecord.length = 8 ∧ byteAt emptyRecord 0 = 0 ∧ wordAt emptyRecord 4 = emptyRecord.length ∧
    ((asked cam .A .readPart).master .A).attached = true := by decide

/-- Master A asks for DETACH: it holds lens 3 under its run there, and was the starter of the READY context of port 4 with a cadence;
port 6 has a context READY after a run of B. -/
def tearing : State :=
  let ready := fun m => { readyCtx [stepOf (.dwell 1) false] with starter := some m, period := 10, cadence := some 1000000 }
  let run := { runCtx [stepOf (.dwell 1) false] .dwelling (some 1000000) with
    reservedPages := 3, reservedRecords := 1, period := 10, cadence := some 1000000 }
  let s := cam.updStore (fun st => { st with reservedPages := 7, reservedRecords := 2 })
  let s1 := (s.updLens 3 (fun l => { l with holder := some .A, implicit := true })).updSeq 3 (fun _ => run)
  asked ((s1.updSeq 4 (fun _ => ready .A)).updSeq 6 (fun _ => ready .B)) .A .detach

theorem witness_TeardownsEmptyTheirMaster_cadence :
    Reaches tearing .A .detach (entryOf .detach) ∧ (tearing.port 3).lens.holder = some .A ∧ (tearing.port 3).seq.active = true ∧
    (tearing.port 4).seq.state = .ready ∧ (tearing.port 4).seq.starter = some .A ∧ (tearing.port 6).seq.starter ≠ some .A ∧
    (tearing.port 6).lens.holder ≠ some .A ∧ ∃ t, exec (.detach .A) tearing = .next t :=
  ⟨asked_reaches _ _ _ rfl, by decide, by decide, by decide, by decide, by decide, by decide, _, rfl⟩

/-- R179, R199: the run under the freed hold ends HOLD_LAPSED, its 3 of 7 pages go back, and the cadences of A's contexts go; B's
stays. -/
theorem test_teardown_cancels_cadence :
    let t := tearing.teardown .A true
    (t.port 3).seq.ended = some (.holdLapsed, 0) ∧ t.store.reservedPages = 4 ∧ (t.port 3).seq.cadence = none ∧
    (t.port 4).seq.cadence = none ∧ (t.port 4).seq.period = 0 ∧ (t.port 6).seq.cadence = some 1000000 := by decide +kernel

/-- The cell port in a transaction whose head is the one part of a reply, its request's entry the only one. -/
def givingReply : State :=
  (cam.updMaster .C (fun r => { r with
    requests := [{ entryOf .fire with waiting := false }], replies := [⟨7, 39, .done, [], .empty, 0, true⟩] })).updMaster .C
      MasterRec.openTxn

/-- The record of a READ_PART with tag 7. -/
def readPartRecord : List Byte := [1, 44, 7, 0, 8, 0, 0, 0]

theorem witness_SpiTransactionsAndMasks_both :
    (∃ x, (givingReply.master .C).spi = some x ∧ x.queueFull = false ∧ x.headQueued = true ∧
      x.head = .reply ⟨7, 39, .done, [], .empty, 0, true⟩) ∧
    (givingReply.master .C).requests.length < 8 ∧ byteAt readPartRecord 0 = 1 ∧ byteAt emptyRecord 0 = 0 ∧
    (∀ l ∈ [readPartRecord, emptyRecord], 8 ≤ l.length ∧ 8 ≤ wordAt l 4 ∧ wordAt l 4 ≤ 256 ∧ wordAt l 4 ≤ l.length) :=
  ⟨⟨_, rfl, rfl, by decide, rfl⟩, by decide, by decide, by decide, by decide⟩

/-- R190, R191: one transaction takes READ_PART in and gives the reply whole: the new entry stays, the old one is freed. With an
EMPTY record the queue is left empty, and no count rises. -/
theorem test_transaction_takes_and_gives :
    ([readPartRecord, emptyRecord].map (fun l => match exec (.spiSelectRise l true true true) givingReply with
      | .next t =>
        some ((t.master .C).requests.map RequestEntry.kind, (t.master .C).replies.length, (t.master .C).framingErrors)
      | .fault _ | .refused _ => none)) = [some ([44], 0, 0), some ([], 0, 0)] := by decide

end Sys2Proof.Tests
end

section
/-! PROOFS. What the break finder computes (R55, R58, R59, R62, R63): the averaging, the search for the crossing, the peak, the
break record by its three outcomes, and the entry a SWEEP puts into the engine. -/

namespace Sys2Proof.Machine

/-! ## The averaging (R55) -/

/-- R55: the reduced averaging is the largest power of two not above the value, but at most the sixth (and 1 for 0). -/
theorem reduceAveraging_eq_pow (v : Nat) : reduceAveraging v = 2 ^ min 6 v.log2 := by
  have power : ∀ k, k ≤ 6 → 2 ^ k ≤ v → v < 2 ^ (k + 1) → 2 ^ k = 2 ^ min 6 v.log2 := fun k hk h1 h2 => by
    have hv : v ≠ 0 := Nat.ne_of_gt (Nat.lt_of_lt_of_le (Nat.two_pow_pos k) h1)
    rw [(Nat.log2_eq_iff hv).mpr ⟨h1, h2⟩, Nat.min_eq_right hk]
  unfold reduceAveraging
  split
  · obtain rfl | rfl : v = 0 ∨ v = 1 := by omega
    · decide
    · decide
  split
  · exact power 1 (by omega) (by omega) (by omega)
  split
  · exact power 2 (by omega) (by omega) (by omega)
  split
  · exact power 3 (by omega) (by omega) (by omega)
  split
  · exact power 4 (by omega) (by omega) (by omega)
  split
  · exact power 5 (by omega) (by omega) (by omega)
  · have : 6 ≤ v.log2 := (Nat.le_log2 (by omega)).mpr (by omega)
    show 2 ^ 6 = 2 ^ min 6 v.log2
    rw [Nat.min_eq_left this]

theorem reduceAveraging_mem (v : Nat) : reduceAveraging v ∈ [1, 2, 4, 8, 16, 32, 64] := by
  have powers : ∀ k, k < 7 → 2 ^ k ∈ [1, 2, 4, 8, 16, 32, 64] := by decide
  rw [reduceAveraging_eq_pow]
  exact powers _ (Nat.lt_succ_of_le (Nat.min_le_left _ _))

theorem reduceAveraging_of_le {v : Nat} (h : 64 ≤ v) : reduceAveraging v = 64 := by
  have : 6 ≤ v.log2 := (Nat.le_log2 (by omega)).mpr h
  show reduceAveraging v = 2 ^ 6
  rw [reduceAveraging_eq_pow, Nat.min_eq_left this]

theorem reduceAveraging_pow {k : Nat} (h : k ≤ 6) : reduceAveraging (2 ^ k) = 2 ^ k := by
  rw [reduceAveraging_eq_pow, Nat.log2_two_pow, Nat.min_eq_right h]

/-- R55: up to 64 nothing caps the power, so it is the one just below or at the value. -/
theorem reduceAveraging_bounds {v : Nat} (h1 : 1 ≤ v) (h64 : v ≤ 64) :
    reduceAveraging v ≤ v ∧ v < 2 * reduceAveraging v := by
  have hv : v ≠ 0 := Nat.ne_of_gt h1
  have hlog : v.log2 < 7 := (Nat.log2_lt hv).mpr (by omega)
  have hlt : v < 2 ^ (v.log2 + 1) := Nat.lt_log2_self
  rw [reduceAveraging_eq_pow, Nat.min_eq_right (Nat.le_of_lt_succ hlog)]
  exact ⟨Nat.log2_self_le hv, by rwa [Nat.pow_succ, Nat.mul_comm] at hlt⟩

theorem clampTo_bounds {a b : Nat} (h : a ≤ b) (n : Nat) : a ≤ clampTo a b n ∧ clampTo a b n ≤ b := by
  unfold clampTo
  split
  · omega
  · split <;> omega

/-- R144: the averaging of a profile that parses has been clamped to 1..64. -/
theorem parseProfile_averaging {r : RawProfile} {f : Profile} {clamps : List (Nat × Nat)}
    (h : parseProfile r = some (f, clamps)) : ∃ v, r.averaging = some v ∧ f.averaging = clampTo 1 64 v := by
  unfold parseProfile at h
  split at h
  · cases h
    exact ⟨_, ‹r.averaging = _›, rfl⟩
  · cases h

/-! ## A sweep's entry (R49, R50, R52) -/

/-- The entries the engine holds: the one it works on, then those that wait. -/
def BreakEngine.entries (g : BreakEngine) : List SweepEntry := g.current.toList ++ g.queue

@[simp] theorem enterAcquiring_engine_entries (s : State) (e : SweepEntry) :
    (s.enterAcquiring e).engine.entries = s.engine.entries := rfl

/-- R52: an entry that waits is still held when an IDLE engine takes the head. -/
theorem mem_entries_takeEntry {s : State} {x : SweepEntry} (h : x ∈ s.engine.queue) : x ∈ s.takeEntry.engine.entries := by
  obtain ⟨ht, _⟩ | ⟨e, rest, _, hq, ⟨_, ht⟩ | ⟨_, ht⟩⟩ := takeEntry_cases s
  · rw [ht]
    exact List.mem_append_right _ h
  · rw [ht]
    simpa [BreakEngine.entries, hq] using h
  · rw [ht, enterAcquiring_engine_entries]
    simpa [BreakEngine.entries, hq] using h

/-- R49: an append that is made leaves its entry with the engine. -/
theorem mem_entries_sweepAppend {s : State} {p : Port} (h : (s.port p).held = false) (c : SweepCause) (m : Option Master)
    (v : Option Nat) : ⟨p, c, m, v⟩ ∈ (s.sweepAppend p c m v).engine.entries := by
  unfold PortRec.held at h
  simp only [State.sweepAppend, h, Bool.false_eq_true, if_false]
  exact mem_entries_takeEntry (by simp)

theorem exec_sweep (m : Master) (n : Nat) (v : Option Nat) (s : State) : exec (.sweep m n v) s = execSweep m n v s := rfl

/-- R50: a SWEEP of an unpowered port that is not held appends its entry, the override reduced, and answers. -/
theorem exec_sweep_of_idle {s : State} {m : Master} {e : RequestEntry} {n : Nat} {p : Port} (hp : portOf n = some p)
    (hr : Reaches s m .sweep e) (hc : (s.port p).power.state.committed = false) (hh : (s.port p).held = false)
    (v : Option Nat) : exec (.sweep m n v) s =
      .next (((s.taken m).sweepAppend p .request (some m) (v.map reduceAveraging)).reply m e
        { result := .accepted, clamped := v.elim [] (fun x => clampEntry 1 x (reduceAveraging x)) }) := by
  have hport : (s.taken m).port p = s.port p := (taken_same s m).1 p
  have hs : (s.port p).sweepable = true := by simpa [PortRec.sweepable, PortRec.held] using hh
  simp only [exec_sweep, execSweep, takeRequest_of_reaches hr, hp, hport, hc, hs, Bool.not_true, Bool.false_eq_true,
    if_false]
  cases v <;> rfl

/-! ## The search (R59) -/

/-- R59: the search from index `i` finds the first deviation that reaches the threshold, with the one before it. -/
theorem firstCrossing_eq_some {t : Nat} : ∀ {l : List Int} {i : Nat} {before : Int} {x : Nat × Int × Int},
    firstCrossing t i before l = some x ↔
      ∃ n, n < l.length ∧ t ≤ (l.getD n 0).natAbs ∧ (∀ j, j < n → (l.getD j 0).natAbs < t) ∧
        x = (i + n, (before :: l).getD n 0, l.getD n 0)
  | [], i, before, x => by simp [firstCrossing]
  | d :: l, i, before, x => by
    unfold firstCrossing
    by_cases h : t ≤ d.natAbs
    · rw [if_pos h]
      constructor
      · rintro ⟨⟩
        exact ⟨0, by simp, by simpa using h, by simp, by simp⟩
      · rintro ⟨n, -, -, hfirst, rfl⟩
        cases n with
        | zero => simp
        | succ n => exact absurd (hfirst 0 n.succ_pos) (by simpa using h)
    · rw [if_neg h, firstCrossing_eq_some]
      constructor
      · rintro ⟨n, hn, ht, hfirst, rfl⟩
        refine ⟨n + 1, by simpa using hn, by simpa using ht, fun j hj => ?_, by simp; omega⟩
        cases j with
        | zero => simpa using h
        | succ j => simpa using hfirst j (by omega)
      · rintro ⟨n, hn, ht, hfirst, rfl⟩
        cases n with
        | zero => exact absurd (by simpa using ht) h
        | succ n =>
          exact ⟨n, by simpa using hn, by simpa using ht, fun j hj => by simpa using hfirst (j + 1) (by omega),
            by simp; omega⟩

/-- R59: the peak is the maximum of the magnitudes searched, where there are any. -/
theorem peakDeviation_eq_max {l : List Int} (h : l.map Int.natAbs ≠ []) : peakDeviation l = (l.map Int.natAbs).max h := by
  have hmap : peakDeviation l = (l.map Int.natAbs).foldl max 0 := List.foldl_map.symm
  rw [hmap, List.foldl_max_eq_max h, Nat.zero_max]

theorem natAbs_le_peakDeviation {l : List Int} {d : Int} (h : d ∈ l) : d.natAbs ≤ peakDeviation l := by
  have hmem := List.mem_map_of_mem (f := Int.natAbs) h
  rw [peakDeviation_eq_max (List.ne_nil_of_mem hmem)]
  exact List.le_max_of_mem hmem

theorem exists_natAbs_eq_peakDeviation {l : List Int} (h : l ≠ []) : ∃ d ∈ l, d.natAbs = peakDeviation l := by
  have hmap : l.map Int.natAbs ≠ [] := by simpa using h
  rw [peakDeviation_eq_max hmap]
  exact List.mem_map.mp (List.max_mem hmap)

/-! ## The threshold (R57, R58) -/

theorem sum_bounds {a b : Int} : ∀ {l : List Int}, (∀ x ∈ l, a ≤ x ∧ x ≤ b) →
    l.length * a ≤ l.sum ∧ l.sum ≤ l.length * b
  | [], _ => by simp
  | x :: l, h => by
    obtain ⟨hx, hl⟩ := List.forall_mem_cons.mp h
    have hsum := sum_bounds hl
    simp only [List.sum_cons, List.length_cons, Int.natCast_add, Int.add_mul, Int.natCast_one, Int.one_mul]
    omega

/-- R57: the launch level of a trace of twelve-bit averages is at most 2048 in magnitude. -/
theorem launchLevel_natAbs_le {trace : List Int} (hl : trace.length = 1024) (h : ∀ x ∈ trace, -2048 ≤ x ∧ x ≤ 2047) :
    (launchLevel trace).natAbs ≤ 2048 := by
  have hw : ((trace.drop 4).take 8).length = 8 := by simp [hl]
  have hb : ∀ x ∈ (trace.drop 4).take 8, -2048 ≤ x ∧ x ≤ 2047 :=
    fun x hx => h x (List.mem_of_mem_drop (List.mem_of_mem_take hx))
  have hsum := sum_bounds hb
  rw [hw] at hsum
  unfold launchLevel
  omega

/-- R58: the threshold at its bounds: a launch level of 64 or more, and of 2048 or less, and P in 50..900. -/
theorem threshold_bounds {a p : Nat} (ha : 64 ≤ a) (ha' : a ≤ 2048) (hp : 50 ≤ p) (hp' : p ≤ 900) :
    3 ≤ a * p / 1000 ∧ max 8 (a * p / 1000) ≤ 1843 := by
  have low : 64 * 50 ≤ a * p := Nat.mul_le_mul ha hp
  have high : a * p ≤ 2048 * 900 := Nat.mul_le_mul ha' hp'
  omega

/-! ## The break record (R57 to R64) -/

/-- The deviations that the search looks at: those from the blind count on. -/
def searchedDeviations (q : SweepParams) (trace : List Int) : List Int :=
  (trace.map (fun a => a - launchLevel trace)).drop q.blind

theorem searchedDeviations_length (q : SweepParams) (trace : List Int) :
    (searchedDeviations q trace).length = trace.length - q.blind := by simp [searchedDeviations]

theorem searchedDeviations_getD {q : SweepParams} {trace : List Int} {n : Nat} (h : n < (searchedDeviations q trace).length) :
    (searchedDeviations q trace).getD n 0 = trace.getD (q.blind + n) 0 - launchLevel trace := by
  rw [searchedDeviations_length] at h
  have : q.blind + n < trace.length := by omega
  simp [searchedDeviations, List.getD_eq_getElem?_getD, this]

/-- The deviations searched, by the trace's own indices. -/
theorem mem_searchedDeviations {q : SweepParams} {trace : List Int} {d : Int} : d ∈ searchedDeviations q trace ↔
    ∃ j, q.blind ≤ j ∧ j < trace.length ∧ trace.getD j 0 - launchLevel trace = d := by
  rw [List.mem_iff_getElem]
  constructor
  · rintro ⟨n, hn, rfl⟩
    refine ⟨q.blind + n, by omega, by rw [searchedDeviations_length] at hn; omega, ?_⟩
    rw [← searchedDeviations_getD hn, List.getElem_eq_getD 0]
  · rintro ⟨j, hb, hj, rfl⟩
    have hn : j - q.blind < (searchedDeviations q trace).length := by rw [searchedDeviations_length]; omega
    refine ⟨j - q.blind, hn, ?_⟩
    rw [List.getElem_eq_getD 0, searchedDeviations_getD hn, Nat.add_sub_cancel' hb]

/-- R59: the search of a sweep. -/
def sweepSearch (q : SweepParams) (trace : List Int) : Option (Nat × Int × Int) :=
  firstCrossing (crossThreshold (launchLevel trace) q.threshold) q.blind
    ((trace.map (fun a => a - launchLevel trace)).getD (q.blind - 1) 0) (searchedDeviations q trace)

/-- R59: the search finds the index `i` exactly where its deviation is the first from the blind count on to reach the threshold. -/
theorem sweepSearch_index_iff {q : SweepParams} {trace : List Int} {i : Nat} :
    (sweepSearch q trace).map Prod.fst = some i ↔
      q.blind ≤ i ∧ i < trace.length ∧
        crossThreshold (launchLevel trace) q.threshold ≤ (trace.getD i 0 - launchLevel trace).natAbs ∧
        ∀ j, q.blind ≤ j → j < i →
          (trace.getD j 0 - launchLevel trace).natAbs < crossThreshold (launchLevel trace) q.threshold := by
  have hlen := searchedDeviations_length q trace
  simp only [sweepSearch, Option.map_eq_some_iff, firstCrossing_eq_some]
  constructor
  · rintro ⟨x, ⟨n, hn, ht, hfirst, rfl⟩, rfl⟩
    rw [searchedDeviations_getD hn] at ht
    refine ⟨by omega, by omega, ht, fun j hb hj => ?_⟩
    have := hfirst (j - q.blind) (by omega)
    rwa [searchedDeviations_getD (by omega), Nat.add_sub_cancel' hb] at this
  · rintro ⟨hb, hi, ht, hfirst⟩
    refine ⟨_, ⟨i - q.blind, by omega, ?_, fun j hj => ?_, rfl⟩, by omega⟩
    · rwa [searchedDeviations_getD (by omega), Nat.add_sub_cancel' hb]
    · rw [searchedDeviations_getD (by omega)]
      exact hfirst _ (by omega) (by omega)

/-- The deviation found is that of the index found. -/
theorem sweepSearch_deviation {q : SweepParams} {trace : List Int} {i : Nat} {before d : Int}
    (h : sweepSearch q trace = some (i, before, d)) : d = trace.getD i 0 - launchLevel trace := by
  obtain ⟨n, hn, -, -, hx⟩ := firstCrossing_eq_some.mp h
  simp only [Prod.mk.injEq] at hx
  obtain ⟨rfl, -, rfl⟩ := hx
  exact searchedDeviations_getD hn

section Record
variable (now : Time) (cause : SweepCause) (q : SweepParams) (trace : List Int)

/-- R57, R64: the record of a launch level below 64 in magnitude, the near-end short; every record has its fixed parameters. -/
def nearEndRecord : BreakRecord :=
  { endTime := now, cause := cause, kind := .short, distance := 0, crossing := none, position := none,
    launch := launchLevel trace, threshold := none, peak := none, averaging := q.averaging, velocity := q.velocity,
    offset := q.offset, installed := q.installed, lengthDiffers := false }

/-- R58, R59: the record of a search that finds nothing. -/
def clearRecord : BreakRecord :=
  { nearEndRecord now cause q trace with
    kind := .clear, threshold := some (crossThreshold (launchLevel trace) q.threshold)
    peak := some (peakDeviation (searchedDeviations q trace)) }

/-- R60 to R63: the record of a crossing at index `i` with deviation `d`, `before` the deviation before it. -/
def crossingRecord (i : Nat) (before d : Int) : BreakRecord :=
  let position := crossPosition i (crossFraction (crossThreshold (launchLevel trace) q.threshold) before d)
  let distance := rawDistance position q.velocity - q.offset
  { clearRecord now cause q trace with
    kind := (classify q.installed distance (decide (0 < d))).1, distance := distance, crossing := some i
    position := some position, lengthDiffers := (classify q.installed distance (decide (0 < d))).2 }

variable {q trace}

theorem breakRecord_of_low_launch (h : (launchLevel trace).natAbs < 64) :
    breakRecord now cause q trace = nearEndRecord now cause q trace := if_pos h

theorem breakRecord_of_clear (h : 64 ≤ (launchLevel trace).natAbs) (hs : sweepSearch q trace = none) :
    breakRecord now cause q trace = clearRecord now cause q trace := by
  unfold sweepSearch searchedDeviations at hs
  simp only [breakRecord, Nat.not_lt.mpr h, if_false, hs]
  rfl

theorem breakRecord_of_crossing (h : 64 ≤ (launchLevel trace).natAbs) {i : Nat} {before d : Int}
    (hs : sweepSearch q trace = some (i, before, d)) :
    breakRecord now cause q trace = crossingRecord now cause q trace i before d := by
  unfold sweepSearch searchedDeviations at hs
  simp only [breakRecord, Nat.not_lt.mpr h, if_false, hs]
  rfl

variable (q trace)

/-- R57 to R64: the three outcomes of a sweep. -/
theorem breakRecord_cases :
    ((launchLevel trace).natAbs < 64 ∧ breakRecord now cause q trace = nearEndRecord now cause q trace) ∨
    (sweepSearch q trace = none ∧ breakRecord now cause q trace = clearRecord now cause q trace) ∨
    ∃ i before d, sweepSearch q trace = some (i, before, d) ∧
      breakRecord now cause q trace = crossingRecord now cause q trace i before d := by
  by_cases h : (launchLevel trace).natAbs < 64
  · exact .inl ⟨h, breakRecord_of_low_launch now cause h⟩
  · cases hs : sweepSearch q trace with
    | none => exact .inr (.inl ⟨rfl, breakRecord_of_clear now cause (Nat.not_lt.mp h) hs⟩)
    | some x => exact .inr (.inr ⟨_, _, _, rfl, breakRecord_of_crossing now cause (Nat.not_lt.mp h) hs⟩)

theorem breakRecord_averaging : (breakRecord now cause q trace).averaging = q.averaging := by
  obtain ⟨-, h⟩ | ⟨-, h⟩ | ⟨i, before, d, -, h⟩ := breakRecord_cases now cause q trace <;> rw [h] <;> rfl

theorem breakRecord_launch : (breakRecord now cause q trace).launch = launchLevel trace := by
  obtain ⟨-, h⟩ | ⟨-, h⟩ | ⟨i, before, d, -, h⟩ := breakRecord_cases now cause q trace <;> rw [h] <;> rfl

/-- R59, R61: a position is computed where there is a crossing, and nowhere else. -/
theorem breakRecord_position_isSome :
    (breakRecord now cause q trace).position.isSome = (breakRecord now cause q trace).crossing.isSome := by
  obtain ⟨-, h⟩ | ⟨-, h⟩ | ⟨i, before, d, -, h⟩ := breakRecord_cases now cause q trace <;> rw [h] <;> rfl

variable {q trace}

/-- R58, R59: with a launch level of 64 or more the record has the threshold, the peak and the index found. -/
theorem breakRecord_search (h : 64 ≤ (launchLevel trace).natAbs) :
    (breakRecord now cause q trace).threshold = some (crossThreshold (launchLevel trace) q.threshold) ∧
    (breakRecord now cause q trace).peak = some (peakDeviation (searchedDeviations q trace)) ∧
    (breakRecord now cause q trace).crossing = (sweepSearch q trace).map Prod.fst := by
  cases hs : sweepSearch q trace with
  | none => rw [breakRecord_of_clear now cause h hs]; exact ⟨rfl, rfl, rfl⟩
  | some x => rw [breakRecord_of_crossing now cause h hs]; exact ⟨rfl, rfl, rfl⟩

/-- R62, R63: a record with a crossing is classified by its own installed length and distance, and by the side of the launch level
on which the crossing's average lies. -/
theorem breakRecord_classify {i : Nat} (h : (breakRecord now cause q trace).crossing = some i) :
    ((breakRecord now cause q trace).kind, (breakRecord now cause q trace).lengthDiffers) =
      classify q.installed (breakRecord now cause q trace).distance (decide (launchLevel trace < trace.getD i 0)) := by
  obtain ⟨-, hr⟩ | ⟨-, hr⟩ | ⟨k, before, d, hs, hr⟩ := breakRecord_cases now cause q trace <;> rw [hr] at h ⊢
  · cases h
  · cases h
  · obtain rfl : k = i := Option.some.inj h
    have hsign : launchLevel trace < trace.getD k 0 ↔ 0 < d := by rw [sweepSearch_deviation hs]; omega
    rw [decide_eq_decide.mpr hsign]
    rfl

end Record

/-! ## Classification (R62, R63) -/

/-- R62: without an installed length the kind goes by the crossing's type alone. -/
theorem classify_zero (d : Nat) (openType : Bool) :
    classify 0 d openType = (if openType then .openUnplaced else .short, false) := rfl

/-- R63: a crossing nearer than the tolerance allows lies in the cable. -/
theorem classify_below {installed d : Nat} (h : d + lengthTolerance installed < installed) (openType : Bool) :
    classify installed d openType = (if openType then .open else .short, false) := by
  have h0 : installed ≠ 0 := by omega
  have hd : d < installed - lengthTolerance installed := by omega
  simp only [classify, h0, hd, if_false, if_true]

/-- R63: any other crossing is the camera's, and LENGTH_DIFFERS tells whether it lies beyond the tolerance. -/
theorem classify_of_le {installed d : Nat} (h0 : 0 < installed) (h : installed ≤ d + lengthTolerance installed)
    (openType : Bool) : classify installed d openType =
      (if openType then .cameraEnd else .cameraShort, decide (installed + lengthTolerance installed < d)) := by
  have hd : ¬ d < installed - lengthTolerance installed := by omega
  simp only [classify, Nat.ne_of_gt h0, hd, if_false]

/-! ## The statements -/

/-- Settles O33: the reduction is a capped power of two, a parsed profile is clamped to 1..64, and the entry a SWEEP appends stays
with the engine. -/
theorem averagingIsReducedToAPowerOfTwo : Obligations.AveragingIsReducedToAPowerOfTwo := by
  refine ⟨reduceAveraging_mem, rfl, fun v h => reduceAveraging_of_le (Nat.le_of_lt h), fun v => reduceAveraging_bounds,
    fun k => reduceAveraging_pow, rfl, rfl, rfl, fun fields c clamps h => ?_, fun s m e n p v hp hr hc hh => ?_,
    fun v f => ⟨rfl, rfl⟩, breakRecord_averaging⟩
  · obtain ⟨v, -, hv⟩ := parseProfile_averaging h
    rw [hv]
    exact clampTo_bounds (by decide) v
  · have hfree : ((s.taken m).port p).held = false := by rwa [(taken_same s m).1 p]
    exact ⟨_, exec_sweep_of_idle hp hr hc hh (some v), _,
      mem_entries_sweepAppend hfree .request (some m) (some (reduceAveraging v)), rfl, rfl⟩

/-- Settles O34: the record's crossing is the index that the search finds, and the search finds the first deviation at the
threshold. -/
theorem crossingIsTheFirstIndexAtTheThreshold : Obligations.CrossingIsTheFirstIndexAtTheThreshold := by
  rintro now cause q trace l t hlen hb hb' hp hp' htrace rfl hl ht
  obtain ⟨hprod, hmax⟩ := threshold_bounds hl (launchLevel_natAbs_le hlen htrace) hp hp'
  obtain ⟨hthr, hpeak, hcross⟩ := breakRecord_search now cause (q := q) hl
  obtain rfl : t = crossThreshold (launchLevel trace) q.threshold := ht
  have hmem : ∀ j, q.blind ≤ j → j ≤ 1023 → trace.getD j 0 - launchLevel trace ∈ searchedDeviations q trace :=
    fun j h1 h2 => mem_searchedDeviations.mpr ⟨j, h1, by omega, rfl⟩
  obtain ⟨d, hd, hpd⟩ := exists_natAbs_eq_peakDeviation (List.ne_nil_of_mem (hmem 1023 (by omega) (Nat.le_refl _)))
  obtain ⟨j, hj, hj', rfl⟩ := mem_searchedDeviations.mp hd
  have hj1023 : j ≤ 1023 := by omega
  refine ⟨hprod, hmax, rfl, breakRecord_launch now cause q trace, hthr, fun i => ?_,
    breakRecord_position_isSome now cause q trace, _, hpeak, fun k h1 h2 => natAbs_le_peakDeviation (hmem k h1 h2),
    ⟨j, hj, hj1023, hpd⟩, fun hbelow => ?_⟩
  · rw [hcross, sweepSearch_index_iff, hlen, Nat.lt_succ_iff]
  · have hnone : sweepSearch q trace = none := by
      cases hs : sweepSearch q trace with
      | none => rfl
      | some x =>
        obtain ⟨h1, h2, h3, -⟩ := sweepSearch_index_iff.mp (congrArg (Option.map Prod.fst) hs)
        exact absurd (hbelow x.1 h1 (by omega)) (Nat.not_lt.mpr h3)
    rw [breakRecord_of_clear now cause hl hnone]
    exact ⟨hpd ▸ hbelow j hj hj1023, rfl, rfl, rfl, rfl, rfl⟩

/-- Settles O36: the zones of the classification, and the record's classification by its own fields. -/
theorem kindsFollowTheInstalledLength : Obligations.KindsFollowTheInstalledLength := by
  refine ⟨fun d => ⟨classify_zero d true, classify_zero d false, rfl, rfl⟩, fun installed d tol h0 htol => ?_,
    fun now cause q trace i h => breakRecord_classify now cause h⟩
  have h500 : 500 ≤ tol := htol ▸ Nat.le_max_left _ _
  obtain rfl : tol = lengthTolerance installed := htol
  refine ⟨fun h => ⟨classify_below h true, classify_below h false⟩, fun h h' => ?_, fun h => ?_, by omega, by omega⟩
  · simp [classify_of_le h0 h, Nat.not_lt.mpr h']
  · have hle : installed ≤ d + lengthTolerance installed := by omega
    simp [classify_of_le h0 hle, h]

end Sys2Proof.Machine
end

section
/-! PROOFS. The attention lines (R196). A master's record is changed by `State.updMaster` alone, which judges the line again, so
every operation that is built from it and from changes of the other parts of the state keeps the lines following. One lemma for
each shared operation, callees first; the commands of the hub follow in one case split. -/

namespace Sys2Proof.Machine

variable {s t : State} {p : Port} {m : Master}

/-! ## The lines and the updates of the state -/

/-- R196: the three conditions of an asserted line. -/
theorem attentionDue_iff (r : MasterRec) : attentionDue (decide (m = .C)) r = true ↔
    (∃ n ∈ r.notices, n.urgent = true) ∨ r.watermark ≤ (r.notices.filter (fun n => !n.urgent)).length ∨
    (m = .C ∧ r.replies ≠ []) := by
  simp only [attentionDue, Bool.or_eq_true, List.any_eq_true, decide_eq_true_eq, Bool.and_eq_true, or_assoc,
    Bool.not_eq_true', List.isEmpty_eq_false_iff]
  rfl

/-- A changed record has its line judged again, and the other records stay. -/
theorem updMaster_follows {f : MasterRec → MasterRec} (h : s.attentionFollows) : (s.updMaster m f).attentionFollows := by
  intro k
  by_cases hk : m = k
  · subst hk
    rw [State.updMaster_master_self, MasterRec.refreshed_attention, attentionDue_refreshed]
  · rw [State.updMaster_master_of_ne s f hk]
    exact h k

theorem tick_follows (h : s.attentionFollows) : s.tick.attentionFollows := h

theorem updPort_follows {f : PortRec → PortRec} (h : s.attentionFollows) : (s.updPort p f).attentionFollows := h

theorem updLink_follows {f : LinkRec → LinkRec} (h : s.attentionFollows) : (s.updLink p f).attentionFollows := h

theorem updPower_follows {f : PowerRec → PowerRec} (h : s.attentionFollows) : (s.updPower p f).attentionFollows := h

theorem updMarks_follows {f : Marks → Marks} (h : s.attentionFollows) : (s.updMarks p f).attentionFollows := h

theorem updCounters_follows {f : Counters → Counters} (h : s.attentionFollows) : (s.updCounters p f).attentionFollows := h

theorem updIntake_follows {f : IntakeRec → IntakeRec} (h : s.attentionFollows) : (s.updIntake p f).attentionFollows := h

theorem updLens_follows {f : LensRec → LensRec} (h : s.attentionFollows) : (s.updLens p f).attentionFollows := h

theorem updSeq_follows {f : SeqCtx → SeqCtx} (h : s.attentionFollows) : (s.updSeq p f).attentionFollows := h

theorem updMgr_follows {f : PowerMgr → PowerMgr} (h : s.attentionFollows) : (s.updMgr f).attentionFollows := h

theorem updEngine_follows {f : BreakEngine → BreakEngine} (h : s.attentionFollows) : (s.updEngine f).attentionFollows := h

theorem updStore_follows {f : Store → Store} (h : s.attentionFollows) : (s.updStore f).attentionFollows := h

theorem updPresets_follows {f : PresetStore → PresetStore} (h : s.attentionFollows) : (s.updPresets f).attentionFollows := h

theorem updLine_follows {l : LineNo} {f : LineRec → LineRec} (h : s.attentionFollows) : (s.updLine l f).attentionFollows := h

theorem updFrame_follows {id : Nat} {f : FrameRec → FrameRec} (h : s.attentionFollows) :
    (s.updFrame id f).attentionFollows := updStore_follows h

/-! ## Choices and lists -/

section
variable {c : Prop} [Decidable c]

theorem ite_follows (ht : t.attentionFollows) (hs : s.attentionFollows) : (if c then t else s).attentionFollows := by
  split
  · exact ht
  · exact hs

/-- An operation that is carried out under a condition. -/
theorem when_follows (hs : s.attentionFollows) (ht : s.attentionFollows → t.attentionFollows) :
    (if c then t else s).attentionFollows := ite_follows (ht hs) hs

/-- An operation that is left out under a condition. -/
theorem unless_follows (hs : s.attentionFollows) (ht : s.attentionFollows → t.attentionFollows) :
    (if c then s else t).attentionFollows := ite_follows hs (ht hs)

/-- A request that is answered in two ways. -/
theorem ite_answer_follows {x y : Answer × State} (hx : x.2.attentionFollows) (hy : y.2.attentionFollows) :
    (if c then x else y).2.attentionFollows := by
  split
  · exact hx
  · exact hy

end

theorem foldl_follows {α : Type} {f : State → α → State} {l : List α}
    (hf : ∀ u a, u.attentionFollows → (f u a).attentionFollows) (h : s.attentionFollows) :
    (l.foldl f s).attentionFollows := by
  induction l generalizing s with
  | nil => exact h
  | cons a l ih => exact ih (hf s a h)

/-! ## Notices, requests and the down-channel (R3, R192, R194) -/

theorem notify_follows {u : Bool} {b : NoticeBody} (h : s.attentionFollows) : (s.notify m u b).attentionFollows :=
  updMaster_follows h

theorem notifyAll_follows {u : Bool} {b : NoticeBody} (h : s.attentionFollows) : (s.notifyAll u b).attentionFollows :=
  notify_follows (notify_follows (notify_follows h))

theorem notifyOpt_follows {o : Option Master} {u : Bool} {b : NoticeBody} (h : s.attentionFollows) :
    (s.notifyOpt o u b).attentionFollows := by
  cases o with
  | none => exact h
  | some m => exact notify_follows h

theorem reply_follows {e : RequestEntry} {a : Answer} (h : s.attentionFollows) : (s.reply m e a).attentionFollows :=
  updMaster_follows h

theorem answered_follows {e : RequestEntry} {a : Answer} (h : s.attentionFollows) : (s.answered m e a).attentionFollows :=
  reply_follows (updMaster_follows h)

theorem takeRequest_follows {k : RequestKind} {fits : Bool} {act : State → Answer × State} (h : s.attentionFollows)
    (hact : ∀ {u : State}, u.attentionFollows → (act u).2.attentionFollows) :
    (s.takeRequest m k fits act).attentionFollows := by
  obtain ht | ⟨e, -, ⟨-, ht⟩ | ⟨-, ht⟩ | ⟨-, -, ht⟩⟩ := takeRequest_cases s m k fits act <;> rw [ht]
  · exact h
  · exact answered_follows h
  · exact answered_follows h
  · exact reply_follows (hact (updMaster_follows h))

theorem onPort_follows {n : Nat} {act : Port → State → Answer × State} (h : s.attentionFollows)
    (hact : ∀ {q : Port}, (act q s).2.attentionFollows) : (onPort n act s).2.attentionFollows := by
  unfold onPort
  split
  · exact hact
  · exact h

theorem ofRecord_follows {l : List Byte} (h : s.attentionFollows) (ht : t.attentionFollows) :
    (s.ofRecord m l t).attentionFollows := ite_follows ht h

theorem handDown_follows {k : DownPacket} (h : s.attentionFollows) : (s.handDown p k).attentionFollows :=
  ite_follows h (unless_follows h updPort_follows)

theorem dropDown_follows (h : s.attentionFollows) : (s.dropDown p).attentionFollows := updPort_follows h

theorem countStray_follows (h : s.attentionFollows) : (s.countStray p).attentionFollows := updCounters_follows h

theorem countRefused_follows (h : s.attentionFollows) : (s.countRefused p).attentionFollows := updCounters_follows h

/-! ## The frame store (chapter 5) -/

section
variable {a : Analysis} {id : Nat}

theorem dropNotice_follows {f : FrameRec} {w : DropReason} {b : Bool} (h : s.attentionFollows) :
    (s.dropNotice a f w b).attentionFollows := notify_follows h

theorem reclaimOne_follows (ht : s.reclaimOne = some t) (h : s.attentionFollows) : t.attentionFollows := by
  unfold State.reclaimOne at ht
  split at ht
  · cases ht
  · cases ht
    exact updStore_follows (when_follows (when_follows h dropNotice_follows) dropNotice_follows)

theorem reclaimPages_follows {fuel n : Nat} (h : s.attentionFollows) : (State.reclaimPages fuel s n).attentionFollows := by
  induction fuel generalizing s with
  | zero => exact h
  | succ fuel ih =>
    refine ite_follows h ?_
    split
    · exact h
    · rename_i t ht
      exact ih (reclaimOne_follows ht h)

theorem holdRelease_follows (h : s.attentionFollows) : (State.holdRelease a s id).attentionFollows := by
  unfold State.holdRelease
  split
  · exact h
  · exact updStore_follows (dropNotice_follows h)

theorem listFrame_follows (h : s.attentionFollows) : (s.listFrame a id).attentionFollows := by
  unfold State.listFrame
  extract_lets s1
  have h1 : s1.attentionFollows := updStore_follows h
  split
  · exact h1
  · exact notify_follows h1

theorem giveUp_follows (h : s.attentionFollows) : (s.giveUp a id).attentionFollows := by
  unfold State.giveUp
  split
  · exact h
  · exact dropNotice_follows (updFrame_follows h)

theorem judgeReader_follows (h : s.attentionFollows) : (s.judgeReader a id).attentionFollows := by
  unfold State.judgeReader
  split
  · exact h
  · refine ite_follows h (ite_follows (listFrame_follows h) ?_)
    split
    · exact giveUp_follows h
    · exact ite_follows (giveUp_follows h) (listFrame_follows (foldl_follows (fun _ _ => holdRelease_follows) h))

theorem handover_follows (h : s.attentionFollows) : (s.handover id).attentionFollows := by
  unfold State.handover
  extract_lets s0 s1 s2
  have h0 : s0.attentionFollows := updStore_follows h
  split
  · exact h0
  · refine ite_follows (updStore_follows h0) (ite_follows (updStore_follows h0) ?_)
    have h2 : s2.attentionFollows := judgeReader_follows (judgeReader_follows (updFrame_follows h0))
    split
    · exact when_follows h2 updStore_follows
    · exact h2

theorem handFetch_follows {f : FetchMsg} (h : s.attentionFollows) : (s.handFetch a f).attentionFollows :=
  updMaster_follows h

theorem cancelFetches_follows (h : s.attentionFollows) : (s.cancelFetches a id).attentionFollows :=
  foldl_follows (fun _ _ hu => handFetch_follows (updStore_follows hu)) (updStore_follows h)

theorem storeTeardown_follows (h : s.attentionFollows) : (s.storeTeardown a).attentionFollows :=
  foldl_follows (fun _ _ => updPort_follows) (updStore_follows h)

theorem completeFetch_follows {f : Fetch} (h : s.attentionFollows) : (s.completeFetch a f).attentionFollows :=
  handFetch_follows (updStore_follows (updStore_follows h))

theorem readLine_follows {f : Fetch} (h : s.attentionFollows) : (s.readLine a f).attentionFollows := by
  unfold State.readLine
  split
  · exact h
  · extract_lets bytes s1
    have h1 : s1.attentionFollows := updStore_follows (handFetch_follows h)
    exact ite_follows (completeFetch_follows h1) (updStore_follows h1)

theorem setSubscription_follows {v : Bool} (h : s.attentionFollows) : (s.setSubscription m p v).attentionFollows := by
  unfold State.setSubscription
  split
  · exact updPort_follows h
  · exact h

theorem onReader_follows {act : Analysis → State → Answer × State} (h : s.attentionFollows)
    (hact : ∀ {b : Analysis}, (act b s).2.attentionFollows) : (onReader m act s).2.attentionFollows := by
  unfold onReader
  split
  · exact hact
  · exact h

theorem takeFetch_follows {tag first count : Nat} (h : s.attentionFollows) :
    (s.takeFetch a tag id first count).2.attentionFollows := by
  unfold State.takeFetch
  extract_lets r
  split
  · exact h
  · split
    · exact h
    · split
      · exact h
      · extract_lets left n clamps
        split
        · exact h
        · exact updStore_follows h

end

/-! ## Lenses and the sequencer (chapters 6 and 8) -/

theorem makeMove_follows {g : PerAxis (Option Nat)} {a : Nat} {o : Option Master} (h : s.attentionFollows) :
    (s.makeMove p g a o).attentionFollows :=
  ite_follows h (updLens_follows (handDown_follows h))

theorem lensEvent_follows {c : LensCause} (h : s.attentionFollows) : (s.lensEvent p c).attentionFollows :=
  notifyOpt_follows h

theorem seqEvent_follows {u : Bool} {c : SeqCause} {i : Option Nat} (h : s.attentionFollows) :
    (s.seqEvent p u c i).attentionFollows := notifyOpt_follows h

theorem endRun_follows {e : EndStatus} {x : EndExtras} (h : s.attentionFollows) : (s.endRun p e x).attentionFollows :=
  seqEvent_follows (unless_follows (when_follows (updStore_follows (updSeq_follows h)) updLens_follows) updSeq_follows)

theorem lensStep_follows {k a : Option Nat} {g : PerAxis (Option Nat)} (h : s.attentionFollows) :
    (s.lensStep p k g a).1.attentionFollows := by
  unfold State.lensStep
  extract_lets starter
  split
  · exact makeMove_follows h
  · split
    · exact endRun_follows h
    · split
      · exact updSeq_follows h
      · split
        · exact endRun_follows h
        · split
          · exact makeMove_follows h
          · exact endRun_follows h

theorem settleStep_follows {n : Nat} (h : s.attentionFollows) : (s.settleStep p n).1.attentionFollows := by
  unfold State.settleStep
  extract_lets l
  split
  · exact endRun_follows h
  · split
    · exact updSeq_follows h
    · exact h

theorem handTrigger_follows {x : Option Nat} {c : Nat} (h : s.attentionFollows) : (s.handTrigger p x c).attentionFollows :=
  updSeq_follows (handDown_follows h)

theorem startStep_follows {st : Step} (h : s.attentionFollows) : (s.startStep p st).1.attentionFollows := by
  unfold State.startStep
  extract_lets s1 s2
  have h2 : s2.attentionFollows := when_follows (updSeq_follows h) seqEvent_follows
  split
  · exact lensStep_follows h2
  · exact settleStep_follows h2
  · exact updSeq_follows h2
  · split
    · exact updSeq_follows h2
    · exact handTrigger_follows h2
  · exact updSeq_follows h2

theorem enterStep_follows {fuel : Nat} (h : s.attentionFollows) : (State.enterStep fuel s p).attentionFollows := by
  induction fuel generalizing s with
  | zero => exact h
  | succ fuel ih =>
    unfold State.enterStep
    split
    · exact h
    · rename_i st _
      have started := startStep_follows (p := p) (st := st) h
      exact ite_follows (seqEvent_follows (updSeq_follows h)) (ite_follows started
        (ite_follows (ih (updSeq_follows (updSeq_follows started))) (endRun_follows (updSeq_follows started))))

theorem completeStep_follows (h : s.attentionFollows) : (s.completeStep p).attentionFollows := by
  unfold State.completeStep
  split
  · exact h
  · exact ite_follows (enterStep_follows (updSeq_follows (updSeq_follows h))) (endRun_follows (updSeq_follows h))

theorem afterStart_follows {r : State × Bool} (h : r.1.attentionFollows) : (State.afterStart r p).attentionFollows :=
  when_follows h completeStep_follows

theorem startRun_follows {c : Option Nat} (h : s.attentionFollows) : (s.startRun p m c).attentionFollows := by
  unfold State.startRun
  extract_lets ctx free s1 s2 s3 s4
  have h3 : s3.attentionFollows := updSeq_follows (when_follows (updStore_follows h) updLens_follows)
  refine enterStep_follows ?_
  cases c with
  | none => exact h3
  | some period => exact updSeq_follows h3

theorem seqCameraLost_follows (h : s.attentionFollows) : (s.seqCameraLost p).attentionFollows :=
  when_follows h endRun_follows

theorem seqHoldLapsed_follows (h : s.attentionFollows) : (s.seqHoldLapsed p).attentionFollows :=
  when_follows h endRun_follows

theorem seqAxisIdle_follows (h : s.attentionFollows) : (s.seqAxisIdle p).attentionFollows :=
  when_follows h completeStep_follows

theorem seqAxisStalled_follows {a : Axis} (h : s.attentionFollows) : (s.seqAxisStalled p a).attentionFollows :=
  when_follows h endRun_follows

theorem seqReport_follows {r : FrameReport} (h : s.attentionFollows) : (s.seqReport p r).attentionFollows := by
  cases r with
  | stored => exact ite_follows (completeStep_follows h) (endRun_follows h)
  | discarded => exact completeStep_follows h
  | widthMismatch => exact endRun_follows h

theorem seqStoreDone_follows {n : Fin 64} (h : s.attentionFollows) : (s.seqStoreDone p n).attentionFollows := by
  unfold State.seqStoreDone
  refine ite_follows h ?_
  split
  · split
    · exact ite_follows (afterStart_follows (lensStep_follows h)) h
    · exact h
  · exact h

theorem seqTeardown_follows (h : s.attentionFollows) : (s.seqTeardown p m).attentionFollows :=
  when_follows h updSeq_follows

theorem takeReport_follows {l : List ReportEntry} (h : s.attentionFollows) : (s.takeReport p l).attentionFollows :=
  when_follows (when_follows (updLens_follows h) seqAxisIdle_follows) lensEvent_follows

theorem breakHold_follows (h : s.attentionFollows) : (s.breakHold p).attentionFollows := by
  unfold State.breakHold
  split
  · exact h
  · exact notify_follows (seqHoldLapsed_follows (updLens_follows h))

theorem stopLens_follows (h : s.attentionFollows) : (s.stopLens p).attentionFollows :=
  when_follows (updLens_follows (unless_follows h handDown_follows)) seqAxisIdle_follows

theorem cadenceRestart_follows (h : s.attentionFollows) : (s.cadenceRestart p).attentionFollows := by
  unfold State.cadenceRestart
  split
  · exact h
  · exact ite_follows (startRun_follows h) (seqEvent_follows (updSeq_follows h))

theorem cadenceOverrun_follows (h : s.attentionFollows) : (s.cadenceOverrun p).attentionFollows :=
  seqEvent_follows (updSeq_follows h)

theorem cadenceEvent_follows (h : s.attentionFollows) : (s.cadenceEvent p).attentionFollows :=
  ite_follows (cadenceOverrun_follows (updSeq_follows h)) (when_follows (updSeq_follows h) cadenceRestart_follows)

theorem resume_follows (h : s.attentionFollows) : (s.resume p).attentionFollows := by
  unfold State.resume
  split
  · exact afterStart_follows (startStep_follows h)
  · exact h

/-! ## The frame intake (chapter 4) -/

section
variable {id : Nat}

theorem cutFrame_follows (h : s.attentionFollows) : (s.cutFrame p id).attentionFollows :=
  updFrame_follows (updIntake_follows h)

theorem needPages_follows {n : Nat} (h : s.attentionFollows) : (s.needPages p id n).1.attentionFollows := by
  unfold State.needPages
  split
  · exact h
  · extract_lets short
    split
    · exact h
    · split
      · exact updStore_follows h
      · split
        · exact updStore_follows (reclaimPages_follows h)
        · exact cutFrame_follows (reclaimPages_follows h)

theorem zeroLines_follows {lo hi : Nat} (h : s.attentionFollows) : (s.zeroLines id lo hi).attentionFollows := by
  unfold State.zeroLines
  split
  · exact h
  · exact updStore_follows h

theorem fillHoles_follows {lo hi : Nat} (h : s.attentionFollows) : (s.fillHoles id lo hi).attentionFollows :=
  ite_follows h (updFrame_follows (zeroLines_follows h))

theorem storeLine_follows {k : Nat} {l : List Byte} {d : Bool} (h : s.attentionFollows) :
    (s.storeLine p id k l d).attentionFollows :=
  updIntake_follows (updFrame_follows (fillHoles_follows h))

theorem writeBuffered_follows {b : BufferedLine} (h : s.attentionFollows) : (s.writeBuffered b).attentionFollows := by
  unfold State.writeBuffered
  split
  · exact h
  · exact updStore_follows h

theorem flushFrame_follows (h : s.attentionFollows) : (s.flushFrame p id).attentionFollows :=
  updIntake_follows (foldl_follows (fun _ _ => writeBuffered_follows) h)

theorem padFrame_follows (h : s.attentionFollows) : (s.padFrame p id).attentionFollows := by
  unfold State.padFrame
  split
  · exact h
  · exact ite_follows (updFrame_follows (zeroLines_follows (needPages_follows h))) h

theorem finalize_follows {e : EndTags} {b : Bool} (h : s.attentionFollows) : (s.finalize p e b).attentionFollows := by
  unfold State.finalize
  split
  · exact updIntake_follows h
  · extract_lets live s0 s1 delivered s2 report s3 s4 s5 s6
    have h2 : s2.attentionFollows := padFrame_follows (flushFrame_follows (updFrame_follows h))
    have h6 : s6.attentionFollows :=
      handover_follows (updIntake_follows (updStore_follows (updFrame_follows h2)))
    exact when_follows h6 seqReport_follows

theorem countDiscarded_follows {k n : Nat} {d : Bool} (h : s.attentionFollows) :
    (s.countDiscarded p k n d).attentionFollows := by
  unfold State.countDiscarded
  extract_lets i
  split
  · exact h
  · exact ite_follows (countStray_follows h) (ite_follows h (updIntake_follows h))

theorem reportDiscard_follows {e : DiscardEnd} (h : s.attentionFollows) : (s.reportDiscard p e).attentionFollows := by
  unfold State.reportDiscard
  refine ite_follows h ?_
  split
  · exact seqReport_follows (notifyOpt_follows h)
  · exact seqReport_follows (notifyOpt_follows h)
  · exact seqReport_follows h
  · exact h

theorem endDiscard_follows {e : DiscardEnd} (h : s.attentionFollows) : (s.endDiscard p e).attentionFollows :=
  updIntake_follows (reportDiscard_follows h)

theorem discard_follows {c : DiscardCause} {n : Option DiscardCounts} (h : s.attentionFollows) :
    (s.discard p c n).attentionFollows := updIntake_follows h

theorem openRecord_follows {o : Opening} {n : Nat} (h : s.attentionFollows) : (s.openRecord p o n).attentionFollows :=
  updIntake_follows (updStore_follows h)

theorem openSequenced_follows {st : Step} {a b c d e : Nat} (h : s.attentionFollows) :
    (s.openSequenced p st a b c d e).attentionFollows := by
  unfold State.openSequenced
  extract_lets ctx i s1
  have h1 : s1.attentionFollows := updSeq_follows (updIntake_follows h)
  exact ite_follows (discard_follows h1) (ite_follows (discard_follows h1) (ite_follows (discard_follows h1)
    (openRecord_follows (updStore_follows (updSeq_follows h1)))))

theorem openUnsequenced_follows {o : Option PendingOrigin} {a b c : Nat} (h : s.attentionFollows) :
    (s.openUnsequenced p o a b c).attentionFollows := by
  unfold State.openUnsequenced
  extract_lets s1 readers o
  have h1 : s1.attentionFollows := updIntake_follows h
  refine ite_follows (discard_follows (countRefused_follows h1)) (ite_follows (discard_follows h1)
    (ite_follows (openRecord_follows h1) ?_))
  split
  · rename_i t ht
    exact openRecord_follows (reclaimOne_follows ht h1)
  · exact discard_follows (countRefused_follows h1)

theorem endPrevious_follows (h : s.attentionFollows) : (s.endPrevious p).attentionFollows := by
  unfold State.endPrevious
  split
  · exact h
  · exact finalize_follows h
  · exact endDiscard_follows h

theorem openFrame_follows {a b c : Nat} (h : s.attentionFollows) : (s.openFrame p a b c).attentionFollows := by
  unfold State.openFrame
  extract_lets s1 pending s2
  have h2 : s2.attentionFollows := updIntake_follows (endPrevious_follows h)
  split
  · split
    · exact openSequenced_follows h2
    · exact openUnsequenced_follows h2
  · exact openUnsequenced_follows h2

theorem tagFrame_follows {f : Tags → Tags} (h : s.attentionFollows) : (s.tagFrame id f).attentionFollows :=
  updFrame_follows h

theorem lineFilling_follows {k : Nat} {l : List Byte} {d : Bool} (h : s.attentionFollows) :
    (s.lineFilling p k l d).attentionFollows := by
  unfold State.lineFilling
  extract_lets i
  split
  · exact h
  · exact ite_follows h (ite_follows (countStray_follows h) (ite_follows (tagFrame_follows h)
      (ite_follows (tagFrame_follows h) (when_follows (needPages_follows h) storeLine_follows))))

theorem takeLine_follows {k : Nat} {l : List Byte} {d : Bool} (h : s.attentionFollows) :
    (s.takeLine p k l d).attentionFollows := by
  unfold State.takeLine
  split
  · exact countStray_follows h
  · exact countDiscarded_follows (updIntake_follows h)
  · exact lineFilling_follows (updIntake_follows h)

theorem closeFilling_follows {c : Nat} (h : s.attentionFollows) : (s.closeFilling p c).attentionFollows := by
  unfold State.closeFilling
  extract_lets i cap next upTo
  split
  · exact h
  · extract_lets s1
    have h1 : s1.attentionFollows := when_follows h tagFrame_follows
    exact ite_follows (when_follows (needPages_follows h1)
      (fun hn => updIntake_follows (updFrame_follows (fillHoles_follows hn)))) h1

theorem closeFrame_follows {c : Nat} (h : s.attentionFollows) : (s.closeFrame p c).attentionFollows := by
  unfold State.closeFrame
  split
  · exact countStray_follows h
  · exact endDiscard_follows h
  · exact finalize_follows (closeFilling_follows h)

theorem intakeLinkLeft_follows (h : s.attentionFollows) : (s.intakeLinkLeft p).attentionFollows := by
  unfold State.intakeLinkLeft
  refine updIntake_follows ?_
  split
  · exact h
  · exact finalize_follows h
  · exact endDiscard_follows h

theorem writeOldest_follows (h : s.attentionFollows) : (s.writeOldest p).attentionFollows := by
  unfold State.writeOldest
  split
  · exact h
  · exact updStore_follows (updIntake_follows (writeBuffered_follows h))

theorem frameTimedOut_follows (h : s.attentionFollows) : (s.frameTimedOut p).attentionFollows := by
  unfold State.frameTimedOut
  split
  · exact ite_follows (endRun_follows (finalize_follows h)) (endRun_follows h)
  · exact endRun_follows h

end

/-! ## The link (chapter 1) -/

theorem linkEvent_follows {l : LinkState} {n : Option Nat} (h : s.attentionFollows) :
    (s.linkEvent p l n).attentionFollows := notifyAll_follows h

theorem announceLeft_follows (h : s.attentionFollows) : (s.announceLeft p).attentionFollows :=
  updLens_follows (intakeLinkLeft_follows (seqCameraLost_follows (dropDown_follows (updLink_follows h))))

theorem leftFrom_follows {l : LinkState} {n : Option Nat} (h : s.attentionFollows) :
    (s.leftFrom p l n).attentionFollows :=
  ite_follows (linkEvent_follows (announceLeft_follows h)) h

theorem countClean_follows (h : s.attentionFollows) : (s.countClean p).attentionFollows := by
  unfold State.countClean
  refine ite_follows h ?_
  split
  · exact h
  · split
    · exact updLink_follows h
    · exact ite_follows (linkEvent_follows (updLink_follows h)) h

theorem enterRetraining_follows {r : Rate} {n : Option Nat} (h : s.attentionFollows) :
    (s.enterRetraining p r n).attentionFollows :=
  updLink_follows (handDown_follows (leftFrom_follows (updLink_follows h)))

theorem linkPowerLeft_follows (h : s.attentionFollows) : (s.linkPowerLeft p).attentionFollows :=
  ite_follows (updLink_follows h) (leftFrom_follows (updLink_follows h))

theorem startTraining_follows {i : Identity} (h : s.attentionFollows) : (s.startTraining p i).attentionFollows :=
  leftFrom_follows (updLink_follows (handDown_follows h))

theorem classDown_follows (h : s.attentionFollows) : (s.classDown p).attentionFollows :=
  ite_follows (leftFrom_follows (updLink_follows h)) (linkEvent_follows (updLink_follows h))

theorem hear_follows (h : s.attentionFollows) : (s.hear p).attentionFollows := updLink_follows h

theorem routed_follows {act : State → State} (h : s.attentionFollows)
    (hact : ∀ {u : State}, u.attentionFollows → (act u).attentionFollows) : (s.routed p act).attentionFollows :=
  ite_follows (hact (hear_follows h)) (countStray_follows (countClean_follows (hear_follows h)))

theorem sendDown_follows (h : s.attentionFollows) : (s.sendDown p).attentionFollows := by
  unfold State.sendDown
  split
  · exact updPort_follows h
  · exact ite_follows (updPort_follows h) (updPort_follows h)

theorem nextWindow_follows {w : Window} {b : Bool} (h : s.attentionFollows) : (s.nextWindow p w b).attentionFollows :=
  unless_follows (updLink_follows h) linkEvent_follows

theorem judgeWindow_follows {w : Window} (h : s.attentionFollows) : (s.judgeWindow p w).attentionFollows := by
  unfold State.judgeWindow
  refine ite_follows ?_ (nextWindow_follows h)
  split
  · exact enterRetraining_follows h
  · exact nextWindow_follows h

/-! ## Sweeps and port power (chapters 2 and 3) -/

theorem enterAcquiring_follows {e : SweepEntry} (h : s.attentionFollows) : (s.enterAcquiring e).attentionFollows :=
  updEngine_follows (updLink_follows (updMarks_follows h))

theorem takeEntry_follows (h : s.attentionFollows) : s.takeEntry.attentionFollows := by
  unfold State.takeEntry
  split
  · exact when_follows (updEngine_follows h) enterAcquiring_follows
  · exact h

theorem sweepAppend_follows {c : SweepCause} {o : Option Master} {v : Option Nat} (h : s.attentionFollows) :
    (s.sweepAppend p c o v).attentionFollows :=
  ite_follows h (takeEntry_follows (updEngine_follows (updMarks_follows h)))

theorem powerEvent_follows {u : Bool} {e : PowerEvent} (h : s.attentionFollows) : (s.powerEvent u e).attentionFollows :=
  notifyAll_follows h

theorem startPort_follows (h : s.attentionFollows) : (s.startPort p).attentionFollows :=
  updLink_follows (updPower_follows (updMgr_follows h))

theorem testHead_follows (h : s.attentionFollows) : s.testHead.attentionFollows := by
  obtain ht | ⟨q, -, -, -, -, ht⟩ := testHead_cases s <;> rw [ht]
  · exact h
  · exact startPort_follows h

theorem commitPort_follows (h : s.attentionFollows) : (s.commitPort p).attentionFollows :=
  updMgr_follows (updPower_follows h)

theorem admitPort_follows (h : s.attentionFollows) : (s.admitPort p).attentionFollows :=
  when_follows h commitPort_follows

theorem autoAdmit_follows {o : AdmitOrigin} (h : s.attentionFollows) : (State.autoAdmit o s p).attentionFollows :=
  ite_follows (admitPort_follows h) (powerEvent_follows h)

theorem testJoined_follows {l : List Port} (h : s.attentionFollows) : (s.testJoined l).attentionFollows :=
  when_follows h testHead_follows

theorem releaseAllotment_follows (h : s.attentionFollows) : (s.releaseAllotment p).attentionFollows :=
  updPower_follows (updMgr_follows h)

theorem leaveEnergized_follows {w : PowerState} (h : s.attentionFollows) : (s.leaveEnergized p w).attentionFollows :=
  linkPowerLeft_follows (when_follows (updPower_follows h) updMgr_follows)

theorem enterOff_follows {c : OffCause} (h : s.attentionFollows) : (s.enterOff p c).attentionFollows :=
  updMgr_follows (updPower_follows (releaseAllotment_follows h))

theorem switchOff_follows {c : OffCause} (h : s.attentionFollows) : (s.switchOff p c).attentionFollows :=
  ite_follows h (powerEvent_follows (when_follows (enterOff_follows h) leaveEnergized_follows))

theorem switchOffBy_follows {c : OffCause} (h : s.attentionFollows) : (s.switchOffBy p c).attentionFollows :=
  ite_follows (testHead_follows (switchOff_follows h)) h

theorem trip_follows {c : TripCause} {v : Nat} (h : s.attentionFollows) : (s.trip p c v).attentionFollows :=
  powerEvent_follows (when_follows
    (testHead_follows (leaveEnergized_follows (updPower_follows (releaseAllotment_follows h)))) sweepAppend_follows)

theorem undercurrentRule_follows (h : s.attentionFollows) : (s.undercurrentRule p).attentionFollows :=
  ite_follows
    (powerEvent_follows (sweepAppend_follows (testHead_follows (leaveEnergized_follows (enterOff_follows
      (updPower_follows h))))))
    (powerEvent_follows (updPower_follows h))

theorem judgeOn_follows {v : Nat} (h : s.attentionFollows) : (s.judgeOn p v).attentionFollows :=
  ite_follows (trip_follows h) (ite_follows (trip_follows h) (when_follows (updPower_follows h) undercurrentRule_follows))

theorem judgeInrush_follows {v : Nat} (h : s.attentionFollows) : (s.judgeInrush p v).attentionFollows :=
  ite_follows (trip_follows (updPower_follows h)) (when_follows (updPower_follows h) trip_follows)

theorem takeSample_follows {v : Nat} (h : s.attentionFollows) : (s.takeSample p v).attentionFollows := by
  unfold State.takeSample
  extract_lets w s1
  have h1 : s1.attentionFollows := updPower_follows h
  split
  · exact judgeInrush_follows h1
  · exact judgeOn_follows h1
  · exact h1

theorem finishInrush_follows (h : s.attentionFollows) : (s.finishInrush p).attentionFollows :=
  testHead_follows (powerEvent_follows (updLink_follows (updMgr_follows (updPower_follows h))))

theorem supplyLow_follows (h : s.attentionFollows) : s.supplyLow.attentionFollows :=
  powerEvent_follows (foldl_follows (fun _ _ hu => when_follows hu leaveEnergized_follows)
    (updMgr_follows (foldl_follows (fun _ _ => updPower_follows) h)))

theorem supplyNormal_follows (h : s.attentionFollows) : s.supplyNormal.attentionFollows :=
  testJoined_follows (when_follows
    (updMgr_follows (foldl_follows (fun _ _ => autoAdmit_follows) (powerEvent_follows (updMgr_follows h))))
    (fun h3 => updMgr_follows (foldl_follows (fun _ _ => autoAdmit_follows) h3)))

theorem enterLost_follows {c : LinkCause} (h : s.attentionFollows) : (s.enterLost p c).attentionFollows :=
  when_follows (linkEvent_follows (when_follows (updLink_follows h) announceLeft_follows))
    (fun h3 => sweepAppend_follows (switchOffBy_follows h3))

theorem failAttempt_follows (h : s.attentionFollows) : (s.failAttempt p).attentionFollows := by
  unfold State.failAttempt
  refine ite_follows h ?_
  split
  · exact updLink_follows (handDown_follows h)
  · exact enterLost_follows h

theorem takeHello_follows {b : HelloBody} (h : s.attentionFollows) : (s.takeHello p b).attentionFollows := by
  unfold State.takeHello
  extract_lets i s1
  have h1 : s1.attentionFollows := updLens_follows (updLink_follows h)
  exact ite_follows (countStray_follows h)
    (ite_follows (switchOffBy_follows (classDown_follows h1)) (startTraining_follows h1))

theorem admitList_follows {l : List Port} (h : s.attentionFollows) : (s.admitList l).2.attentionFollows := by
  induction l generalizing s with
  | nil => exact h
  | cons p l ih => exact ih (admitPort_follows h)

theorem offEntry_follows (h : s.attentionFollows) : (s.offEntry p).attentionFollows :=
  when_follows (switchOff_follows h) updMgr_follows

theorem clearFault_follows (h : s.attentionFollows) : (s.clearFault p).attentionFollows :=
  updMarks_follows (ite_follows (powerEvent_follows (updPower_follows h)) h)

theorem endSweep_follows {e : SweepEntry} {q : SweepParams} (h : s.attentionFollows) :
    (s.endSweep e q).attentionFollows :=
  takeEntry_follows (updEngine_follows (when_follows
    (notifyAll_follows (updMarks_follows (updLink_follows (updPort_follows h))))
    (fun h3 => testJoined_follows (autoAdmit_follows h3))))

/-! ## The preset store, the trigger lines and teardown (chapters 7, 9 and 10) -/

theorem takeWrite_follows {k : WriteKind} {r : RecordName} {c : NewContent} {l : List (Nat × Nat)}
    (h : s.attentionFollows) : (s.takeWrite m k r c l).2.attentionFollows := by
  unfold State.takeWrite
  split
  · exact h
  · exact updPresets_follows h

theorem takeWritePreset_follows {f : PresetFields} (h : s.attentionFollows) :
    (s.takeWritePreset m f).2.attentionFollows := by
  unfold State.takeWritePreset
  split
  · split
    · exact h
    · exact takeWrite_follows h
  · exact h

theorem takeLock_follows {n : Fin 64} {b : Bool} (h : s.attentionFollows) : (s.takeLock m n b).2.attentionFollows := by
  unfold State.takeLock
  split
  · exact h
  · exact h
  · split
    · exact h
    · exact takeWrite_follows h

theorem loadWritten_follows {c : NewContent} {r : RecordName} (h : s.attentionFollows) :
    (s.loadWritten c r).attentionFollows := by
  unfold State.loadWritten
  split
  · exact updPort_follows h
  · exact h
  · exact h

theorem completeWrite_follows {w : Write} {b : Bool} (h : s.attentionFollows) : (s.completeWrite w b).attentionFollows := by
  unfold State.completeWrite
  extract_lets s1 s2 s3 s4
  have h4 : s4.attentionFollows :=
    unless_follows (notify_follows (when_follows (updPresets_follows h) loadWritten_follows)) testHead_follows
  split
  · exact foldl_follows (fun _ _ => seqStoreDone_follows) h4
  · exact h4

theorem takeLoad_follows {n : Nat} {l : List Step} (h : s.attentionFollows) : (s.takeLoad m n l).2.attentionFollows := by
  unfold State.takeLoad
  split
  · exact h
  · split
    · exact h
    · split
      · exact h
      · exact updSeq_follows h

theorem fireUnsequenced_follows {x : Option Nat} {o : PendingOrigin} (h : s.attentionFollows) :
    (s.fireUnsequenced p x o).attentionFollows := updIntake_follows (handDown_follows h)

theorem deliverEdge_follows {l : LineNo} {v : Time} (h : s.attentionFollows) :
    (State.deliverEdge l v s p).attentionFollows :=
  ite_follows (completeStep_follows (updSeq_follows h)) (ite_follows (updCounters_follows h)
    (ite_follows (updCounters_follows h) (fireUnsequenced_follows h)))

theorem takeEdge_follows {l : LineNo} {v : Time} (h : s.attentionFollows) : (s.takeEdge l v).attentionFollows :=
  ite_follows (updLine_follows h) (foldl_follows (fun _ _ => deliverEdge_follows) (updLine_follows h))

theorem takeLevel_follows {l : LineNo} {v : Level} (h : s.attentionFollows) : (s.takeLevel l v).attentionFollows :=
  when_follows (updLine_follows h) takeEdge_follows

theorem lensTeardown_follows (h : s.attentionFollows) : (State.lensTeardown m s p).attentionFollows :=
  updLens_follows (ite_follows (seqHoldLapsed_follows (updLens_follows h)) h)

theorem teardown_follows {b : Bool} (h : s.attentionFollows) : (s.teardown m b).attentionFollows := by
  unfold State.teardown
  extract_lets s1 s2 s3 s4
  have h1 : s1.attentionFollows := updMaster_follows h
  have h2 : s2.attentionFollows := by
    cases m with
    | A => exact storeTeardown_follows h1
    | B => exact storeTeardown_follows h1
    | C => exact h1
  exact updMaster_follows (foldl_follows (fun _ _ => seqTeardown_follows)
    (foldl_follows (fun _ _ => lensTeardown_follows) h2))

/-- The lines are negated after a reset, whose queues are empty under a watermark of 1. -/
theorem afterReset_follows {k : ResetKind} : (s.afterReset k).attentionFollows := by
  intro m
  cases m <;> rfl

/-! ## The commands -/

/-- A command answers a state whose lines follow. -/
def AnswersFollowing (o : Outcome) : Prop := ∃ t : State, o = .next t ∧ t.attentionFollows

theorem AnswersFollowing.next (h : t.attentionFollows) : AnswersFollowing (.next t) := ⟨t, rfl, h⟩

theorem execCheckFailedPacket_follows {r : Rate} {b : Option (Nat × List Byte)} (h : s.attentionFollows) :
    AnswersFollowing (execCheckFailedPacket p r b s) := by
  refine .next (ite_follows h ?_)
  extract_lets s1
  have h1 : s1.attentionFollows := updCounters_follows (hear_follows h)
  split
  · cases b with
    | none => exact updLink_follows h1
    | some x => exact takeLine_follows (updLink_follows h1)
  · exact failAttempt_follows h1
  · exact failAttempt_follows h1
  · exact h1

theorem execInactivityTimeout_follows (h : s.attentionFollows) : AnswersFollowing (execInactivityTimeout p s) := by
  refine .next (ite_follows h ?_)
  split
  · exact h
  · exact finalize_follows h
  · exact endDiscard_follows h

theorem execDramWriteGrant_follows (h : s.attentionFollows) : AnswersFollowing (execDramWriteGrant s) := by
  refine .next ?_
  split
  · exact writeOldest_follows h
  · exact h

theorem execFetchReadGrant_follows (h : s.attentionFollows) : AnswersFollowing (execFetchReadGrant s) := by
  refine .next (ite_follows h ?_)
  split
  · exact h
  · split
    · exact readLine_follows h
    · exact h

theorem execErrorWindowEnd_follows (h : s.attentionFollows) : AnswersFollowing (execErrorWindowEnd p s) := by
  refine .next ?_
  split
  · exact when_follows h judgeWindow_follows
  · exact h

theorem execDischargeEnd_follows (h : s.attentionFollows) : AnswersFollowing (execDischargeEnd s) := by
  refine .next ?_
  split
  · exact when_follows h enterAcquiring_follows
  · exact h

theorem execAcquisitionEnd_follows (h : s.attentionFollows) : AnswersFollowing (execAcquisitionEnd s) := by
  refine .next ?_
  split
  · exact when_follows h endSweep_follows
  · exact h

theorem execLensDeadline_follows {a : Axis} (h : s.attentionFollows) : AnswersFollowing (execLensDeadline p a s) := by
  refine .next ?_
  split
  · exact ite_follows (lensEvent_follows (seqAxisStalled_follows (updLens_follows h))) h
  · exact h

theorem execStoreWriteComplete_follows {b : Bool} (h : s.attentionFollows) :
    AnswersFollowing (execStoreWriteComplete b s) := by
  refine .next ?_
  split
  · exact completeWrite_follows h
  · exact h

theorem execTriggerHandover_follows (h : s.attentionFollows) : AnswersFollowing (execTriggerHandover p s) := by
  refine .next (ite_follows ?_ h)
  split
  · split
    · exact handTrigger_follows h
    · exact h
  · exact h

theorem execUnknownRequestKind_follows (h : s.attentionFollows) : AnswersFollowing (execUnknownRequestKind m s) := by
  refine .next ?_
  split
  · exact ite_follows h (answered_follows h)
  · exact h

theorem execSetRateLimit_follows {n v : Nat} (h : s.attentionFollows) : AnswersFollowing (execSetRateLimit m n v s) := by
  refine .next (takeRequest_follows h fun hu => onPort_follows hu ?_)
  intro q
  split
  · exact updPort_follows hu
  · exact hu

theorem execPortPowerOn_follows {l : List Nat} (h : s.attentionFollows) : AnswersFollowing (execPortPowerOn m l s) := by
  refine .next (takeRequest_follows h fun hu => ?_)
  split
  · exact hu
  · exact testJoined_follows (admitList_follows hu)

theorem execPortPowerOff_follows {l : List Nat} (h : s.attentionFollows) : AnswersFollowing (execPortPowerOff m l s) := by
  refine .next (takeRequest_follows h fun hu => ?_)
  split
  · exact hu
  · exact when_follows (foldl_follows (fun _ _ => offEntry_follows) hu) testHead_follows

theorem execSweep_follows {n : Nat} {v : Option Nat} (h : s.attentionFollows) : AnswersFollowing (execSweep m n v s) := by
  refine .next (takeRequest_follows h fun hu => ?_)
  split
  · exact hu
  · exact ite_answer_follows hu (ite_answer_follows hu (sweepAppend_follows hu))

theorem execRecallPreset_follows {n k : Nat} (h : s.attentionFollows) : AnswersFollowing (execRecallPreset m n k s) := by
  refine .next (takeRequest_follows h fun hu => onPort_follows hu ?_)
  intro q
  split
  · exact hu
  · refine ite_answer_follows hu ?_
    split
    · exact hu
    · exact ite_answer_follows hu (ite_answer_follows hu (ite_answer_follows hu (makeMove_follows hu)))

theorem execWritePreset_follows {l : List Byte} (h : s.attentionFollows) : AnswersFollowing (execWritePreset m l s) := by
  refine .next (ofRecord_follows h (takeRequest_follows h fun hu => ?_))
  split
  · exact takeWritePreset_follows hu
  · exact hu

theorem execErasePreset_follows {n : Nat} (h : s.attentionFollows) : AnswersFollowing (execErasePreset m n s) := by
  refine .next (takeRequest_follows h fun hu => ?_)
  split
  · exact hu
  · exact takeWrite_follows hu

theorem execWriteProfile_follows {n : Nat} {f : RawProfile} (h : s.attentionFollows) :
    AnswersFollowing (execWriteProfile m n f s) := by
  refine .next (takeRequest_follows h fun hu => ?_)
  split
  · exact hu
  · split
    · exact hu
    · exact takeWrite_follows hu

theorem execWriteCell_follows {f : RawCell} (h : s.attentionFollows) : AnswersFollowing (execWriteCell m f s) := by
  refine .next (takeRequest_follows h fun hu => ?_)
  split
  · exact hu
  · exact ite_answer_follows hu (takeWrite_follows hu)

theorem execLockPreset_follows {n a : Nat} (h : s.attentionFollows) : AnswersFollowing (execLockPreset m n a s) := by
  refine .next (takeRequest_follows h fun hu => ?_)
  split
  · exact hu
  · exact takeLock_follows hu

theorem execLoadSequence_follows {l : List Byte} (h : s.attentionFollows) : AnswersFollowing (execLoadSequence m l s) := by
  refine .next (ofRecord_follows h (takeRequest_follows h fun hu => ?_))
  split
  · exact takeLoad_follows hu
  · exact hu

theorem execSetTriggerLine_follows {n : Nat} {r : RawLine} (h : s.attentionFollows) :
    AnswersFollowing (execSetTriggerLine m n r s) := by
  refine .next (takeRequest_follows h fun hu => ?_)
  split
  · exact hu
  · exact ite_answer_follows hu (updLine_follows hu)

/-- R196: every command keeps the lines following. -/
theorem exec_follows (i : Instr) (h : s.attentionFollows) : AnswersFollowing (exec i s) := by
  cases i with
  | por | warmReset => exact .next afterReset_follows
  | checkFailedPacket => exact execCheckFailedPacket_follows h
  | malformedPacket => exact .next (ite_follows h (countStray_follows (countClean_follows (hear_follows h))))
  | idle => exact .next (ite_follows h (countClean_follows (hear_follows h)))
  | hello => exact .next (ite_follows h (takeHello_follows (countClean_follows (hear_follows h))))
  | lensReport => exact .next (ite_follows h (ite_follows (countStray_follows (countClean_follows (hear_follows h)))
      (routed_follows h takeReport_follows)))
  | frameOpen => exact .next (ite_follows h (routed_follows h openFrame_follows))
  | line => exact .next (ite_follows h (routed_follows h takeLine_follows))
  | frameClose => exact .next (ite_follows h (routed_follows h closeFrame_follows))
  | inactivityTimeout => exact execInactivityTimeout_follows h
  | dramWriteGrant => exact execDramWriteGrant_follows h
  | fetchReadGrant => exact execFetchReadGrant_follows h
  | downChannelSend => exact .next (when_follows h sendDown_follows)
  | helloTimeout | lockLoss => exact .next (when_follows h enterLost_follows)
  | attemptDeadline => exact .next (when_follows h failAttempt_follows)
  | errorWindowEnd => exact execErrorWindowEnd_follows h
  | currentSample => exact .next (takeSample_follows h)
  | overload | undercurrent => exact .next (when_follows h takeSample_follows)
  | inrushEnd => exact .next (when_follows h finishInrush_follows)
  | staggerGapEnd => exact .next (when_follows h testHead_follows)
  | queueHeadStart => exact .next (testHead_follows h)
  | supplyStateLow => exact .next (when_follows h supplyLow_follows)
  | supplyStateNormal => exact .next (when_follows h supplyNormal_follows)
  | dischargeEnd => exact execDischargeEnd_follows h
  | acquisitionRepetition => exact .next (when_follows h updEngine_follows)
  | acquisitionEnd => exact execAcquisitionEnd_follows h
  | lensDeadline => exact execLensDeadline_follows h
  | storeWriteComplete => exact execStoreWriteComplete_follows h
  | settleTimeout | awaitTimeout => exact .next (when_follows h endRun_follows)
  | closeTimeout => exact .next (ite_follows (endRun_follows h) (when_follows h frameTimedOut_follows))
  | triggerHandover => exact execTriggerHandover_follows h
  | dwellEnd => exact .next (when_follows h completeStep_follows)
  | cadenceDeadline => exact .next (when_follows h cadenceEvent_follows)
  | triggerLineSample => exact .next (takeLevel_follows h)
  | acceptedTransition => exact .next (when_follows h takeLevel_follows)
  | fabricRecordArrival | spiSelectRise | outboundSendStart | outboundSendComplete =>
    exact .next (when_follows h updMaster_follows)
  | spiSelectFall | fabricLockReturn => exact .next (unless_follows h updMaster_follows)
  | fabricLockLost => exact .next (ite_follows (teardown_follows (updMaster_follows h)) h)
  | unknownRequestKind => exact execUnknownRequestKind_follows h
  | readPower | readBreakLog | readLens | readProfile | readSequence =>
    exact .next (takeRequest_follows h fun hu => onPort_follows hu hu)
  | listFrames | readStore | readPreset | readCell | readStoreStatus | readTriggers | readPart =>
    exact .next (takeRequest_follows h fun hu => hu)
  | readCamera => exact .next (takeRequest_follows h fun hu => onPort_follows hu (updLink_follows hu))
  | setRateLimit => exact execSetRateLimit_follows h
  | retrain =>
    exact .next (takeRequest_follows h fun hu => onPort_follows hu (ite_answer_follows (enterRetraining_follows hu) hu))
  | portPowerOn => exact execPortPowerOn_follows h
  | portPowerOff => exact execPortPowerOff_follows h
  | clearPortFault => exact .next (takeRequest_follows h fun hu => onPort_follows hu (clearFault_follows hu))
  | sweep => exact execSweep_follows h
  | subscribe | unsubscribe =>
    exact .next (takeRequest_follows h fun hu => onPort_follows hu (setSubscription_follows hu))
  | setFramePolicy =>
    exact .next (takeRequest_follows h fun hu => onReader_follows hu (ite_answer_follows hu (updStore_follows hu)))
  | fetch => exact .next (takeRequest_follows h fun hu => onReader_follows hu (takeFetch_follows hu))
  | release =>
    exact .next (takeRequest_follows h fun hu => onReader_follows hu
      (ite_answer_follows hu (updStore_follows (cancelFetches_follows hu))))
  | takeLens =>
    exact .next (takeRequest_follows h fun hu => onPort_follows hu (ite_answer_follows hu (updLens_follows hu)))
  | giveLens =>
    exact .next (takeRequest_follows h fun hu => onPort_follows hu
      (ite_answer_follows hu (ite_answer_follows hu (updLens_follows hu))))
  | breakHold => exact .next (takeRequest_follows h fun hu => onPort_follows hu (breakHold_follows hu))
  | moveLens =>
    exact .next (takeRequest_follows h fun hu => onPort_follows hu
      (ite_answer_follows hu (ite_answer_follows hu (ite_answer_follows hu (makeMove_follows hu)))))
  | stopLens =>
    exact .next (takeRequest_follows h fun hu => onPort_follows hu
      (ite_answer_follows hu (ite_answer_follows hu (stopLens_follows hu))))
  | recallPreset => exact execRecallPreset_follows h
  | writePreset => exact execWritePreset_follows h
  | erasePreset => exact execErasePreset_follows h
  | writeProfile => exact execWriteProfile_follows h
  | writeCell => exact execWriteCell_follows h
  | lockPreset => exact execLockPreset_follows h
  | lockDown =>
    exact .next (takeRequest_follows h fun hu => ite_answer_follows hu (ite_answer_follows hu (updPresets_follows hu)))
  | clearStoreError => exact .next (takeRequest_follows h fun hu => updPresets_follows hu)
  | loadSequence => exact execLoadSequence_follows h
  | startSequence =>
    exact .next (takeRequest_follows h fun hu => onPort_follows hu
      (ite_answer_follows hu (ite_answer_follows hu (startRun_follows hu))))
  | resumeSequence =>
    exact .next (takeRequest_follows h fun hu => onPort_follows hu
      (ite_answer_follows hu (ite_answer_follows hu (resume_follows hu))))
  | haltSequence =>
    exact .next (takeRequest_follows h fun hu => onPort_follows hu
      (ite_answer_follows hu (ite_answer_follows hu (endRun_follows hu))))
  | fire =>
    exact .next (takeRequest_follows h fun hu => onPort_follows hu
      (ite_answer_follows hu (ite_answer_follows hu (ite_answer_follows hu (ite_answer_follows hu
        (fireUnsequenced_follows hu))))))
  | setTriggerLine => exact execSetTriggerLine_follows h
  | setNoticeMask => exact .next (takeRequest_follows h fun hu => updMaster_follows hu)
  | detach => exact .next (takeRequest_follows h fun hu => teardown_follows hu)

theorem step_follows (h : s.attentionFollows) : AnswersFollowing (step s) := by
  unfold step
  split
  · exact exec_follows _ h
  · exact .next (tick_follows h)

/-! ## The statement -/

/-- Settles O6: every step answers a state whose lines follow, and a line that follows is asserted on its three conditions. -/
theorem attentionLinesFollowTheQueues : Obligations.AttentionLinesFollowTheQueues := by
  intro s t h ht
  obtain ⟨u, hu, hfollows⟩ := step_follows h
  obtain rfl : u = t := Host.Outcome.next.inj (hu.symm.trans ht)
  refine ⟨hfollows, fun m => ?_⟩
  rw [hfollows m]
  exact attentionDue_iff _

end Sys2Proof.Machine
end

section
/-! PROOFS. What every command keeps. All commands but the two resets are built from a few elementary updates: of a port's record
within the bounds of its queue and log, of a master's record within the bounds of its queues, of the frame store by a sound step,
and of the other parts of the state. A property that these updates keep (`Closed`) is kept by every shared operation and so by
every command (`Closed.exec`); the queue of commands and the timebase (O3), the DRAM's form (O7), the pages (O8) and the bounds of
the queues (O9) are properties of this kind. -/

namespace Sys2Proof.Machine

variable {s t : State} {p : Port} {m : Master}

/-! ## Vectors -/

theorem vector_get_ofFn {α : Type} {n : Nat} (f : Fin n → α) (i : Fin n) : (Vector.ofFn f).get i = f i :=
  Vector.getElem_ofFn i.isLt

theorem vector_get_replicate {α : Type} {n : Nat} (a : α) (i : Fin n) : (Vector.replicate n a).get i = a :=
  Vector.getElem_replicate i.isLt

/-! ## Elementary updates -/

/-- R3, R65: a port's queue of packets and its break log are within their bounds. -/
def PortRec.bounded (r : PortRec) : Prop := r.waiting.length ≤ 16 ∧ r.breakLog.length ≤ 4

/-- R187: a master's queues of requests and notices are within their bounds. -/
def MasterRec.bounded (r : MasterRec) : Prop := r.requests.length ≤ 8 ∧ r.notices.length ≤ 32

/-- A sound step of the frame store: it keeps the DRAM's form, loses and doubles no page, and queues no fifth fetch. -/
structure StoreStep (st u : Store) : Prop where
  dram : st.dram.wf = true → u.dram.wf = true
  pages : u.allPages.Perm st.allPages
  fetches : (∀ a, (st.readers.get a).fetches.length ≤ 4) → ∀ a, (u.readers.get a).fetches.length ≤ 4

/-- A property that the updates of the frame store, of the masters, and of the intakes and counters of the ports keep. -/
structure StoreClosed (P : State → Prop) : Prop where
  updIntake : ∀ {s p f}, P s → P (s.updIntake p f)
  updCounters : ∀ {s p f}, P s → P (s.updCounters p f)
  updMaster : ∀ {s m f}, P s → ((s.master m).bounded → (f (s.master m)).bounded) → P (s.updMaster m f)
  updStore : ∀ {s f}, P s → StoreStep s.store (f s.store) → P (s.updStore f)

/-- A property that these and the updates of the sequencers, the lenses and the waiting packets keep: all that the traffic of a
port that stays UP consists of. -/
structure TrafficClosed (P : State → Prop) : Prop extends StoreClosed P where
  updSeq : ∀ {s p f}, P s → P (s.updSeq p f)
  updLens : ∀ {s p f}, P s → P (s.updLens p f)
  updWaiting : ∀ {s p} {g : List DownPacket → List DownPacket}, P s →
    ((s.port p).waiting.length ≤ 16 → (g (s.port p).waiting).length ≤ 16) →
    P (s.updPort p (fun r => { r with waiting := g r.waiting }))

/-- A property that all elementary updates keep. -/
structure Closed (P : State → Prop) : Prop extends TrafficClosed P where
  updPort : ∀ {s p f}, P s → ((s.port p).bounded → (f (s.port p)).bounded) → P (s.updPort p f)
  updMgr : ∀ {s f}, P s → P (s.updMgr f)
  updEngine : ∀ {s f}, P s → P (s.updEngine f)
  updPresets : ∀ {s f}, P s → P (s.updPresets f)
  lines : ∀ {s : State} {v}, P s → P { s with lines := v }
  updIntake := fun h => updPort h id
  updCounters := fun h => updPort h id
  updSeq := fun h => updPort h id
  updLens := fun h => updPort h id
  updWaiting := fun h hg => updPort h fun hb => ⟨hg hb.1, hb.2⟩

/-! ## Sound steps of the frame store -/

namespace StoreStep

variable {st u v : Store} {id : Nat} {a : Analysis}

theorem refl (st : Store) : StoreStep st st := ⟨id, .refl _, id⟩

theorem trans (h : StoreStep st u) (k : StoreStep u v) : StoreStep st v :=
  ⟨k.dram ∘ h.dram, k.pages.trans h.pages, k.fetches ∘ h.fetches⟩

/-- A step that leaves the DRAM and the fetches as they are. -/
theorem of_same (hd : u.dram = st.dram) (hp : u.allPages.Perm st.allPages)
    (hf : ∀ a, (u.readers.get a).fetches = (st.readers.get a).fetches) : StoreStep st u :=
  ⟨fun h => hd ▸ h, hp, fun h a => by rw [hf a]; exact h a⟩

theorem updFrame {g : FrameRec → FrameRec} (hg : ∀ r, (g r).pages = r.pages) : StoreStep st (st.updFrame id g) :=
  of_same rfl (.of_eq (allPages_updFrame st id g hg)) fun _ => rfl

theorem freeFrame : StoreStep st (st.freeFrame id) :=
  of_same rfl (allPages_freeFrame st id) fun a => by cases a <;> rfl

/-- A change of a reader's list or settings that queues no fifth fetch. -/
theorem updReader {g : ReaderRec → ReaderRec}
    (hg : (st.readers.get a).fetches.length ≤ 4 → (g (st.readers.get a)).fetches.length ≤ 4) :
    StoreStep st (st.updReader a g) := by
  refine ⟨id, .refl _, fun h b => ?_⟩
  by_cases hb : a = b
  · subst hb; simpa [Store.updReader] using hg (h a)
  · simpa [Store.updReader, hb] using h b

theorem drawPages {n : Nat} : StoreStep st (st.drawPages id n) := by
  refine of_same ?_ (allPages_drawPages st id n) ?_ <;> unfold Store.drawPages <;> split <;> intros <;> rfl

theorem drawReserved {n : Nat} : StoreStep st (st.drawReserved id n) := by
  have hd : (st.drawPages id n).dram = st.dram ∧ (st.drawPages id n).readers = st.readers := by
    unfold Store.drawPages
    split <;> exact ⟨rfl, rfl⟩
  refine of_same ?_ (allPages_drawReserved st id n) fun a => ?_ <;> unfold Store.drawReserved <;> split
  · rfl
  · exact hd.1
  · rfl
  · exact congrArg (fun x => (x.get a).fetches) hd.2

theorem releaseStep : StoreStep st (st.releaseStep id) := by
  refine of_same ?_ (.of_eq (allPages_releaseStep st id)) ?_ <;> unfold Store.releaseStep <;> split <;> intros <;> rfl

theorem unpin : StoreStep st (st.unpin id a) := updFrame fun _ => rfl

/-- A reader leaves a frame, which is freed with its last reader. -/
theorem dropReader : StoreStep st (st.dropReader id a) := by
  have h1 : StoreStep st ((st.updFrame id (fun f => { f with readers := f.readers.set a false })).updReader a
      (fun r => { r with ready := r.ready.filter (fun i => !(i == id)) })) :=
    (updFrame (g := fun f => { f with readers := f.readers.set a false }) fun _ => rfl).trans (updReader fun h => h)
  unfold Store.dropReader
  extract_lets st1
  split
  · split
    · exact h1.trans freeFrame
    · exact h1
  · exact h1

/-- R113: a fetch joins a queue of fewer than four. -/
theorem addFetch {f : Fetch} (h : (st.readers.get a).fetches.length < 4) : StoreStep st (st.addFetch a f) :=
  (updReader fun _ => by simp; omega).trans (updFrame fun _ => rfl)

theorem freeUnread : StoreStep st (st.freeUnread id) := by
  unfold Store.freeUnread
  split
  · split
    · exact freeFrame
    · exact refl st
  · exact refl st

theorem foldl_freeUnread (l : List Nat) : StoreStep st (l.foldl Store.freeUnread st) := by
  induction l generalizing st with
  | nil => exact refl st
  | cons id l ih => exact freeUnread.trans ih

/-- R121: a teardown frees frames and empties one queue of fetches. -/
theorem teardown : StoreStep st (st.teardown a) := by
  have h1 : StoreStep st { st with
      frames := st.frames.map (fun f => { f with readers := f.readers.set a false, pins := f.pins.set a 0 })
      readers := st.readers.set a ReaderRec.reset } := by
    refine ⟨id, .of_eq ?_, fun h b => ?_⟩
    · simp [Store.allPages, List.flatMap_map]
    · by_cases hb : a = b
      · subst hb; simp [ReaderRec.reset]
      · simpa [hb] using h b
  exact h1.trans (foldl_freeUnread _)

/-- R86: zero-filling. -/
theorem zeroFrameBytes {lo hi : Nat} {l : List Nat} :
    StoreStep st { st with dram := Machine.zeroFrameBytes lo hi 0 l st.dram } :=
  ⟨zeroFrameBytes_wf lo hi l 0, .refl _, id⟩

/-- R87: a line written. -/
theorem writeFrameBytes {b : Nat} {x : List Byte} {l : List Nat} :
    StoreStep st { st with dram := Machine.writeFrameBytes l b x st.dram } :=
  ⟨writeFrameBytes_wf l x b, .refl _, id⟩

/-- R81: a frame record without pages is taken. -/
theorem addFrame {f : FrameRec} {n : Nat} (hf : f.pages = []) :
    StoreStep st { st with frames := st.frames ++ [f], nextId := n } :=
  of_same rfl (.of_eq (by simp [Store.allPages, hf])) fun _ => rfl

end StoreStep

/-! ## Choices and lists -/

section
variable {P : State → Prop} {c : Prop} [Decidable c]

theorem ite_closed (ht : P t) (hs : P s) : P (if c then t else s) := by
  split
  · exact ht
  · exact hs

/-- An operation that is carried out under a condition. -/
theorem when_closed (hs : P s) (ht : P s → P t) : P (if c then t else s) := ite_closed (ht hs) hs

/-- An operation that is left out under a condition. -/
theorem unless_closed (hs : P s) (ht : P s → P t) : P (if c then s else t) := ite_closed hs (ht hs)

/-- A request that is answered in two ways. -/
theorem ite_answer_closed {x y : Answer × State} (hx : P x.2) (hy : P y.2) : P (if c then x else y).2 := by
  split
  · exact hx
  · exact hy

theorem pair_closed {a : Answer} (h : P t) : P (a, t).2 := h

theorem foldl_closed {α : Type} {f : State → α → State} {l : List α} (hf : ∀ u a, P u → P (f u a)) (h : P s) :
    P (l.foldl f s) := by
  induction l generalizing s with
  | nil => exact h
  | cons a l ih => exact ih (hf s a h)

/-- A command answers a state with the property. -/
def AnswersIn (P : State → Prop) (o : Outcome) : Prop := ∃ t : State, o = .next t ∧ P t

theorem AnswersIn.next (h : P t) : AnswersIn P (.next t) := ⟨t, rfl, h⟩

end

/-! ## Bounds -/

theorem length_takeFirst : ∀ l : List RequestEntry, (takeFirst l).length = l.length
  | [] => rfl
  | e :: l => by
    unfold takeFirst
    split
    · rfl
    · simp [length_takeFirst l]

theorem MasterRec.bounded.offer {r : MasterRec} (n : Notice) (h : r.bounded) : (r.offer n).bounded := by
  obtain ⟨-, hrequests, -⟩ := offer_fields n r
  exact ⟨hrequests ▸ h.1, offer_notices_length n r h.2⟩

theorem length_appendLog {l : List BreakRecord} {r : BreakRecord} (h : l.length ≤ 4) : (appendLog l r).length ≤ 4 := by
  unfold appendLog Config.breakLogEntries
  split <;> simp <;> omega

/-- R199: a torn-down master keeps one request at most. -/
theorem length_emptied (own : Bool) (r : MasterRec) : (r.emptied own).requests.length ≤ 1 := by
  unfold MasterRec.emptied
  cases own with
  | false => exact Nat.zero_le _
  | true => cases (r.requests.filter (fun e => !e.waiting)).getLast? <;> simp

theorem MasterRec.bounded.enqueue {r : MasterRec} {e : RequestEntry} (h : r.bounded) : (r.enqueue e).bounded := by
  unfold MasterRec.enqueue
  split
  · exact h
  · rename_i hl
    exact ⟨by simp [Config.requestEntries] at hl ⊢; omega, h.2⟩

theorem MasterRec.bounded.noteCredit {r : MasterRec} (h : r.bounded) : r.noteCredit.bounded := by
  unfold MasterRec.noteCredit
  split <;> exact h

/-- R189: a record that arrives brings one request at most, and none to a full queue. -/
theorem MasterRec.bounded.fabricRecord {l : List Byte} {a b : Bool} {r : MasterRec} (h : r.bounded) :
    (r.fabricRecord l a b).bounded := by
  unfold MasterRec.fabricRecord
  split
  · exact h
  · split
    · exact h
    · split
      · exact h
      · split
        · exact h
        · exact h.enqueue.noteCredit

theorem MasterRec.bounded.consume {r : MasterRec} {x : SpiTxn} (h : r.bounded) : (r.consume x).bounded := by
  unfold MasterRec.consume
  split
  · exact h
  · split
    · exact h
    · refine ⟨?_, h.2⟩
      have := h.1
      dsimp only
      split <;> simp <;> omega
    · exact ⟨h.1, by have := h.2; simp; omega⟩

theorem MasterRec.bounded.spiRecord {l : List Byte} {a b : Bool} {r : MasterRec} {x : SpiTxn} (h : r.bounded) :
    (r.spiRecord l a b x).bounded := by
  unfold MasterRec.spiRecord
  split
  · exact h
  · split
    · exact h
    · split
      · exact h
      · split
        · exact h
        · exact h.enqueue

/-- R190, R191: neither the record shifted in nor the head item shifted out overfills a queue. -/
theorem MasterRec.bounded.closeTxn {l : List Byte} {a b c : Bool} {r : MasterRec} (h : r.bounded) :
    (r.closeTxn l a b c).bounded := by
  unfold MasterRec.closeTxn
  split
  · exact h
  · dsimp only
    split
    · exact h.spiRecord.consume
    · exact h.spiRecord

theorem MasterRec.bounded.beginNext {r : MasterRec} (h : r.bounded) : r.beginNext.bounded := by
  unfold MasterRec.beginNext
  split
  · exact h
  · split
    · exact h
    · rename_i n rest _ hn
      refine ⟨h.1, ?_⟩
      have hl := h.2
      rw [hn, List.length_cons] at hl
      exact Nat.le_trans (Nat.le_succ _) hl
    · exact h
    · exact h

theorem MasterRec.bounded.sent {r : MasterRec} (h : r.bounded) : r.sent.bounded := by
  unfold MasterRec.sent
  split
  · exact h
  · refine MasterRec.bounded.noteCredit ?_
    split
    · exact ⟨by have := h.1; simp; omega, h.2⟩
    · exact h

/-! ## Requests -/

section
variable {P : State → Prop}

theorem onPort_closed {n : Nat} {act : Port → State → Answer × State} (h : P s)
    (hact : ∀ {q : Port}, P ((act q s).2)) : P ((onPort n act s).2) := by
  unfold onPort
  split
  · exact hact
  · exact h

theorem ofRecord_closed {l : List Byte} (h : P s) (ht : P t) :
    P (s.ofRecord m l t) := ite_closed ht h

theorem onReader_closed {act : Analysis → State → Answer × State} (h : P s)
    (hact : ∀ {b : Analysis}, P ((act b s).2)) : P ((onReader m act s).2) := by
  unfold onReader
  split
  · exact hact
  · exact h

end

/-! ## The frame store, the masters and the intakes -/

section
variable {P : State → Prop} {a : Analysis} {id : Nat} (hP : StoreClosed P)
include hP

theorem StoreClosed.updFrame {id : Nat} {f : FrameRec → FrameRec} (h : P s) (hf : ∀ r, (f r).pages = r.pages := by exact fun _ => rfl) :
    P (s.updFrame id f) := hP.updStore h (.updFrame hf)

theorem StoreClosed.notify {u : Bool} {b : NoticeBody} (h : P s) : P (s.notify m u b) :=
  hP.updMaster h (MasterRec.bounded.offer _)

theorem StoreClosed.notifyAll {u : Bool} {b : NoticeBody} (h : P s) : P (s.notifyAll u b) :=
  hP.notify (hP.notify (hP.notify h))

theorem StoreClosed.notifyOpt {o : Option Master} {u : Bool} {b : NoticeBody} (h : P s) :
    P (s.notifyOpt o u b) := by
  cases o with
  | none => exact h
  | some m => exact hP.notify h

theorem StoreClosed.reply {e : RequestEntry} {a : Answer} (h : P s) : P (s.reply m e a) :=
  hP.updMaster h id

theorem StoreClosed.taken (h : P s) : P (s.taken m) :=
  hP.updMaster h (fun hb => ⟨Nat.le_trans (Nat.le_of_eq (length_takeFirst _)) hb.1, hb.2⟩)

theorem StoreClosed.answered {e : RequestEntry} {a : Answer} (h : P s) : P (s.answered m e a) :=
  hP.reply (hP.taken h)

theorem StoreClosed.takeRequest {k : RequestKind} {fits : Bool} {act : State → Answer × State} (h : P s)
    (hact : ∀ {u : State}, P u → P ((act u).2)) :
    P (s.takeRequest m k fits act) := by
  obtain ht | ⟨e, -, ⟨-, ht⟩ | ⟨-, ht⟩ | ⟨-, -, ht⟩⟩ := takeRequest_cases s m k fits act <;> rw [ht]
  · exact h
  · exact hP.answered h
  · exact hP.answered h
  · exact hP.reply (hact (hP.taken h))

theorem StoreClosed.countStray (h : P s) : P (s.countStray p) := hP.updCounters h

theorem StoreClosed.countRefused (h : P s) : P (s.countRefused p) := hP.updCounters h

theorem StoreClosed.dropNotice {f : FrameRec} {w : DropReason} {b : Bool} (h : P s) :
    P (s.dropNotice a f w b) := hP.notify h

theorem StoreClosed.reclaimOne (ht : s.reclaimOne = some t) (h : P s) : P t := by
  unfold State.reclaimOne at ht
  split at ht
  · cases ht
  · cases ht
    exact hP.updStore (when_closed (when_closed h hP.dropNotice) hP.dropNotice) .freeFrame

theorem StoreClosed.reclaimPages {fuel n : Nat} (h : P s) : P (State.reclaimPages fuel s n) := by
  induction fuel generalizing s with
  | zero => exact h
  | succ fuel ih =>
    refine ite_closed h ?_
    split
    · exact h
    · rename_i t ht
      exact ih (hP.reclaimOne ht h)

theorem StoreClosed.holdRelease (h : P s) : P (State.holdRelease a s id) := by
  unfold State.holdRelease
  split
  · exact h
  · exact hP.updStore (hP.dropNotice h) .dropReader

theorem StoreClosed.listFrame (h : P s) : P (s.listFrame a id) := by
  unfold State.listFrame
  extract_lets s1
  have h1 : P s1 := hP.updStore h (.updReader fun hl => hl)
  split
  · exact h1
  · exact hP.notify h1

theorem StoreClosed.giveUp (h : P s) : P (s.giveUp a id) := by
  unfold State.giveUp
  split
  · exact h
  · exact hP.dropNotice (hP.updFrame h)

theorem StoreClosed.judgeReader (h : P s) : P (s.judgeReader a id) := by
  unfold State.judgeReader
  split
  · exact h
  · refine ite_closed h (ite_closed (hP.listFrame h) ?_)
    split
    · exact hP.giveUp h
    · exact ite_closed (hP.giveUp h) (hP.listFrame (foldl_closed (fun _ _ => hP.holdRelease) h))

theorem StoreClosed.handover (h : P s) : P (s.handover id) := by
  unfold State.handover
  extract_lets s0 s1 s2
  have h0 : P s0 := hP.updStore h (.of_same rfl (.refl _) fun _ => rfl)
  split
  · exact h0
  · refine ite_closed (hP.updStore h0 .freeFrame) (ite_closed (hP.updStore h0 .freeFrame) ?_)
    have h2 : P s2 := hP.judgeReader (hP.judgeReader (hP.updFrame h0))
    split
    · exact when_closed h2 fun h2 => hP.updStore h2 .freeFrame
    · exact h2

theorem StoreClosed.handFetch {f : FetchMsg} (h : P s) : P (s.handFetch a f) :=
  hP.updMaster h id

theorem StoreClosed.cancelFetches (h : P s) : P (s.cancelFetches a id) :=
  foldl_closed (fun _ _ hu => hP.handFetch (hP.updStore hu .unpin))
    (hP.updStore h (.updReader fun hl => Nat.le_trans (List.length_filter_le _ _) hl))

theorem StoreClosed.completeFetch {f : Fetch} (h : P s) : P (s.completeFetch a f) := by
  unfold State.completeFetch
  exact hP.handFetch (hP.updStore (hP.updStore h (.updReader fun hl => by simp; omega)) .unpin)

theorem StoreClosed.readLine {f : Fetch} (h : P s) : P (s.readLine a f) := by
  unfold State.readLine
  split
  · exact h
  · extract_lets bytes s1
    have h1 : P s1 := hP.updStore (hP.handFetch h) (.of_same rfl (.refl _) fun _ => rfl)
    exact ite_closed (hP.completeFetch h1) (hP.updStore h1 (.updReader fun hl => by simp; omega))

theorem StoreClosed.takeFetch {tag first count : Nat} (h : P s) :
    P ((s.takeFetch a tag id first count).2) := by
  unfold State.takeFetch
  extract_lets r
  split
  · exact h
  · split
    · exact h
    · split
      · exact h
      · extract_lets left n clamps
        split
        · exact h
        · rename_i hfull
          exact hP.updStore (f := fun st => st.addFetch a ⟨tag, id, first, n, first, 0⟩) h (.addFetch (Nat.lt_of_not_le hfull))

theorem StoreClosed.lensEvent {c : LensCause} (h : P s) : P (s.lensEvent p c) :=
  hP.notifyOpt h

theorem StoreClosed.seqEvent {u : Bool} {c : SeqCause} {i : Option Nat} (h : P s) :
    P (s.seqEvent p u c i) := hP.notifyOpt h

theorem StoreClosed.linkEvent {l : LinkState} {n : Option Nat} (h : P s) :
    P (s.linkEvent p l n) := hP.notifyAll h

theorem StoreClosed.powerEvent {u : Bool} {e : PowerEvent} (h : P s) : P (s.powerEvent u e) :=
  hP.notifyAll h

theorem StoreClosed.cutFrame (h : P s) : P (s.cutFrame p id) :=
  hP.updFrame (hP.updIntake h)

theorem StoreClosed.needPages {n : Nat} (h : P s) : P ((s.needPages p id n).1) := by
  unfold State.needPages
  split
  · exact h
  · extract_lets short
    split
    · exact h
    · split
      · exact hP.updStore (f := fun st => st.drawReserved id short) h .drawReserved
      · split
        · exact hP.updStore (f := fun st => st.drawPages id short) (hP.reclaimPages h) .drawPages
        · exact hP.cutFrame (hP.reclaimPages h)

theorem StoreClosed.zeroLines {lo hi : Nat} (h : P s) : P (s.zeroLines id lo hi) := by
  unfold State.zeroLines
  split
  · exact h
  · exact hP.updStore h .zeroFrameBytes

theorem StoreClosed.fillHoles {lo hi : Nat} (h : P s) : P (s.fillHoles id lo hi) :=
  ite_closed h (hP.updFrame (hP.zeroLines h))

theorem StoreClosed.storeLine {k : Nat} {l : List Byte} {d : Bool} (h : P s) :
    P (s.storeLine p id k l d) := by
  unfold State.storeLine
  exact hP.updIntake (hP.updFrame (hP.fillHoles h))

theorem StoreClosed.writeBuffered {b : BufferedLine} (h : P s) : P (s.writeBuffered b) := by
  unfold State.writeBuffered
  split
  · exact h
  · exact hP.updStore h .writeFrameBytes

theorem StoreClosed.flushFrame (h : P s) : P (s.flushFrame p id) :=
  hP.updIntake (foldl_closed (fun _ _ => hP.writeBuffered) h)

theorem StoreClosed.padFrame (h : P s) : P (s.padFrame p id) := by
  unfold State.padFrame
  split
  · exact h
  · exact ite_closed (hP.updFrame (hP.zeroLines (hP.needPages h))) h

/-- R91: finalization, up to the report to the sequencer. -/
theorem StoreClosed.finalize {e : EndTags} {b : Bool} (h : P s)
    (hreport : ((s.port p).boundLive && b) = false ∨ ∀ {u r}, P u → P (u.seqReport p r)) : P (s.finalize p e b) := by
  unfold State.finalize
  split
  · exact hP.updIntake h
  · extract_lets live s0 s1 delivered s2 report s3 s4 s5 s6
    have h2 : P s2 := hP.padFrame (hP.flushFrame (hP.updFrame h))
    have h6 : P s6 := hP.handover (hP.updIntake (hP.updStore (hP.updFrame h2) .releaseStep))
    obtain hreport | hreport := hreport
    · rwa [if_neg (Bool.not_eq_true _ ▸ hreport)]
    · exact when_closed h6 hreport

theorem StoreClosed.countDiscarded {k n : Nat} {d : Bool} (h : P s) :
    P (s.countDiscarded p k n d) := by
  unfold State.countDiscarded
  extract_lets i
  split
  · exact h
  · exact ite_closed (hP.countStray h) (ite_closed h (hP.updIntake h))

theorem StoreClosed.discard {c : DiscardCause} {n : Option DiscardCounts} (h : P s) :
    P (s.discard p c n) := hP.updIntake h

theorem StoreClosed.openRecord {o : Opening} {n : Nat} (h : P s) : P (s.openRecord p o n) := by
  unfold State.openRecord
  exact hP.updIntake (hP.updStore h (.addFrame rfl))

theorem StoreClosed.openUnsequenced {o : Option PendingOrigin} {a b c : Nat} (h : P s) :
    P (s.openUnsequenced p o a b c) := by
  unfold State.openUnsequenced
  extract_lets s1 readers o
  have h1 : P s1 := hP.updIntake h
  refine ite_closed (hP.discard (hP.countRefused h1)) (ite_closed (hP.discard h1)
    (ite_closed (hP.openRecord h1) ?_))
  split
  · rename_i t ht
    exact hP.openRecord (hP.reclaimOne ht h1)
  · exact hP.discard (hP.countRefused h1)

theorem StoreClosed.tagFrame {f : Tags → Tags} (h : P s) : P (s.tagFrame id f) :=
  hP.updFrame h

theorem StoreClosed.lineFilling {k : Nat} {l : List Byte} {d : Bool} (h : P s) :
    P (s.lineFilling p k l d) := by
  unfold State.lineFilling
  extract_lets i
  split
  · exact h
  · exact ite_closed h (ite_closed (hP.countStray h) (ite_closed (hP.tagFrame h)
      (ite_closed (hP.tagFrame h) (when_closed (hP.needPages h) hP.storeLine))))

theorem StoreClosed.takeLine {k : Nat} {l : List Byte} {d : Bool} (h : P s) :
    P (s.takeLine p k l d) := by
  unfold State.takeLine
  split
  · exact hP.countStray h
  · exact hP.countDiscarded (hP.updIntake h)
  · exact hP.lineFilling (hP.updIntake h)

theorem StoreClosed.closeFilling {c : Nat} (h : P s) : P (s.closeFilling p c) := by
  unfold State.closeFilling
  extract_lets i cap next upTo
  split
  · exact h
  · extract_lets s1
    have h1 : P s1 := when_closed h hP.tagFrame
    exact ite_closed (when_closed (hP.needPages h1)
      (fun hn => hP.updIntake (hP.updFrame (hP.fillHoles hn)))) h1

/-- R95: the departure of the link reports nothing to the sequencer. -/
theorem StoreClosed.intakeLinkLeft (h : P s) : P (s.intakeLinkLeft p) := by
  unfold State.intakeLinkLeft
  refine hP.updIntake ?_
  split
  · exact h
  · exact hP.finalize h (.inl (Bool.and_false _))
  · unfold State.endDiscard State.reportDiscard
    simp only [ne_eq, not_true_eq_false, decide_false, Bool.and_false, Bool.not_false, if_true]
    exact hP.updIntake h

theorem StoreClosed.writeOldest (h : P s) : P (s.writeOldest p) := by
  unfold State.writeOldest
  split
  · exact h
  · exact hP.updStore (hP.updIntake (hP.writeBuffered h)) (.of_same rfl (.refl _) fun _ => rfl)

end

/-! ## The traffic of a port -/

section
variable {P : State → Prop} (hP : TrafficClosed P)
include hP

theorem TrafficClosed.handDown {k : DownPacket} (h : P s) : P (s.handDown p k) :=
  by
  obtain ⟨hk, -⟩ | ⟨hk, -, hl⟩ := handDown_cases s p k <;> rw [hk]
  · exact h
  · exact hP.updWaiting (g := fun l => l ++ [k]) h fun _ => by simp; omega

theorem TrafficClosed.dropDown (h : P s) : P (s.dropDown p) :=
  hP.updWaiting (g := fun l => l.filter (fun k => !k.needsUp)) h fun hl => Nat.le_trans (List.length_filter_le _ _) hl

theorem TrafficClosed.makeMove {g : PerAxis (Option Nat)} {a : Nat} {o : Option Master} (h : P s) :
    P (s.makeMove p g a o) :=
  ite_closed h (hP.updLens (hP.handDown h))

theorem TrafficClosed.endRun {e : EndStatus} {x : EndExtras} (h : P s) : P (s.endRun p e x) :=
  hP.seqEvent (unless_closed (when_closed (hP.updStore (hP.updSeq h) (.of_same rfl (.refl _) fun _ => rfl)) hP.updLens) hP.updSeq)

theorem TrafficClosed.lensStep {k a : Option Nat} {g : PerAxis (Option Nat)} (h : P s) :
    P ((s.lensStep p k g a).1) := by
  unfold State.lensStep
  extract_lets starter
  split
  · exact hP.makeMove h
  · split
    · exact hP.endRun h
    · split
      · exact hP.updSeq h
      · split
        · exact hP.endRun h
        · split
          · exact hP.makeMove h
          · exact hP.endRun h

theorem TrafficClosed.settleStep {n : Nat} (h : P s) : P ((s.settleStep p n).1) := by
  unfold State.settleStep
  extract_lets l
  split
  · exact hP.endRun h
  · split
    · exact hP.updSeq h
    · exact h

theorem TrafficClosed.handTrigger {x : Option Nat} {c : Nat} (h : P s) : P (s.handTrigger p x c) :=
  hP.updSeq (hP.handDown h)

theorem TrafficClosed.startStep {st : Step} (h : P s) : P ((s.startStep p st).1) := by
  unfold State.startStep
  extract_lets s1 s2
  have h2 : P s2 := when_closed (hP.updSeq h) hP.seqEvent
  split
  · exact hP.lensStep h2
  · exact hP.settleStep h2
  · exact hP.updSeq h2
  · split
    · exact hP.updSeq h2
    · exact hP.handTrigger h2
  · exact hP.updSeq h2

theorem TrafficClosed.enterStep {fuel : Nat} (h : P s) : P (State.enterStep fuel s p) := by
  induction fuel generalizing s with
  | zero => exact h
  | succ fuel ih =>
    unfold State.enterStep
    split
    · exact h
    · rename_i st _
      have started := hP.startStep (p := p) (st := st) h
      exact ite_closed (hP.seqEvent (hP.updSeq h)) (ite_closed started
        (ite_closed (ih (hP.updSeq (hP.updSeq started))) (hP.endRun (hP.updSeq started))))

theorem TrafficClosed.completeStep (h : P s) : P (s.completeStep p) := by
  unfold State.completeStep
  split
  · exact h
  · exact ite_closed (hP.enterStep (hP.updSeq (hP.updSeq h))) (hP.endRun (hP.updSeq h))

theorem TrafficClosed.afterStart {r : State × Bool} (h : P (r.1)) : P (State.afterStart r p) :=
  when_closed h hP.completeStep

theorem TrafficClosed.startRun {c : Option Nat} (h : P s) : P (s.startRun p m c) := by
  unfold State.startRun
  extract_lets ctx free s1 s2 s3 s4
  have h3 : P s3 := hP.updSeq (when_closed (hP.updStore h (.of_same rfl (.refl _) fun _ => rfl)) hP.updLens)
  refine hP.enterStep ?_
  cases c with
  | none => exact h3
  | some period => exact hP.updSeq h3

theorem TrafficClosed.seqCameraLost (h : P s) : P (s.seqCameraLost p) :=
  when_closed h hP.endRun

theorem TrafficClosed.seqHoldLapsed (h : P s) : P (s.seqHoldLapsed p) :=
  when_closed h hP.endRun

theorem TrafficClosed.seqAxisIdle (h : P s) : P (s.seqAxisIdle p) :=
  when_closed h hP.completeStep

theorem TrafficClosed.seqAxisStalled {a : Axis} (h : P s) : P (s.seqAxisStalled p a) :=
  when_closed h hP.endRun

theorem TrafficClosed.seqReport {r : FrameReport} (h : P s) : P (s.seqReport p r) := by
  cases r with
  | stored => exact ite_closed (hP.completeStep h) (hP.endRun h)
  | discarded => exact hP.completeStep h
  | widthMismatch => exact hP.endRun h

theorem TrafficClosed.seqStoreDone {n : Fin 64} (h : P s) : P (s.seqStoreDone p n) := by
  unfold State.seqStoreDone
  refine ite_closed h ?_
  split
  · split
    · exact ite_closed (hP.afterStart (hP.lensStep h)) h
    · exact h
  · exact h

theorem TrafficClosed.seqTeardown (h : P s) : P (s.seqTeardown p m) :=
  when_closed h hP.updSeq

theorem TrafficClosed.takeReport {l : List ReportEntry} (h : P s) : P (s.takeReport p l) :=
  when_closed (when_closed (hP.updLens h) hP.seqAxisIdle) hP.lensEvent

theorem TrafficClosed.breakHold (h : P s) : P (s.breakHold p) := by
  unfold State.breakHold
  split
  · exact h
  · exact hP.notify (hP.seqHoldLapsed (hP.updLens h))

theorem TrafficClosed.stopLens (h : P s) : P (s.stopLens p) :=
  when_closed (hP.updLens (unless_closed h hP.handDown)) hP.seqAxisIdle

theorem TrafficClosed.cadenceRestart (h : P s) : P (s.cadenceRestart p) := by
  unfold State.cadenceRestart
  split
  · exact h
  · exact ite_closed (hP.startRun h) (hP.seqEvent (hP.updSeq h))

theorem TrafficClosed.cadenceOverrun (h : P s) : P (s.cadenceOverrun p) :=
  hP.seqEvent (hP.updSeq h)

theorem TrafficClosed.cadenceEvent (h : P s) : P (s.cadenceEvent p) :=
  ite_closed (hP.cadenceOverrun (hP.updSeq h)) (when_closed (hP.updSeq h) hP.cadenceRestart)

theorem TrafficClosed.resume (h : P s) : P (s.resume p) := by
  unfold State.resume
  split
  · exact hP.afterStart (hP.startStep h)
  · exact h

theorem TrafficClosed.finalize {e : EndTags} {b : Bool} (h : P s) : P (s.finalize p e b) :=
  hP.toStoreClosed.finalize h (.inr hP.seqReport)

theorem TrafficClosed.reportDiscard {e : DiscardEnd} (h : P s) : P (s.reportDiscard p e) := by
  unfold State.reportDiscard
  refine ite_closed h ?_
  split
  · exact hP.seqReport (hP.notifyOpt h)
  · exact hP.seqReport (hP.notifyOpt h)
  · exact hP.seqReport h
  · exact h

theorem TrafficClosed.endDiscard {e : DiscardEnd} (h : P s) : P (s.endDiscard p e) :=
  hP.updIntake (hP.reportDiscard h)

theorem TrafficClosed.openSequenced {st : Step} {a b c d e : Nat} (h : P s) :
    P (s.openSequenced p st a b c d e) := by
  unfold State.openSequenced
  extract_lets ctx i s1
  have h1 : P s1 := hP.updSeq (hP.updIntake h)
  exact ite_closed (hP.discard h1) (ite_closed (hP.discard h1) (ite_closed (hP.discard h1)
    (hP.openRecord (hP.updStore (hP.updSeq h1) (.of_same rfl (.refl _) fun _ => rfl)))))

theorem TrafficClosed.endPrevious (h : P s) : P (s.endPrevious p) := by
  unfold State.endPrevious
  split
  · exact h
  · exact hP.finalize h
  · exact hP.endDiscard h

theorem TrafficClosed.openFrame {a b c : Nat} (h : P s) : P (s.openFrame p a b c) := by
  unfold State.openFrame
  extract_lets s1 pending s2
  have h2 : P s2 := hP.updIntake (hP.endPrevious h)
  split
  · split
    · exact hP.openSequenced h2
    · exact hP.openUnsequenced h2
  · exact hP.openUnsequenced h2

theorem TrafficClosed.closeFrame {c : Nat} (h : P s) : P (s.closeFrame p c) := by
  unfold State.closeFrame
  split
  · exact hP.countStray h
  · exact hP.endDiscard h
  · exact hP.finalize (hP.closeFilling h)

theorem TrafficClosed.frameTimedOut (h : P s) : P (s.frameTimedOut p) := by
  unfold State.frameTimedOut
  split
  · exact ite_closed (hP.endRun (hP.finalize h)) (hP.endRun h)
  · exact hP.endRun h

theorem TrafficClosed.fireUnsequenced {x : Option Nat} {o : PendingOrigin} (h : P s) :
    P (s.fireUnsequenced p x o) := hP.updIntake (hP.handDown h)

theorem TrafficClosed.deliverEdge {l : LineNo} {v : Time} (h : P s) :
    P (State.deliverEdge l v s p) :=
  ite_closed (hP.completeStep (hP.updSeq h)) (ite_closed (hP.updCounters h)
    (ite_closed (hP.updCounters h) (hP.fireUnsequenced h)))

theorem TrafficClosed.lensTeardown (h : P s) : P (State.lensTeardown m s p) :=
  hP.updLens (ite_closed (hP.seqHoldLapsed (hP.updLens h)) h)

theorem TrafficClosed.takeLoad {n : Nat} {l : List Step} (h : P s) : P ((s.takeLoad m n l).2) := by
  unfold State.takeLoad
  split
  · exact h
  · split
    · exact h
    · split
      · exact h
      · exact hP.updSeq h

end

/-! ## The other operations, and the commands -/

section
variable {P : State → Prop} (hP : Closed P)
include hP

theorem Closed.updLink {f : LinkRec → LinkRec} (h : P s) : P (s.updLink p f) := hP.updPort h id

theorem Closed.updPower {f : PowerRec → PowerRec} (h : P s) : P (s.updPower p f) := hP.updPort h id

theorem Closed.updMarks {f : Marks → Marks} (h : P s) : P (s.updMarks p f) := hP.updPort h id

theorem Closed.updLine {l : LineNo} {f : LineRec → LineRec} (h : P s) : P (s.updLine l f) := hP.lines h

theorem Closed.storeTeardown (h : P s) : P (s.storeTeardown a) :=
  foldl_closed (fun _ _ hu => hP.updPort hu id) (hP.updStore h .teardown)

theorem Closed.setSubscription {v : Bool} (h : P s) : P (s.setSubscription m p v) := by
  unfold State.setSubscription
  split
  · exact hP.updPort h id
  · exact h

theorem Closed.announceLeft (h : P s) : P (s.announceLeft p) := by
  unfold State.announceLeft State.lensLinkLeft
  exact hP.updLens (hP.intakeLinkLeft (hP.seqCameraLost (hP.dropDown (hP.updLink h))))

theorem Closed.leftFrom {l : LinkState} {n : Option Nat} (h : P s) :
    P (s.leftFrom p l n) :=
  ite_closed (hP.linkEvent (hP.announceLeft h)) h

theorem Closed.countClean (h : P s) : P (s.countClean p) := by
  unfold State.countClean
  refine ite_closed h ?_
  split
  · exact h
  · split
    · exact hP.updLink h
    · exact ite_closed (hP.linkEvent (hP.updLink h)) h

theorem Closed.enterRetraining {r : Rate} {n : Option Nat} (h : P s) :
    P (s.enterRetraining p r n) :=
  hP.updLink (hP.handDown (hP.leftFrom (hP.updLink h)))

theorem Closed.linkPowerLeft (h : P s) : P (s.linkPowerLeft p) :=
  ite_closed (hP.updLink h) (hP.leftFrom (hP.updLink h))

theorem Closed.startTraining {i : Identity} (h : P s) : P (s.startTraining p i) :=
  hP.leftFrom (hP.updLink (hP.handDown h))

theorem Closed.classDown (h : P s) : P (s.classDown p) :=
  ite_closed (hP.leftFrom (hP.updLink h)) (hP.linkEvent (hP.updLink h))

theorem Closed.hear (h : P s) : P (s.hear p) := hP.updLink h

theorem Closed.routed {act : State → State} (h : P s)
    (hact : ∀ {u : State}, P u → P (act u)) : P (s.routed p act) :=
  ite_closed (hact (hP.hear h)) (hP.countStray (hP.countClean (hP.hear h)))

theorem Closed.sendDown (h : P s) : P (s.sendDown p) := by
  unfold State.sendDown
  split
  · exact hP.updPort h id
  · rename_i k rest hw
    have hrest : (s.port p).bounded → rest.length ≤ 16 := fun hb => by
      have := hb.1
      rw [hw, List.length_cons] at this
      omega
    exact ite_closed (hP.updPort h fun hb => ⟨hrest hb, hb.2⟩) (hP.updPort h fun hb => ⟨hrest hb, hb.2⟩)

theorem Closed.nextWindow {w : Window} {b : Bool} (h : P s) : P (s.nextWindow p w b) :=
  unless_closed (hP.updLink h) hP.linkEvent

theorem Closed.judgeWindow {w : Window} (h : P s) : P (s.judgeWindow p w) := by
  unfold State.judgeWindow
  refine ite_closed ?_ (hP.nextWindow h)
  split
  · exact hP.enterRetraining h
  · exact hP.nextWindow h

theorem Closed.enterAcquiring {e : SweepEntry} (h : P s) : P (s.enterAcquiring e) := by
  unfold State.enterAcquiring
  exact hP.updEngine (hP.updLink (hP.updMarks h))

theorem Closed.takeEntry (h : P s) : P (s.takeEntry) := by
  unfold State.takeEntry
  split
  · exact when_closed (hP.updEngine h) hP.enterAcquiring
  · exact h

theorem Closed.sweepAppend {c : SweepCause} {o : Option Master} {v : Option Nat} (h : P s) :
    P (s.sweepAppend p c o v) :=
  ite_closed h (hP.takeEntry (hP.updEngine (hP.updMarks h)))

theorem Closed.startPort (h : P s) : P (s.startPort p) := by
  unfold State.startPort
  exact hP.updLink (hP.updPower (hP.updMgr h))

theorem Closed.testHead (h : P s) : P (s.testHead) := by
  obtain ht | ⟨q, -, -, -, -, ht⟩ := testHead_cases s <;> rw [ht]
  · exact h
  · exact hP.startPort h

theorem Closed.commitPort (h : P s) : P (s.commitPort p) := by
  unfold State.commitPort
  exact hP.updMgr (hP.updPower h)

theorem Closed.admitPort (h : P s) : P (s.admitPort p) :=
  when_closed h hP.commitPort

theorem Closed.autoAdmit {o : AdmitOrigin} (h : P s) : P (State.autoAdmit o s p) :=
  ite_closed (hP.admitPort h) (hP.powerEvent h)

theorem Closed.testJoined {l : List Port} (h : P s) : P (s.testJoined l) :=
  when_closed h hP.testHead

theorem Closed.releaseAllotment (h : P s) : P (s.releaseAllotment p) := by
  unfold State.releaseAllotment
  exact hP.updPower (hP.updMgr h)

theorem Closed.leaveEnergized {w : PowerState} (h : P s) : P (s.leaveEnergized p w) :=
  hP.linkPowerLeft (when_closed (hP.updPower h) hP.updMgr)

theorem Closed.enterOff {c : OffCause} (h : P s) : P (s.enterOff p c) :=
  hP.updMgr (hP.updPower (hP.releaseAllotment h))

theorem Closed.switchOff {c : OffCause} (h : P s) : P (s.switchOff p c) :=
  ite_closed h (hP.powerEvent (when_closed (hP.enterOff h) hP.leaveEnergized))

theorem Closed.switchOffBy {c : OffCause} (h : P s) : P (s.switchOffBy p c) :=
  ite_closed (hP.testHead (hP.switchOff h)) h

theorem Closed.trip {c : TripCause} {v : Nat} (h : P s) : P (s.trip p c v) :=
  hP.powerEvent (when_closed
    (hP.testHead (hP.leaveEnergized (hP.updPower (hP.releaseAllotment h)))) hP.sweepAppend)

theorem Closed.undercurrentRule (h : P s) : P (s.undercurrentRule p) :=
  ite_closed
    (hP.powerEvent (hP.sweepAppend (hP.testHead (hP.leaveEnergized (hP.enterOff
      (hP.updPower h))))))
    (hP.powerEvent (hP.updPower h))

theorem Closed.judgeOn {v : Nat} (h : P s) : P (s.judgeOn p v) :=
  ite_closed (hP.trip h) (ite_closed (hP.trip h) (when_closed (hP.updPower h) hP.undercurrentRule))

theorem Closed.judgeInrush {v : Nat} (h : P s) : P (s.judgeInrush p v) :=
  ite_closed (hP.trip (hP.updPower h)) (when_closed (hP.updPower h) hP.trip)

theorem Closed.takeSample {v : Nat} (h : P s) : P (s.takeSample p v) := by
  unfold State.takeSample
  extract_lets w s1
  have h1 : P s1 := hP.updPower h
  split
  · exact hP.judgeInrush h1
  · exact hP.judgeOn h1
  · exact h1

theorem Closed.finishInrush (h : P s) : P (s.finishInrush p) :=
  hP.testHead (hP.powerEvent (hP.updLink (hP.updMgr (hP.updPower h))))

theorem Closed.supplyLow (h : P s) : P (s.supplyLow) :=
  hP.powerEvent (foldl_closed (fun _ _ hu => when_closed hu hP.leaveEnergized)
    (hP.updMgr (foldl_closed (fun _ _ => hP.updPower) h)))

theorem Closed.supplyNormal (h : P s) : P (s.supplyNormal) :=
  hP.testJoined (when_closed
    (hP.updMgr (foldl_closed (fun _ _ => hP.autoAdmit) (hP.powerEvent (hP.updMgr h))))
    (fun h3 => hP.updMgr (foldl_closed (fun _ _ => hP.autoAdmit) h3)))

theorem Closed.enterLost {c : LinkCause} (h : P s) : P (s.enterLost p c) :=
  when_closed (hP.linkEvent (when_closed (hP.updLink h) hP.announceLeft))
    (fun h3 => hP.sweepAppend (hP.switchOffBy h3))

theorem Closed.failAttempt (h : P s) : P (s.failAttempt p) := by
  unfold State.failAttempt
  refine ite_closed h ?_
  split
  · exact hP.updLink (hP.handDown h)
  · exact hP.enterLost h

theorem Closed.takeHello {b : HelloBody} (h : P s) : P (s.takeHello p b) := by
  unfold State.takeHello
  extract_lets i s1
  have h1 : P s1 := hP.updLens (hP.updLink h)
  exact ite_closed (hP.countStray h)
    (ite_closed (hP.switchOffBy (hP.classDown h1)) (hP.startTraining h1))

theorem Closed.admitList {l : List Port} (h : P s) : P ((s.admitList l).2) := by
  induction l generalizing s with
  | nil => exact h
  | cons p l ih => exact ih (hP.admitPort h)

theorem Closed.offEntry (h : P s) : P (s.offEntry p) :=
  when_closed (hP.switchOff h) hP.updMgr

theorem Closed.clearFault (h : P s) : P (s.clearFault p) := by
  unfold State.clearFault
  exact hP.updMarks (ite_closed (hP.powerEvent (hP.updPower h)) h)

theorem Closed.endSweep {e : SweepEntry} {q : SweepParams} (h : P s) :
    P (s.endSweep e q) := by
  unfold State.endSweep
  exact hP.takeEntry (hP.updEngine (when_closed
    (hP.notifyAll (hP.updMarks (hP.updLink (hP.updPort h fun hb => ⟨hb.1, length_appendLog hb.2⟩))))
    (fun h3 => hP.testJoined (hP.autoAdmit h3))))

theorem Closed.takeWrite {k : WriteKind} {r : RecordName} {c : NewContent} {l : List (Nat × Nat)}
    (h : P s) : P ((s.takeWrite m k r c l).2) := by
  unfold State.takeWrite
  split
  · exact h
  · exact hP.updPresets (f := fun st => st.startWrite ⟨r, k, m, c, s.now⟩) h

theorem Closed.takeWritePreset {f : PresetFields} (h : P s) :
    P ((s.takeWritePreset m f).2) := by
  unfold State.takeWritePreset
  split
  · split
    · exact h
    · exact hP.takeWrite h
  · exact h

theorem Closed.takeLock {n : Fin 64} {b : Bool} (h : P s) : P ((s.takeLock m n b).2) := by
  unfold State.takeLock
  split
  · exact h
  · exact h
  · split
    · exact h
    · exact hP.takeWrite h

theorem Closed.loadWritten {c : NewContent} {r : RecordName} (h : P s) :
    P (s.loadWritten c r) := by
  unfold State.loadWritten
  split
  · exact hP.updPort h id
  · exact hP.lines (hP.updMgr h)
  · exact h

theorem Closed.completeWrite {w : Write} {b : Bool} (h : P s) : P (s.completeWrite w b) := by
  unfold State.completeWrite
  extract_lets s1 s2 s3 s4
  have h4 : P s4 :=
    unless_closed (hP.notify (when_closed (hP.updPresets h) hP.loadWritten)) hP.testHead
  split
  · exact foldl_closed (fun _ _ => hP.seqStoreDone) h4
  · exact h4

theorem Closed.takeEdge {l : LineNo} {v : Time} (h : P s) : P (s.takeEdge l v) :=
  ite_closed (hP.updLine h) (foldl_closed (fun _ _ => hP.deliverEdge) (hP.updLine h))

theorem Closed.takeLevel {l : LineNo} {v : Level} (h : P s) : P (s.takeLevel l v) :=
  when_closed (hP.updLine h) hP.takeEdge

theorem Closed.teardown {b : Bool} (h : P s) : P (s.teardown m b) := by
  unfold State.teardown
  extract_lets s1 s2 s3 s4
  have h1 : P s1 := hP.updMaster h fun _ => ⟨Nat.le_trans (length_emptied _ _) (by omega), Nat.zero_le _⟩
  have h2 : P s2 := by
    cases m with
    | A => exact hP.storeTeardown h1
    | B => exact hP.storeTeardown h1
    | C => exact h1
  exact hP.updMaster (foldl_closed (fun _ _ => hP.seqTeardown) (foldl_closed (fun _ _ => hP.lensTeardown) h2))
    fun hb => ⟨hb.1, Nat.zero_le _⟩

theorem Closed.execCheckFailedPacket {r : Rate} {b : Option (Nat × List Byte)} (h : P s) :
    AnswersIn P (execCheckFailedPacket p r b s) := by
  refine .next (ite_closed h ?_)
  extract_lets s1
  have h1 : P s1 := hP.updCounters (hP.hear h)
  split
  · cases b with
    | none => exact hP.updLink h1
    | some x => exact hP.takeLine (hP.updLink h1)
  · exact hP.failAttempt h1
  · exact hP.failAttempt h1
  · exact h1

theorem Closed.execInactivityTimeout (h : P s) : AnswersIn P (execInactivityTimeout p s) := by
  refine .next (ite_closed h ?_)
  split
  · exact h
  · exact hP.finalize h
  · exact hP.endDiscard h

theorem Closed.execDramWriteGrant (h : P s) : AnswersIn P (execDramWriteGrant s) := by
  refine .next ?_
  split
  · exact hP.writeOldest h
  · exact h

theorem Closed.execFetchReadGrant (h : P s) : AnswersIn P (execFetchReadGrant s) := by
  refine .next (ite_closed h ?_)
  split
  · exact h
  · split
    · exact hP.readLine h
    · exact h

theorem Closed.execErrorWindowEnd (h : P s) : AnswersIn P (execErrorWindowEnd p s) := by
  refine .next ?_
  split
  · exact when_closed h hP.judgeWindow
  · exact h

theorem Closed.execDischargeEnd (h : P s) : AnswersIn P (execDischargeEnd s) := by
  refine .next ?_
  split
  · exact when_closed h hP.enterAcquiring
  · exact h

theorem Closed.execAcquisitionEnd (h : P s) : AnswersIn P (execAcquisitionEnd s) := by
  refine .next ?_
  split
  · exact when_closed h hP.endSweep
  · exact h

theorem Closed.execLensDeadline {a : Axis} (h : P s) : AnswersIn P (execLensDeadline p a s) := by
  refine .next ?_
  split
  · exact ite_closed (hP.lensEvent (hP.seqAxisStalled (hP.updLens h))) h
  · exact h

theorem Closed.execStoreWriteComplete {b : Bool} (h : P s) :
    AnswersIn P (execStoreWriteComplete b s) := by
  refine .next ?_
  split
  · exact hP.completeWrite h
  · exact h

theorem Closed.execTriggerHandover (h : P s) : AnswersIn P (execTriggerHandover p s) := by
  refine .next (ite_closed ?_ h)
  split
  · split
    · exact hP.handTrigger h
    · exact h
  · exact h

theorem Closed.execUnknownRequestKind (h : P s) : AnswersIn P (execUnknownRequestKind m s) := by
  refine .next ?_
  split
  · exact ite_closed h (hP.answered h)
  · exact h

theorem Closed.execSetRateLimit {n v : Nat} (h : P s) : AnswersIn P (execSetRateLimit m n v s) := by
  refine .next (hP.takeRequest h fun hu => onPort_closed hu ?_)
  intro q
  split
  · exact hP.updPort (f := fun t => { t with profile := { t.profile with rateLimit := _ } }) hu id
  · exact hu

theorem Closed.execPortPowerOn {l : List Nat} (h : P s) : AnswersIn P (execPortPowerOn m l s) := by
  refine .next (hP.takeRequest h fun hu => ?_)
  split
  · exact hu
  · exact hP.testJoined (hP.admitList hu)

theorem Closed.execPortPowerOff {l : List Nat} (h : P s) : AnswersIn P (execPortPowerOff m l s) := by
  refine .next (hP.takeRequest h fun hu => ?_)
  split
  · exact hu
  · exact when_closed (foldl_closed (fun _ _ => hP.offEntry) hu) hP.testHead

theorem Closed.execSweep {n : Nat} {v : Option Nat} (h : P s) : AnswersIn P (execSweep m n v s) := by
  refine .next (hP.takeRequest h fun hu => ?_)
  split
  · exact hu
  · exact ite_answer_closed hu (ite_answer_closed hu (hP.sweepAppend hu))

theorem Closed.execRecallPreset {n k : Nat} (h : P s) : AnswersIn P (execRecallPreset m n k s) := by
  refine .next (hP.takeRequest h fun hu => onPort_closed hu ?_)
  intro q
  split
  · exact hu
  · refine ite_answer_closed hu ?_
    split
    · exact hu
    · exact ite_answer_closed hu (ite_answer_closed hu (ite_answer_closed hu (hP.makeMove hu)))

theorem Closed.execWritePreset {l : List Byte} (h : P s) : AnswersIn P (execWritePreset m l s) := by
  refine .next (ofRecord_closed h (hP.takeRequest h fun hu => ?_))
  split
  · exact hP.takeWritePreset hu
  · exact hu

theorem Closed.execErasePreset {n : Nat} (h : P s) : AnswersIn P (execErasePreset m n s) := by
  refine .next (hP.takeRequest h fun hu => ?_)
  split
  · exact hu
  · exact hP.takeWrite hu

theorem Closed.execWriteProfile {n : Nat} {f : RawProfile} (h : P s) :
    AnswersIn P (execWriteProfile m n f s) := by
  refine .next (hP.takeRequest h fun hu => ?_)
  split
  · exact hu
  · split
    · exact hu
    · exact hP.takeWrite hu

theorem Closed.execWriteCell {f : RawCell} (h : P s) : AnswersIn P (execWriteCell m f s) := by
  refine .next (hP.takeRequest h fun hu => ?_)
  split
  · exact hu
  · exact ite_answer_closed hu (hP.takeWrite hu)

theorem Closed.execLockPreset {n a : Nat} (h : P s) : AnswersIn P (execLockPreset m n a s) := by
  refine .next (hP.takeRequest h fun hu => ?_)
  split
  · exact hu
  · exact hP.takeLock hu

theorem Closed.execLoadSequence {l : List Byte} (h : P s) : AnswersIn P (execLoadSequence m l s) := by
  refine .next (ofRecord_closed h (hP.takeRequest h fun hu => ?_))
  split
  · exact hP.takeLoad hu
  · exact hu

theorem Closed.execSetTriggerLine {n : Nat} {r : RawLine} (h : P s) :
    AnswersIn P (execSetTriggerLine m n r s) := by
  refine .next (hP.takeRequest h fun hu => ?_)
  split
  · exact hu
  · exact ite_answer_closed hu (by dsimp only; exact hP.updLine hu)

theorem Closed.execSetFramePolicy {n k : Option Nat} (h : P s) : AnswersIn P (execSetFramePolicy m n k s) := by
  refine .next (hP.takeRequest h fun hu => onReader_closed hu (ite_answer_closed hu ?_))
  dsimp only
  exact hP.updStore hu (.updReader fun hl => hl)

theorem Closed.execSetNoticeMask {l : Option (List Nat)} {w : Option Nat} (h : P s) :
    AnswersIn P (execSetNoticeMask m l w s) := by
  refine .next (hP.takeRequest h fun hu => ?_)
  dsimp only
  exact hP.updMaster hu id

theorem Closed.execStartSequence {n k : Nat} (h : P s) : AnswersIn P (execStartSequence m n k s) := by
  refine .next (hP.takeRequest h fun hu => onPort_closed hu (ite_answer_closed hu ?_))
  dsimp only
  exact ite_answer_closed hu (pair_closed (hP.startRun hu))

theorem Closed.execTakeLens {n : Nat} (h : P s) : AnswersIn P (execTakeLens m n s) := by
  refine .next (hP.takeRequest h fun hu => onPort_closed hu (ite_answer_closed hu ?_))
  dsimp only
  exact hP.updLens hu

/-- Every event keeps a property that the elementary updates keep; a reset has to meet it afterwards. -/
theorem Closed.event (i : Instr) (hi : requestOf i = none) (h : P s)
    (hreset : i = .por ∨ i = .warmReset → ∀ k, P (s.afterReset k)) : AnswersIn P (exec i s) := by
  cases i with
  | por => exact .next (hreset (.inl rfl) .por)
  | warmReset => exact .next (hreset (.inr rfl) .warm)
  | checkFailedPacket => exact hP.execCheckFailedPacket h
  | malformedPacket => exact .next (ite_closed h (hP.countStray (hP.countClean (hP.hear h))))
  | idle => exact .next (ite_closed h (hP.countClean (hP.hear h)))
  | hello => exact .next (ite_closed h (hP.takeHello (hP.countClean (hP.hear h))))
  | lensReport => exact .next (ite_closed h (ite_closed (hP.countStray (hP.countClean (hP.hear h)))
      (hP.routed h hP.takeReport)))
  | frameOpen => exact .next (ite_closed h (hP.routed h hP.openFrame))
  | line => exact .next (ite_closed h (hP.routed h hP.takeLine))
  | frameClose => exact .next (ite_closed h (hP.routed h hP.closeFrame))
  | inactivityTimeout => exact hP.execInactivityTimeout h
  | dramWriteGrant => exact hP.execDramWriteGrant h
  | fetchReadGrant => exact hP.execFetchReadGrant h
  | downChannelSend => exact .next (when_closed h hP.sendDown)
  | helloTimeout | lockLoss => exact .next (when_closed h hP.enterLost)
  | attemptDeadline => exact .next (when_closed h hP.failAttempt)
  | errorWindowEnd => exact hP.execErrorWindowEnd h
  | currentSample => exact .next (hP.takeSample h)
  | overload | undercurrent => exact .next (when_closed h hP.takeSample)
  | inrushEnd => exact .next (when_closed h hP.finishInrush)
  | staggerGapEnd => exact .next (when_closed h hP.testHead)
  | queueHeadStart => exact .next (hP.testHead h)
  | supplyStateLow => exact .next (when_closed h hP.supplyLow)
  | supplyStateNormal => exact .next (when_closed h hP.supplyNormal)
  | dischargeEnd => exact hP.execDischargeEnd h
  | acquisitionRepetition => exact .next (when_closed h hP.updEngine)
  | acquisitionEnd => exact hP.execAcquisitionEnd h
  | lensDeadline => exact hP.execLensDeadline h
  | storeWriteComplete => exact hP.execStoreWriteComplete h
  | settleTimeout | awaitTimeout => exact .next (when_closed h hP.endRun)
  | closeTimeout => exact .next (ite_closed (hP.endRun h) (when_closed h hP.frameTimedOut))
  | triggerHandover => exact hP.execTriggerHandover h
  | dwellEnd => exact .next (when_closed h hP.completeStep)
  | cadenceDeadline => exact .next (when_closed h hP.cadenceEvent)
  | triggerLineSample => exact .next (hP.takeLevel h)
  | acceptedTransition => exact .next (when_closed h hP.takeLevel)
  | fabricRecordArrival => exact .next (when_closed h fun h => hP.updMaster h .fabricRecord)
  | spiSelectRise => exact .next (when_closed h fun h => hP.updMaster h .closeTxn)
  | outboundSendStart => exact .next (when_closed h fun h => hP.updMaster h .beginNext)
  | outboundSendComplete => exact .next (when_closed h fun h => hP.updMaster h .sent)
  | spiSelectFall | fabricLockReturn => exact .next (unless_closed h fun h => hP.updMaster h id)
  | fabricLockLost => exact .next (ite_closed (hP.teardown (hP.updMaster h id)) h)
  | unknownRequestKind => exact hP.execUnknownRequestKind h
  | _ => cases hi

/-- Every request keeps a property that the elementary updates keep. -/
theorem Closed.request (i : Instr) (hi : requestOf i ≠ none) (h : P s) : AnswersIn P (exec i s) := by
  cases i with
  | readPower | readBreakLog | readLens | readProfile | readSequence =>
    exact .next (hP.takeRequest h fun hu => onPort_closed hu hu)
  | listFrames | readStore | readPreset | readCell | readStoreStatus | readTriggers | readPart =>
    exact .next (hP.takeRequest h fun hu => hu)
  | readCamera => exact .next (hP.takeRequest h fun hu => onPort_closed hu (pair_closed (hP.updLink hu)))
  | setRateLimit => exact hP.execSetRateLimit h
  | retrain =>
    exact .next (hP.takeRequest h fun hu => onPort_closed hu (ite_answer_closed (hP.enterRetraining hu) hu))
  | portPowerOn => exact hP.execPortPowerOn h
  | portPowerOff => exact hP.execPortPowerOff h
  | clearPortFault => exact .next (hP.takeRequest h fun hu => onPort_closed hu (hP.clearFault hu))
  | sweep => exact hP.execSweep h
  | subscribe | unsubscribe =>
    exact .next (hP.takeRequest h fun hu => onPort_closed hu (hP.setSubscription hu))
  | setFramePolicy =>
    exact hP.execSetFramePolicy h
  | fetch => exact .next (hP.takeRequest h fun hu => onReader_closed hu (hP.takeFetch hu))
  | release =>
    exact .next (hP.takeRequest h fun hu => onReader_closed hu
      (ite_answer_closed hu (pair_closed (hP.updStore (hP.cancelFetches hu) .dropReader))))
  | takeLens =>
    exact hP.execTakeLens h
  | giveLens =>
    exact .next (hP.takeRequest h fun hu => onPort_closed hu
      (ite_answer_closed hu (ite_answer_closed hu (pair_closed (hP.updLens hu)))))
  | breakHold => exact .next (hP.takeRequest h fun hu => onPort_closed hu (hP.breakHold hu))
  | moveLens =>
    exact .next (hP.takeRequest h fun hu => onPort_closed hu
      (ite_answer_closed hu (ite_answer_closed hu (ite_answer_closed hu (hP.makeMove hu)))))
  | stopLens =>
    exact .next (hP.takeRequest h fun hu => onPort_closed hu
      (ite_answer_closed hu (ite_answer_closed hu (hP.stopLens hu))))
  | recallPreset => exact hP.execRecallPreset h
  | writePreset => exact hP.execWritePreset h
  | erasePreset => exact hP.execErasePreset h
  | writeProfile => exact hP.execWriteProfile h
  | writeCell => exact hP.execWriteCell h
  | lockPreset => exact hP.execLockPreset h
  | lockDown =>
    exact .next (hP.takeRequest h fun hu => ite_answer_closed hu (ite_answer_closed hu (pair_closed (hP.updPresets hu))))
  | clearStoreError => exact .next (hP.takeRequest h fun hu => pair_closed (hP.updPresets hu))
  | loadSequence => exact hP.execLoadSequence h
  | startSequence => exact hP.execStartSequence h
  | resumeSequence =>
    exact .next (hP.takeRequest h fun hu => onPort_closed hu
      (ite_answer_closed hu (ite_answer_closed hu (hP.resume hu))))
  | haltSequence =>
    exact .next (hP.takeRequest h fun hu => onPort_closed hu
      (ite_answer_closed hu (ite_answer_closed hu (hP.endRun hu))))
  | fire =>
    exact .next (hP.takeRequest h fun hu => onPort_closed hu
      (ite_answer_closed hu (ite_answer_closed hu (ite_answer_closed hu (ite_answer_closed hu
        (hP.fireUnsequenced hu))))))
  | setTriggerLine => exact hP.execSetTriggerLine h
  | setNoticeMask => exact hP.execSetNoticeMask h
  | detach => exact .next (hP.takeRequest h fun hu => hP.teardown hu)
  | _ => exact absurd rfl hi

/-- A property that the elementary updates keep is kept by every command; for the two resets it has to be met afterwards. -/
theorem Closed.exec (i : Instr) (h : P s) (hreset : i = .por ∨ i = .warmReset → ∀ k, P (s.afterReset k)) :
    AnswersIn P (exec i s) := by
  by_cases hi : requestOf i = none
  · exact hP.event i hi h hreset
  · exact hP.request i hi h

/-- A step keeps such a property where a tick and a reset do. -/
theorem Closed.step (h : P s) (hpending : ∀ {u : State} {l}, P u → P { u with pending := l }) (htick : P s → P s.tick)
    (hreset : ∀ {u : State} {k}, P u → P (u.afterReset k)) : AnswersIn P (step s) := by
  unfold Machine.step
  split
  · exact hP.exec _ (hpending h) fun _ _ => hreset (hpending h)
  · exact .next (htick h)


end

/-! ## The statements -/

/-- Two states between which one command runs, none of the resets: the queue of commands and the timebase agree. -/
theorem closed_pending_now (b : State) : Closed fun u => u.pending = b.pending ∧ u.now = b.now where
  updPort h _ := h
  updMaster h _ := h
  updStore h _ := h
  updMgr := id
  updEngine := id
  updPresets := id
  lines := id

theorem closed_dram : Closed fun u => u.store.dram.wf = true where
  updPort h _ := h
  updMaster h _ := h
  updStore h k := k.dram h
  updMgr := id
  updEngine := id
  updPresets := id
  lines := id

theorem closed_pages : Closed fun u => u.store.pagesKept where
  updPort h _ := h
  updMaster h _ := h
  updStore h k := pagesKept_of_perm h k.pages
  updMgr := id
  updEngine := id
  updPresets := id
  lines := id

/-- The bounds of all queues, said port by port and master by master. -/
theorem queuesBounded_iff (s : State) : s.queuesBounded ↔ (∀ p, (s.port p).bounded) ∧
    (∀ a, (s.store.readers.get a).fetches.length ≤ 4) ∧ ∀ m, (s.master m).bounded := .rfl

theorem closed_queues : Closed State.queuesBounded where
  updPort := fun {s p f} ⟨hports, hrest⟩ hf => by
    refine ⟨fun q => ?_, hrest⟩
    by_cases hq : p = q
    · subst hq
      rw [State.updPort_port_self]
      exact hf (hports p)
    · rw [State.updPort_port_of_ne s f hq]
      exact hports q
  updMaster := fun {s m f} ⟨hports, hfetches, hmasters⟩ hf => by
    refine ⟨hports, hfetches, fun k => ?_⟩
    by_cases hk : m = k
    · subst hk
      rw [State.updMaster_master_self]
      exact hf (hmasters m)
    · rw [State.updMaster_master_of_ne s f hk]
      exact hmasters k
  updStore := fun ⟨hports, hfetches, hmasters⟩ k => ⟨hports, k.fetches hfetches, hmasters⟩
  updMgr := id
  updEngine := id
  updPresets := id
  lines := id

theorem afterReset_queuesBounded {k : ResetKind} (h : s.queuesBounded) : (s.afterReset k).queuesBounded := by
  refine ⟨fun p => ?_, fun a => by cases a <;> exact Nat.zero_le _, fun m => by cases m <;> exact ⟨Nat.zero_le _, Nat.zero_le _⟩⟩
  have hlog := (h.1 p).2
  simp only [State.afterReset, State.port, PortRec.afterReset, vector_get_ofFn]
  refine ⟨Nat.zero_le _, ?_⟩
  split
  · exact hlog
  · exact Nat.zero_le _

/-- Settles O3: every command but a reset is built from updates that touch neither the queue of commands nor the timebase. -/
theorem everyCommandCompletes : Obligations.EveryCommandCompletes := by
  intro c s
  by_cases hc : c = .por ∨ c = .warmReset
  · obtain rfl | rfl := hc
    · exact ⟨_, rfl, rfl, fun _ => rfl, fun h => absurd rfl h⟩
    · exact ⟨_, rfl, rfl, fun _ => rfl, fun _ h => absurd rfl h⟩
  · obtain ⟨t, ht, hpending, hnow⟩ := (closed_pending_now s).exec c ⟨rfl, rfl⟩ fun h => absurd h hc
    exact ⟨t, ht, hpending, fun h => absurd h hc, fun _ _ => hnow⟩

/-- R71, R72: no reset clears the DRAM. -/
theorem afterReset_dram {k : ResetKind} : (s.afterReset k).store.dram = s.store.dram := by
  simp only [State.afterReset, Store.afterReset]

/-- Settles O7: the DRAM's list is changed by writes and clearings alone, which keep its form. -/
theorem dramKeepsItsCanonicalForm : Obligations.DramKeepsItsCanonicalForm := by
  intro s t h ht
  obtain ⟨u, hu, hwf⟩ := closed_dram.step h id id fun h => (congrArg Memory.wf afterReset_dram).trans h
  obtain rfl : u = t := Host.Outcome.next.inj (hu.symm.trans ht)
  exact hwf

/-- The pages of a store that keeps them add up to all pages. -/
theorem pagesKept_length {st : Store} (h : st.pagesKept) :
    st.freeList.length + (st.frames.map (fun f => f.pages.length)).sum = 4096 := by
  have hl := h.length_eq
  rw [List.length_append, List.length_flatMap] at hl
  exact hl.trans List.length_range

/-- After a reset every page is on the free list. -/
theorem fullFreeList_kept {d : Memory} : (Store.afterReset d).pagesKept := by
  simp only [Store.pagesKept, Store.afterReset, List.flatMap_nil, List.append_nil]
  exact .refl _

/-- Settles O8: no step of the frame store loses or doubles a page, and a reset frees all of them. -/
theorem pagesAreFreeOrInOneFrame : Obligations.PagesAreFreeOrInOneFrame := by
  intro s t h ht
  obtain ⟨u, hu, hkept⟩ := closed_pages.step h id id fun _ => fullFreeList_kept
  obtain rfl : u = t := Host.Outcome.next.inj (hu.symm.trans ht)
  exact ⟨hkept, pagesKept_length hkept⟩

/-- Settles O9: each queue grows within its bound alone. -/
theorem queuesStayWithinTheirBounds : Obligations.QueuesStayWithinTheirBounds := by
  intro s t h ht
  obtain ⟨u, hu, hbounded⟩ := closed_queues.step h id id afterReset_queuesBounded
  obtain rfl : u = t := Host.Outcome.next.inj (hu.symm.trans ht)
  exact hbounded

end Sys2Proof.Machine
end

section
/-! PROOFS. What the end of a run and the departure of a link from UP leave in a port's record. A run that ends leaves its context
READY (`endRun_ended`); a link that leaves UP leaves the port quiet (`announceLeft_quiet`). -/

namespace Sys2Proof.Machine

variable {s t : State} {p : Port}

/-! ## What traffic leaves alone -/

/-- The traffic of a port that stays UP changes no link. -/
theorem links_trafficClosed (s : State) : TrafficClosed fun u => ∀ q, (u.port q).link = (s.port q).link := by
  have keep : ∀ {u : State} {p : Port} {f : PortRec → PortRec}, (∀ r, (f r).link = r.link) →
      (∀ q, (u.port q).link = (s.port q).link) → ∀ q, ((u.updPort p f).port q).link = (s.port q).link := by
    intro u p f hf h q
    by_cases hq : p = q
    · subst hq; rw [State.updPort_port_self, hf, h]
    · rw [State.updPort_port_of_ne u f hq, h]
  exact
    { updIntake := keep fun _ => rfl
      updCounters := keep fun _ => rfl
      updMaster := fun h _ => h
      updStore := fun h _ => h
      updSeq := keep fun _ => rfl
      updLens := keep fun _ => rfl
      updWaiting := fun h _ => keep (fun _ => rfl) h }

/-- What the frame store, the masters and the intakes do not touch in a port's record. -/
def PortRec.sameBesideIntake (r u : PortRec) : Prop :=
  u.link = r.link ∧ u.seq = r.seq ∧ u.lens = r.lens ∧ u.waiting = r.waiting

/-- The frame store, the masters and the intakes leave every link, context, lens and waiting packet as it is. -/
theorem besideIntake_storeClosed (s : State) : StoreClosed fun u => ∀ q, (s.port q).sameBesideIntake (u.port q) := by
  have keep : ∀ {u : State} {p : Port} {f : PortRec → PortRec}, (∀ r : PortRec, r.sameBesideIntake (f r)) →
      (∀ q, (s.port q).sameBesideIntake (u.port q)) → ∀ q, (s.port q).sameBesideIntake ((u.updPort p f).port q) := by
    intro u p f hf h q
    by_cases hq : p = q
    · subst hq
      obtain ⟨hlink, hseq, hlens, hwaiting⟩ := h p
      obtain ⟨klink, kseq, klens, kwaiting⟩ := hf (u.port p)
      rw [State.updPort_port_self]
      exact ⟨klink.trans hlink, kseq.trans hseq, klens.trans hlens, kwaiting.trans hwaiting⟩
    · rw [State.updPort_port_of_ne u f hq]; exact h q
  exact
    { updIntake := keep fun _ => ⟨rfl, rfl, rfl, rfl⟩
      updCounters := keep fun _ => ⟨rfl, rfl, rfl, rfl⟩
      updMaster := fun h _ => h
      updStore := fun h _ => h }

theorem sameBesideIntake_refl (s : State) (q : Port) : (s.port q).sameBesideIntake (s.port q) := ⟨rfl, rfl, rfl, rfl⟩

/-- An operation that keeps to the traffic of a port, whichever port is meant, changes no port's record. -/
theorem port_of_only_all (h : ∀ p, OnlyTraffic s t p) (q : Port) : t.port q = s.port q :=
  (h (q + 1)).1.1 q (by revert q; decide)

theorem handover_port (s : State) (id : Nat) (q : Port) : (s.handover id).port q = s.port q :=
  port_of_only_all (fun p => handover_only s p id) q

/-! ## The end of a run (R172) -/

theorem seqEvent_port (s : State) (p q : Port) (u : Bool) (c : SeqCause) (i : Option Nat) :
    (s.seqEvent p u c i).port q = s.port q := (seqEvent_same s p u c i).1 q

/-- Whether a lens is held implicitly by a master that may be absent. -/
theorem implicitFor_iff (l : LensRec) (m : Option Master) :
    l.implicitFor m = true ↔ l.implicit = true ∧ l.holder ≠ none ∧ l.holder = m := by
  simp [LensRec.implicitFor, Option.isSome_iff_ne_none, and_assoc]

/-- R172: the state in which a run has ended, but for the notice. -/
def State.runEnded (s : State) (p : Port) (e : EndStatus) : State :=
  let c := (s.port p).seq
  let s1 := (s.updSeq p (SeqCtx.ending e)).updStore (fun st => st.unreserve c.reservedPages c.reservedRecords)
  let s2 := if (s1.port p).lens.implicitFor c.starter then s1.updLens p LensRec.freed else s1
  if e = .normal then s2 else s2.updSeq p SeqCtx.cancelCadence

theorem endRun_eq (s : State) (p : Port) (e : EndStatus) (x : EndExtras) :
    ∃ f, s.endRun p e x = (s.runEnded p e).seqEvent p e.urgent (.ended f) (some ((s.port p).seq.index.getD 0)) :=
  ⟨_, rfl⟩

/-- R172: what the end of a run leaves in the port's record. -/
theorem runEnded_port (s : State) (p : Port) (e : EndStatus) :
    (s.runEnded p e).port p = { s.port p with
      lens := if (s.port p).lens.implicitFor (s.port p).seq.starter then (s.port p).lens.freed else (s.port p).lens
      seq := if e = .normal then (s.port p).seq.ending e else ((s.port p).seq.ending e).cancelCadence } := by
  have hlens : (((s.updSeq p (SeqCtx.ending e)).updStore
      (fun st => st.unreserve (s.port p).seq.reservedPages (s.port p).seq.reservedRecords)).port p).lens =
      (s.port p).lens := by simp
  unfold State.runEnded
  dsimp only
  rw [hlens]
  split <;> split <;> simp [State.updSeq, State.updLens]

theorem endRun_port (s : State) (p : Port) (e : EndStatus) (x : EndExtras) :
    (s.endRun p e x).port p = { s.port p with
      lens := if (s.port p).lens.implicitFor (s.port p).seq.starter then (s.port p).lens.freed else (s.port p).lens
      seq := if e = .normal then (s.port p).seq.ending e else ((s.port p).seq.ending e).cancelCadence } := by
  obtain ⟨f, hf⟩ := endRun_eq s p e x
  rw [hf, seqEvent_port, runEnded_port]

theorem runEnded_store (s : State) (p : Port) (e : EndStatus) :
    (s.runEnded p e).store = s.store.unreserve (s.port p).seq.reservedPages (s.port p).seq.reservedRecords := by
  unfold State.runEnded
  dsimp only
  split <;> split <;> rfl

theorem runEnded_masters (s : State) (p : Port) (e : EndStatus) : (s.runEnded p e).masters = s.masters := by
  unfold State.runEnded
  dsimp only
  split <;> split <;> rfl

/-- R172: no context is active after its run has ended. -/
theorem endRun_inactive (s : State) (p : Port) (e : EndStatus) (x : EndExtras) :
    ((s.endRun p e x).port p).seq.active = false := by
  rw [endRun_port]
  cases e <;> rfl

/-- R172: what the end of a run does, as the statements put it. -/
theorem endRun_ended (s : State) (p : Port) (e : EndStatus) (x : EndExtras) : RunEnded s (s.endRun p e x) p e := by
  obtain ⟨f, hf⟩ := endRun_eq s p e x
  obtain ⟨hports, hnow, hreset, hmgr, hengine, hpresets, hlines, hpending⟩ := (endRun_only s p e x).1
  refine ⟨⟨hports, hnow, hreset, hmgr, hengine, rfl, hpresets, hlines, rfl, hpending⟩, ?_, ?_⟩
  · rw [hf, (seqEvent_same _ p _ _ _).2.2.2.2.2.1, runEnded_store]
    rfl
  · rw [endRun_port]
    simp only [implicitFor_iff]
    cases e <;> simp [SeqCtx.ending, SeqCtx.cancelCadence, LensRec.freed]

/-! ## The departure of a link from UP (R12, R95, R138) -/

/-- R91: a frame that is finalized without a report leaves the intake IDLE. -/
theorem finalize_intake (s : State) (p : Port) (e : EndTags) (b : Bool) (h : ((s.port p).boundLive && b) = false) :
    ((s.finalize p e b).port p).intake.state = .idle := by
  unfold State.finalize
  split
  · simp [IntakeRec.toIdle]
  · extract_lets live s0 s1 delivered s2 report s3 s4 s5 s6
    rw [if_neg (Bool.not_eq_true _ ▸ h)]
    rw [show s6.port p = s5.port p from handover_port s5 _ p]
    simp [s5, IntakeRec.toIdle]

/-- R95: the intake when the link has left UP. -/
theorem intakeLinkLeft_intake (s : State) (p : Port) :
    ((s.intakeLinkLeft p).port p).intake.state = .idle ∧ ((s.intakeLinkLeft p).port p).intake.pendingOrigin = none := by
  unfold State.intakeLinkLeft
  rw [State.updIntake_port_intake]
  refine ⟨?_, rfl⟩
  dsimp only
  split
  · assumption
  · exact finalize_intake s p _ _ (Bool.and_false _)
  · simp [State.endDiscard, IntakeRec.toIdle]

/-- R95: the departure leaves everything beside the intakes. -/
theorem intakeLinkLeft_beside (s : State) (p q : Port) : (s.port q).sameBesideIntake ((s.intakeLinkLeft p).port q) :=
  (besideIntake_storeClosed s).intakeLinkLeft (sameBesideIntake_refl s) q

/-- R12, R173: a lost camera leaves no context active. -/
theorem seqCameraLost_inactive (s : State) (p : Port) : ((s.seqCameraLost p).port p).seq.active = false := by
  unfold State.seqCameraLost
  split
  · exact endRun_inactive s p _ _
  · rename_i h
    exact Bool.not_eq_true _ ▸ h

/-- A lost camera leaves the link and the waiting packets. -/
theorem seqCameraLost_link_waiting (s : State) (p : Port) : ((s.seqCameraLost p).port p).link = (s.port p).link ∧
    ((s.seqCameraLost p).port p).waiting = (s.port p).waiting := by
  unfold State.seqCameraLost
  split
  · rw [endRun_port]; exact ⟨rfl, rfl⟩
  · exact ⟨rfl, rfl⟩

/-- R12: the announcements of a departure touch no more of the link than the window and the DEGRADED mark. -/
theorem announceLeft_link (s : State) (p : Port) : ((s.announceLeft p).port p).link = (s.port p).link.noWindow := by
  unfold State.announceLeft State.lensLinkLeft
  rw [State.updLens_port_link, (intakeLinkLeft_beside _ p p).1, (seqCameraLost_link_waiting _ p).1]
  simp [State.dropDown]

/-- R138: an axis of a lens whose link has left UP. -/
theorem linkLeft_axis {l : LensRec} {x : Axis} {a : AxisRec} (h : (l.axes.map (Option.map AxisRec.linkLeft)).get x = some a) :
    a.motion = .idle ∧ a.position = none ∧ a.target = none ∧ a.deadline = none := by
  rw [PerAxis.get_map, Option.map_eq_some_iff] at h
  obtain ⟨b, -, rfl⟩ := h
  exact ⟨rfl, rfl, rfl, rfl⟩

/-- R3, R12, R95, R138, R173: the announcements of a departure leave the port quiet. -/
theorem announceLeft_quiet (s : State) (p : Port) : ((s.announceLeft p).port p).quiet := by
  have hlink := announceLeft_link s p
  have hdrop : ∀ k ∈ (((s.updLink p LinkRec.noWindow).dropDown p).port p).waiting, k.needsUp = false := by
    intro k hk
    have hmem : k ∈ (s.port p).waiting ∧ k.needsUp = false := by simpa [State.dropDown] using hk
    exact hmem.2
  have hlost := seqCameraLost_inactive ((s.updLink p LinkRec.noWindow).dropDown p) p
  have hwaiting := (seqCameraLost_link_waiting ((s.updLink p LinkRec.noWindow).dropDown p) p).2
  generalize hu : ((s.updLink p LinkRec.noWindow).dropDown p).seqCameraLost p = u at hlost hwaiting
  obtain ⟨-, kseq, -, kwaiting⟩ := intakeLinkLeft_beside u p p
  obtain ⟨hidle, horigin⟩ := intakeLinkLeft_intake u p
  have hv : s.announceLeft p = (u.intakeLinkLeft p).lensLinkLeft p := by rw [← hu]; rfl
  rw [hv] at hlink ⊢
  refine ⟨?_, ?_, ?_, by rw [hlink]; rfl, by rw [hlink]; rfl, ?_, ?_⟩
  · simpa [State.lensLinkLeft, kseq] using hlost
  · simpa [State.lensLinkLeft] using hidle
  · simpa [State.lensLinkLeft] using horigin
  · simpa [State.lensLinkLeft, kwaiting, hwaiting] using hdrop
  · intro x a ha
    exact linkLeft_axis (by simpa [State.lensLinkLeft] using ha)

end Sys2Proof.Machine
end

section
/-! PROOFS. The accounts of the hub (O10) and the quiet of a port whose link has left UP (O11). A step from one state to another
is sound (`HubStep`) where it keeps the accounts of the power manager and of the break finder and, port by port, keeps a link UP
or the port quiet and no context active on a link that is not UP (`Calm`). Sound steps compose; every shared operation is one,
and so is every command. -/

namespace Sys2Proof.Machine

variable {s t u : State} {p : Port}

/-! ## One port -/

/-- What a step keeps of a port: where its link was UP or the port quiet, the link is UP or the port quiet afterwards; and where a
context was active on a link that is UP alone, it is so afterwards. -/
structure Calm (r u : PortRec) : Prop where
  quiet : r.link.state = .up ∨ r.quiet → u.link.state = .up ∨ u.quiet
  active : (r.seq.active = true → r.link.state = .up) → u.seq.active = true → u.link.state = .up

namespace Calm

variable {r v w : PortRec}

theorem refl (r : PortRec) : Calm r r := ⟨id, id⟩

theorem trans (h : Calm r v) (k : Calm v w) : Calm r w := ⟨k.quiet ∘ h.quiet, k.active ∘ h.active⟩

theorem of_up (h : v.link.state = .up) : Calm r v := ⟨fun _ => .inl h, fun _ _ => h⟩

theorem of_quiet (h : v.quiet) : Calm r v := ⟨fun _ => .inr h, fun _ ha => absurd ha (by simp [h.1])⟩

/-- A step that keeps the link calms a port whose link is not UP only where it keeps it quiet and its context inactive. -/
theorem of_link (hl : v.link.state = r.link.state) (hq : r.link.state ≠ .up → r.quiet → v.quiet)
    (ha : r.link.state ≠ .up → r.seq.active = false → v.seq.active = false) : Calm r v := by
  by_cases hup : r.link.state = .up
  · exact of_up (hl.trans hup)
  · refine ⟨fun h => .inr (hq hup (h.resolve_left hup)), fun h hv => ?_⟩
    have hr : r.seq.active = false := by
      cases hr : r.seq.active
      · rfl
      · exact absurd (h hr) hup
    exact absurd hv (by simp [ha hup hr])

/-- A step of an active context that keeps the link. -/
theorem of_active (hl : v.link.state = r.link.state) (h : r.seq.active = true) : Calm r v :=
  of_link hl (fun _ hq => absurd hq.1 (by simp [h])) fun _ ha => absurd ha (by simp [h])

/-- A change outside what a quiet port is judged by. -/
theorem of_same (hl : r.link.state = .up → v.link.state = .up) (hw : r.link.window = none → v.link.window = none)
    (hd : r.link.degraded = false → v.link.degraded = false) (hs : v.seq.active = true → r.seq.active = true)
    (hi : v.intake.state = r.intake.state ∧ v.intake.pendingOrigin = r.intake.pendingOrigin) (hx : v.lens.axes = r.lens.axes)
    (hk : ∀ k ∈ v.waiting, k ∈ r.waiting ∨ k.needsUp = false) : Calm r v := by
  refine ⟨fun h => h.imp hl ?_, fun h ha => hl (h (hs ha))⟩
  rintro ⟨hactive, hidle, horigin, hwindow, hdegraded, hwaiting, haxes⟩
  refine ⟨?_, hi.1 ▸ hidle, hi.2 ▸ horigin, hw hwindow, hd hdegraded, fun k hm => (hk k hm).elim (hwaiting k) id, hx ▸ haxes⟩
  exact Bool.eq_false_iff.2 fun ha => absurd (hs ha) (by simp [hactive])

end Calm

/-- R24, R47: the accounts of one port, but for its receiver. -/
structure PortAccount (r : PortRec) : Prop where
  allotment : r.power.allotment.isSome = r.power.state.committed
  marks : (r.held || r.marks.lockout) = true → r.power.state = .off ∨ r.power.state = .tripped

/-! ## The hub -/

/-- The accounts of the power manager and of the break finder, but for the receivers. -/
structure Books (s : State) : Prop where
  port : ∀ p, PortAccount (s.port p)
  sum : s.mgr.committed = s.allotted
  budget : s.mgr.committed ≤ s.effectiveBudget
  starts : ∀ p ∈ s.mgr.startQueue, (s.port p).power.state = .queued
  pending : ∀ e ∈ s.engine.queue, (s.port e.port).marks.sweepPending = true
  current : ∀ e, s.engine.current = some e →
    (s.engine.state = .dischargeWait ∧ (s.port e.port).marks.sweepPending = true) ∨
    (s.engine.state = .acquiring ∧ (s.port e.port).marks.testing = true)
  nodup : ((s.engine.current.toList ++ s.engine.queue).map SweepEntry.port).Nodup

/-- R19: and a port whose receiver is connected is ON. -/
structure Accounts (s : State) : Prop extends Books s where
  connected : ∀ p, (s.port p).link.state.connected = true → (s.port p).power.state = .on

theorem accounts_iff : s.powerAccounts ∧ s.sweepAccounts ↔ Accounts s := by
  constructor
  · rintro ⟨⟨hallot, hsum, hbudget, hstarts, hconn⟩, hmarks, hpending, hcurrent, hnodup⟩
    exact ⟨⟨fun p => ⟨hallot p, hmarks p⟩, hsum, hbudget, hstarts, hpending, hcurrent, hnodup⟩, hconn⟩
  · intro h
    exact ⟨⟨fun p => (h.port p).allotment, h.sum, h.budget, h.starts, h.connected⟩,
      fun p => (h.port p).marks, h.pending, h.current, h.nodup⟩

/-- A sound step of the hub. -/
def HubStep (s t : State) : Prop := Accounts s → Accounts t ∧ ∀ p, Calm (s.port p) (t.port p)

theorem HubStep.refl (s : State) : HubStep s s := fun h => ⟨h, fun _ => .refl _⟩

theorem HubStep.trans (h : HubStep s t) (k : HubStep t u) : HubStep s u := fun hs =>
  have ⟨ht, hst⟩ := h hs
  have ⟨hu, htu⟩ := k ht
  ⟨hu, fun p => (hst p).trans (htu p)⟩

/-- A step that is sound given the accounts. -/
theorem HubStep.of_accounts (h : Accounts s → HubStep s t) : HubStep s t := fun hs => h hs hs

theorem HubStep.ite {c : Prop} [Decidable c] (ht : c → HubStep s t) (hu : ¬ c → HubStep s u) :
    HubStep s (if c then t else u) := by
  split
  · exact ht ‹_›
  · exact hu ‹_›

theorem HubStep.when {c : Prop} [Decidable c] (h : c → HubStep s t) : HubStep s (if c then t else s) :=
  .ite h fun _ => .refl s

theorem HubStep.unless {c : Prop} [Decidable c] (h : ¬ c → HubStep s t) : HubStep s (if c then s else t) :=
  .ite (fun _ => .refl s) h

theorem HubStep.foldl {α : Type} {f : State → α → State} (h : ∀ s a, HubStep s (f s a)) :
    ∀ (l : List α) (s : State), HubStep s (l.foldl f s)
  | [], s => .refl s
  | a :: l, s => (h s a).trans (HubStep.foldl h l (f s a))

/-! ## Accounts that agree -/

theorem allotted_congr {s t : State} (h : ∀ q, (t.port q).power.allotment = (s.port q).power.allotment) : t.allotted = s.allotted := by
  simp only [State.allotted, h]

theorem effectiveBudget_congr (hp : t.presets = s.presets) (hm : t.mgr.budget = s.mgr.budget) :
    t.effectiveBudget = s.effectiveBudget := by
  simp only [State.effectiveBudget, hp, hm]

/-- A step that leaves the figures of the accounts as they are. -/
theorem Books.congr (h : Books s)
    (hport : ∀ q, (t.port q).power.allotment = (s.port q).power.allotment ∧
      (t.port q).power.state = (s.port q).power.state ∧ (t.port q).marks = (s.port q).marks)
    (hsum : t.mgr.committed = s.mgr.committed) (hstarts : t.mgr.startQueue = s.mgr.startQueue)
    (hbudget : t.effectiveBudget = s.effectiveBudget) (he : t.engine = s.engine) : Books t := by
  have hallot q := (hport q).1
  have hstate q := (hport q).2.1
  have hmarks q := (hport q).2.2
  refine ⟨fun q => ⟨?_, fun hq => ?_⟩, ?_, ?_, ?_, ?_, ?_, ?_⟩
  · rw [hallot, hstate]; exact (h.port q).allotment
  · rw [hstate]
    exact (h.port q).marks (by rwa [PortRec.held, hmarks q] at hq)
  · rw [hsum, allotted_congr hallot]; exact h.sum
  · rw [hsum, hbudget]; exact h.budget
  · intro q hq; rw [hstate]; exact h.starts q (hstarts ▸ hq)
  · intro e hq; rw [hmarks]; exact h.pending e (he ▸ hq)
  · intro e hq; rw [hmarks, he]; exact h.current e (he ▸ hq)
  · rw [he]; exact h.nodup

theorem Books.of_only (h : Books s) (k : OnlyTraffic s t p) : Books t := by
  obtain ⟨⟨hports, -, -, hmgr, hengine, hpresets, -, -⟩, hpower, hmarks, -⟩ := k
  refine h.congr (fun q => ?_) (by rw [hmgr]) (by rw [hmgr]) (effectiveBudget_congr hpresets (by rw [hmgr])) hengine
  by_cases hqp : q = p
  · subst hqp; rw [hpower, hmarks]; exact ⟨rfl, rfl, rfl⟩
  · rw [hports q hqp]; exact ⟨rfl, rfl, rfl⟩

/-- A change of one port's traffic that connects no receiver of a port that is not ON and calms the port. -/
theorem HubStep.of_only (h : OnlyTraffic s t p)
    (hconn : (t.port p).link.state.connected = true → (s.port p).link.state.connected = true ∨ (s.port p).power.state = .on)
    (hcalm : Calm (s.port p) (t.port p)) : HubStep s t := by
  intro hs
  have hports := h.1.1
  refine ⟨⟨hs.toBooks.of_only h, fun q hq => ?_⟩, fun q => ?_⟩ <;> by_cases hqp : q = p
  · subst hqp; rw [h.2.1]; exact (hconn hq).elim (hs.connected q) id
  · rw [hports q hqp] at hq ⊢; exact hs.connected q hq
  · subst hqp; exact hcalm
  · rw [hports q hqp]; exact .refl _

/-- A change of the masters alone. -/
theorem HubStep.of_masters (h : SameButMasters s t) : HubStep s t := by
  refine .of_only (h.only 0) (fun hc => .inl ?_) ?_ <;> rw [h.1] at *
  · exact hc
  · exact .refl _

/-- Traffic on a link that stays as it is. -/
theorem HubStep.of_link (h : OnlyTraffic s t p) (hl : (t.port p).link = (s.port p).link)
    (hcalm : Calm (s.port p) (t.port p)) : HubStep s t :=
  .of_only h (fun hc => .inl (hl ▸ hc)) hcalm

/-- Traffic on a link that is UP and stays as it is. -/
theorem HubStep.of_up (h : OnlyTraffic s t p) (hl : (t.port p).link = (s.port p).link) (hup : (s.port p).link.state = .up) :
    HubStep s t := .of_link h hl (.of_up (by rw [hl, hup]))

/-- Traffic of an active context on a link that stays as it is. -/
theorem HubStep.of_active (h : OnlyTraffic s t p) (hl : (t.port p).link = (s.port p).link)
    (ha : (s.port p).seq.active = true) : HubStep s t := .of_link h hl (.of_active (by rw [hl]) ha)

/-! ## The traffic of a port -/

/-- What the operations of a port's traffic do while the link is UP. -/
theorem HubStep.traffic_up (h : OnlyTraffic s t p) (ht : ∀ {P : State → Prop}, TrafficClosed P → P s → P t)
    (hup : (s.port p).link.state = .up) : HubStep s t := .of_up h (ht (links_trafficClosed s) (fun _ => rfl) p) hup

/-- What they do for a context that is RUNNING or HELD. -/
theorem HubStep.traffic_active (h : OnlyTraffic s t p) (ht : ∀ {P : State → Prop}, TrafficClosed P → P s → P t)
    (ha : (s.port p).seq.active = true) : HubStep s t := .of_active h (ht (links_trafficClosed s) (fun _ => rfl) p) ha

/-- A change of the lens that keeps its axes. -/
theorem updLens_step {f : LensRec → LensRec} (hf : (f (s.port p).lens).axes = (s.port p).lens.axes) :
    HubStep s (s.updLens p f) :=
  .of_link (updLens_only s p f) (by simp) (.of_same (by simp) (by simp) (by simp) (by simp) (by simp) (by simp [hf])
    fun k hk => .inl (by simpa using hk))

/-- A change of the context that starts no run. -/
theorem updSeq_step {f : SeqCtx → SeqCtx} (hf : (f (s.port p).seq).active = true → (s.port p).seq.active = true) :
    HubStep s (s.updSeq p f) :=
  .of_link (updSeq_only s p f) (by simp) (.of_same (by simp) (by simp) (by simp) (by simpa using hf) (by simp) (by simp)
    fun k hk => .inl (by simpa using hk))

theorem updCounters_step {f : Counters → Counters} : HubStep s (s.updCounters p f) :=
  .of_link (updCounters_only s p f) (by simp) (.of_same (by simp) (by simp) (by simp) (by simp) (by simp) (by simp)
    fun k hk => .inl (by simpa using hk))

/-- A change of the link that keeps its state and neither opens a window nor sets the DEGRADED mark of a quiet port. -/
theorem updLink_step {f : LinkRec → LinkRec} (hs : (f (s.port p).link).state = (s.port p).link.state)
    (hq : (s.port p).link.state = .up ∨ ((s.port p).link.window = none → (f (s.port p).link).window = none) ∧
      (f (s.port p).link).degraded = (s.port p).link.degraded) : HubStep s (s.updLink p f) := by
  refine .of_only (updLink_only s p f) (fun hc => .inl (by simpa [hs] using hc)) ?_
  obtain hup | ⟨hw, hd⟩ := hq
  · exact .of_up (by simpa [hs] using hup)
  · exact .of_same (by simp [hs]) (by simpa using hw) (by simp [hd]) (by simp) (by simp) (by simp)
      fun k hk => .inl (by simpa using hk)

theorem hear_step : HubStep s (s.hear p) := updLink_step rfl (.inr ⟨id, rfl⟩)

/-- A change of the packets that wait and of the one sent last that adds none which needs the link UP, but where it is. -/
theorem updWaiting_step {f : PortRec → PortRec}
    (hf : f (s.port p) = { s.port p with waiting := (f (s.port p)).waiting, lastSent := (f (s.port p)).lastSent })
    (hk : (s.port p).link.state = .up ∨ ∀ k ∈ (f (s.port p)).waiting, k ∈ (s.port p).waiting ∨ k.needsUp = false) :
    HubStep s (s.updPort p f) := by
  have hself := State.updPort_port_self s p f
  rw [hf] at hself
  have honly : OnlyTraffic s (s.updPort p f) p :=
    ⟨updPort_outside s p f, by rw [hself], by rw [hself], by rw [hself], by rw [hself], by rw [hself]⟩
  obtain hup | hk := hk
  · exact .of_up honly (by rw [hself]) hup
  · refine .of_link honly (by rw [hself]) ?_
    rw [hself]
    exact .of_same id id id id ⟨rfl, rfl⟩ rfl hk

theorem handDown_step (k : DownPacket) : HubStep s (s.handDown p k) := by
  obtain ⟨h, -⟩ | ⟨h, hup, -⟩ := handDown_cases s p k <;> rw [h]
  · exact .refl s
  · refine updWaiting_step rfl ?_
    cases hn : k.needsUp
    · refine .inr fun x hx => (List.mem_append.1 hx).imp id fun hx => ?_
      rwa [List.mem_singleton.1 hx]
    · exact .inl (hup hn)

theorem sendDown_step : HubStep s (s.sendDown p) := by
  unfold State.sendDown
  split
  · exact updWaiting_step rfl (.inr fun _ => .inl)
  · rename_i k rest hw
    have hrest : ∀ x ∈ rest, x ∈ (s.port p).waiting ∨ x.needsUp = false := fun x hx =>
      .inl (hw ▸ List.mem_cons_of_mem _ hx)
    exact .ite (fun _ => updWaiting_step rfl (.inr hrest)) fun _ => updWaiting_step rfl (.inr hrest)

end Sys2Proof.Machine
end

section
/-! PROOFS. Sound steps of the links, of port power and of the break finder (O10, O11). -/

namespace Sys2Proof.Machine

variable {s t u : State} {p : Port}

/-! ## The link (chapter 1) -/

theorem inTraining_connected : ∀ {l : LinkState}, l.inTraining = true → l.connected = true
  | .training, _ | .retraining, _ => rfl

theorem linkEvent_step {l : LinkState} {n : Option Nat} : HubStep s (s.linkEvent p l n) := .of_masters (linkEvent_same s p l n)

/-- R9, R11: the clean run; a training attempt that completes it takes the link UP. -/
theorem countClean_step : HubStep s (s.countClean p) := by
  unfold State.countClean
  dsimp only
  split
  · exact .refl s
  · rename_i htraining
    split
    · exact .refl s
    · split
      · exact updLink_step rfl (.inr ⟨id, rfl⟩)
      · refine .when fun _ => .trans (.of_only (updLink_only s p _) (fun _ => .inl ?_) (.of_up ?_)) linkEvent_step
        · exact inTraining_connected (by simpa using htraining)
        · simp [LinkRec.enterUp]

theorem countClean_connected (h : (s.port p).link.state.connected = true) :
    ((s.countClean p).port p).link.state.connected = true := by
  unfold State.countClean
  dsimp only
  repeat' split
  all_goals try exact h
  · simpa using h
  · rw [(linkEvent_same _ _ _ _).1, State.updLink_port_link]; rfl

/-- R12: a link that leaves its state, with the announcements where that was UP, leaves a quiet port. -/
theorem depart_calm {f : LinkRec → LinkRec}
    (hw : (s.port p).link.window = none → (f (s.port p).link).window = none)
    (hd : (f (s.port p).link).degraded = (s.port p).link.degraded) :
    Calm (s.port p) ((if (s.port p).link.state = .up then (s.updLink p f).announceLeft p else s.updLink p f).port p) := by
  split
  · exact .of_quiet (announceLeft_quiet _ p)
  · rename_i hup
    exact .of_same (fun h => absurd h hup) (by simpa using hw) (by simp [hd]) (by simp) (by simp) (by simp)
      fun k hk => .inl (by simpa using hk)

/-- R12: such a link connects no receiver. -/
theorem depart_connected {f : LinkRec → LinkRec}
    (h : ((if (s.port p).link.state = .up then (s.updLink p f).announceLeft p else s.updLink p f).port p).link.state.connected
      = true) : (f (s.port p).link).state.connected = true := by
  split at h
  · rw [announceLeft_link, State.updLink_port_link] at h
    exact h
  · rwa [State.updLink_port_link] at h

theorem depart_only {f : LinkRec → LinkRec} :
    OnlyTraffic s (if (s.port p).link.state = .up then (s.updLink p f).announceLeft p else s.updLink p f) p :=
  ite_only ((updLink_only s p f).trans (announceLeft_only _ p)) (updLink_only s p f)

theorem depart_step {f : LinkRec → LinkRec}
    (hconn : (f (s.port p).link).state.connected = true → (s.port p).link.state.connected = true)
    (hw : (s.port p).link.window = none → (f (s.port p).link).window = none)
    (hd : (f (s.port p).link).degraded = (s.port p).link.degraded) :
    HubStep s (if (s.port p).link.state = .up then (s.updLink p f).announceLeft p else s.updLink p f) :=
  .of_only depart_only (fun h => .inl (hconn (depart_connected h))) (depart_calm hw hd)

/-- The notice of the departure aside, a link that has left its state is one that departs. -/
theorem leftFrom_port {f : LinkRec → LinkRec} {b : LinkState} {n : Option Nat} (hb : b = (s.port p).link.state) (q : Port) :
    ((s.updLink p f).leftFrom p b n).port q =
      (if (s.port p).link.state = .up then (s.updLink p f).announceLeft p else s.updLink p f).port q := by
  subst hb
  unfold State.leftFrom
  split
  · exact (linkEvent_same _ p _ n).1 q
  · rfl

theorem leave_step {f : LinkRec → LinkRec} {b : LinkState} {n : Option Nat} (hb : b = (s.port p).link.state)
    (hconn : (f (s.port p).link).state.connected = true → (s.port p).link.state.connected = true)
    (hw : (s.port p).link.window = none → (f (s.port p).link).window = none)
    (hd : (f (s.port p).link).degraded = (s.port p).link.degraded) : HubStep s ((s.updLink p f).leftFrom p b n) := by
  refine .of_only ((updLink_only s p f).trans (leftFrom_only _ p b n)) (fun h => .inl (hconn ?_)) ?_ <;>
    rw [leftFrom_port hb] at *
  · exact depart_connected h
  · exact depart_calm hw hd

theorem attemptAt_kept (now : Time) (r : Rate) (l : LinkRec) : (LinkRec.attemptAt now r l).state = l.state ∧
    (LinkRec.attemptAt now r l).window = l.window ∧ (LinkRec.attemptAt now r l).degraded = l.degraded := ⟨rfl, rfl, rfl⟩

/-- R9: a new attempt. -/
theorem attemptAt_step {now : Time} {r : Rate} : HubStep s (s.updLink p (LinkRec.attemptAt now r)) := by
  obtain ⟨hstate, hwindow, hdegraded⟩ := attemptAt_kept now r (s.port p).link
  exact updLink_step hstate (.inr ⟨fun h => hwindow.trans h, hdegraded⟩)

/-- R16: an UP link that retrains. -/
theorem enterRetraining_step {r : Rate} {n : Option Nat} (hup : (s.port p).link.state = .up) :
    HubStep s (s.enterRetraining p r n) := by
  have h1 : HubStep s ((s.updLink p (fun l => { l with state := .retraining })).leftFrom p .up n) :=
    leave_step hup.symm (fun _ => by rw [hup]; rfl) id rfl
  exact (h1.trans (handDown_step (p := p) (.rateSet r))).trans attemptAt_step

/-- R5, R19: the link of a port whose power has gone. -/
theorem linkPowerLeft_step : HubStep s (s.linkPowerLeft p) := by
  unfold State.linkPowerLeft
  exact .ite (fun _ => updLink_step rfl (.inr ⟨id, rfl⟩)) fun _ => leave_step rfl nofun (fun _ => rfl) rfl

/-- R12: where the link was UP, the port is quiet. -/
theorem linkPowerLeft_calm : Calm (s.port p) ((s.linkPowerLeft p).port p) := by
  unfold State.linkPowerLeft
  dsimp only
  split
  · exact .of_same (by simp) (by simp) (by simp) (by simp) (by simp) (by simp) fun k hk => .inl (by simpa using hk)
  · rw [leftFrom_port rfl]
    exact depart_calm (fun _ => rfl) rfl

/-- R19: it is connected no more. -/
theorem linkPowerLeft_connected : ((s.linkPowerLeft p).port p).link.state.connected = false := by
  unfold State.linkPowerLeft
  dsimp only
  split
  · rename_i h
    rw [State.updLink_port_link]
    obtain h | h := h <;> simp only [h] <;> rfl
  · rw [leftFrom_port rfl]
    exact Bool.eq_false_iff.2 fun h => absurd (depart_connected h) (by simp [LinkRec.enterDown, LinkState.connected])

theorem handDown_link (k : DownPacket) (q : Port) : ((s.handDown p k).port q).link = (s.port q).link :=
  (links_trafficClosed s).handDown (fun _ => rfl) q

/-- R8: a training attempt of a connected port. -/
theorem startTraining_step {i : Identity} (h : (s.port p).link.state.connected = true) : HubStep s (s.startTraining p i) := by
  unfold State.startTraining
  refine .trans (handDown_step _) (leave_step ?_ (fun _ => ?_) id rfl) <;> rw [handDown_link]
  exact h

/-- R7: a link that enters DOWN for its camera's power class. -/
theorem classDown_step : HubStep s (s.classDown p) := by
  unfold State.classDown
  dsimp only
  split
  · exact leave_step rfl nofun (fun _ => rfl) rfl
  · rename_i hup
    have h := depart_step (s := s) (p := p) (f := LinkRec.enterDown .classOverAllotment) nofun (fun _ => rfl) rfl
    rw [if_neg hup] at h
    exact h.trans linkEvent_step

/-- R14, R15: a window of an UP link that is followed by the next. -/
theorem nextWindow_step {w : Window} {b : Bool} (hup : (s.port p).link.state = .up) : HubStep s (s.nextWindow p w b) := by
  unfold State.nextWindow
  have h1 : HubStep s (s.updLink p (fun l => { l with window := some ⟨w.start + ms 1000, 0⟩, degraded := b })) :=
    updLink_step rfl (.inl hup)
  exact .ite (fun _ => h1) fun _ => h1.trans linkEvent_step

theorem judgeWindow_step {w : Window} (hup : (s.port p).link.state = .up) : HubStep s (s.judgeWindow p w) := by
  unfold State.judgeWindow
  refine .ite (fun _ => ?_) fun _ => nextWindow_step hup
  split
  · exact enterRetraining_step hup
  · exact nextWindow_step hup

end Sys2Proof.Machine
end

section
/-! PROOFS. Sound steps of port power: admission, the start queue, and what takes a port out of the energized states (O10, O11). -/

namespace Sys2Proof.Machine

variable {s t u : State} {p : Port}

/-! ## The power of one port -/

/-- A change of a port's power part does not stir its traffic. -/
theorem Calm.of_power {r u : PortRec} (w : PowerRec) (h : Calm { r with power := w } u) : Calm r u := ⟨h.quiet, h.active⟩

theorem mem_allPorts (q : Port) : q ∈ allPorts := (by decide : ∀ q : Port, q ∈ allPorts) q

/-- Two sums over a list that differ at one place of it. -/
theorem sum_map_of_ne {α : Type} {a : α} {f g : α → Nat} (h : ∀ b, b ≠ a → g b = f b) : ∀ {l : List α}, l.Nodup →
    ((a ∉ l → (l.map g).sum = (l.map f).sum) ∧ (a ∈ l → (l.map g).sum + f a = (l.map f).sum + g a))
  | [], _ => ⟨fun _ => rfl, fun hm => nomatch hm⟩
  | b :: l, hn => by
    obtain ⟨hb, hn⟩ := List.nodup_cons.1 hn
    obtain ⟨hout, hin⟩ := sum_map_of_ne h hn
    simp only [List.map_cons, List.sum_cons, List.mem_cons, not_or]
    refine ⟨fun ⟨hne, hl⟩ => by rw [h b (Ne.symm hne), hout hl], fun hm => ?_⟩
    rcases hm with rfl | hm
    · rw [hout hb]
      omega
    · have hba : b ≠ a := fun hba => hb (hba ▸ hm)
      have := hin hm
      rw [h b hba]
      omega

/-- The sum of the allotments, when those of one port alone have changed. -/
theorem allotted_of_ne (h : ∀ q, q ≠ p → (t.port q).power.allotment = (s.port q).power.allotment) :
    t.allotted + (s.port p).power.allotment.getD 0 = s.allotted + (t.port p).power.allotment.getD 0 :=
  (sum_map_of_ne (f := fun q => (s.port q).power.allotment.getD 0) (g := fun q => (t.port q).power.allotment.getD 0)
    (fun q hq => by rw [h q hq]) (by decide)).2 (mem_allPorts p)

/-- R26: no allotment exceeds the sum of all. -/
theorem allotment_le (s : State) (p : Port) : (s.port p).power.allotment.getD 0 ≤ s.allotted := by
  have h := allotted_of_ne (p := p) (s := s) (t := s.updPower p fun w => { w with allotment := none })
    (fun q hq => by simp [hq.symm])
  simp at h
  omega

/-- A change of one port's power, its marks as they were, with the books of the manager following. -/
theorem Books.of_power (h : Books s) (hport : ∀ q, q ≠ p → t.port q = s.port q) (hp : PortAccount (t.port p))
    (hmarks : (t.port p).marks = (s.port p).marks)
    (hsum : t.mgr.committed + (s.port p).power.allotment.getD 0 = s.mgr.committed + (t.port p).power.allotment.getD 0)
    (hbudget : t.mgr.committed ≤ t.effectiveBudget)
    (hstarts : ∀ q ∈ t.mgr.startQueue, (q ≠ p ∧ q ∈ s.mgr.startQueue) ∨ (t.port q).power.state = .queued)
    (he : t.engine = s.engine) : Books t := by
  have hm : ∀ q, (t.port q).marks = (s.port q).marks := fun q => by
    by_cases hq : q = p
    · exact hq ▸ hmarks
    · rw [hport q hq]
  have hall := allotted_of_ne (s := s) (t := t) (p := p) fun q hq => by rw [hport q hq]
  refine ⟨fun q => ?_, ?_, hbudget, fun q hq => (hstarts q hq).elim (fun ⟨hne, hmem⟩ => ?_) id, fun e hq => ?_, fun e hq => ?_,
    he ▸ h.nodup⟩
  · by_cases hq : q = p
    · exact hq ▸ hp
    · rw [hport q hq]; exact h.port q
  · have := h.sum
    omega
  · rw [hport q hne]; exact h.starts q hmem
  · rw [hm]; exact h.pending e (he ▸ hq)
  · rw [hm, he]; exact h.current e (he ▸ hq)

/-- A change of one port's power part alone, of a port whose receiver is not connected unless it is ON afterwards. -/
theorem HubStep.of_power (h : Accounts s → Books t) (hport : ∀ q, q ≠ p → t.port q = s.port q) {w : PowerRec}
    (hp : t.port p = { s.port p with power := w })
    (hconn : Accounts s → (s.port p).link.state.connected = true → w.state = .on) : HubStep s t := by
  refine fun hs => ⟨⟨h hs, fun q hq => ?_⟩, fun q => ?_⟩ <;> by_cases hqp : q = p
  · subst hqp; rw [hp] at hq ⊢; exact hconn hs hq
  · rw [hport q hqp] at hq ⊢; exact hs.connected q hq
  · subst hqp; rw [hp]; exact .of_power w (.refl _)
  · rw [hport q hqp]; exact .refl _

/-- A change of a power part that keeps its state and its allotment. -/
theorem updPower_step {f : PowerRec → PowerRec} (ha : (f (s.port p).power).allotment = (s.port p).power.allotment)
    (hs : (f (s.port p).power).state = (s.port p).power.state) : HubStep s (s.updPower p f) := by
  refine .of_power (p := p) (w := f (s.port p).power) (fun h => h.toBooks.congr (fun q => ?_) rfl rfl rfl rfl)
    (fun q hq => by simp [hq.symm]) (by simp [State.updPower]) fun h hc => hs.trans (h.connected p hc)
  by_cases hq : q = p
  · subst hq; simp [ha, hs]
  · simp [Ne.symm hq]

theorem powerEvent_step {b : Bool} {e : PowerEvent} : HubStep s (s.powerEvent b e) := .of_masters (powerEvent_same s b e)

/-- A change of the manager outside the books. -/
theorem updMgr_step {f : PowerMgr → PowerMgr} (h : f s.mgr = { s.mgr with
    stagger := (f s.mgr).stagger, lastInrushEnd := (f s.mgr).lastInrushEnd, supply := (f s.mgr).supply
    restoreSet := (f s.mgr).restoreSet, startUpPending := (f s.mgr).startUpPending }) : HubStep s (s.updMgr f) := by
  have hm : (s.updMgr f).mgr = f s.mgr := rfl
  have hc : (f s.mgr).committed = s.mgr.committed := by rw [h]
  have hq : (f s.mgr).startQueue = s.mgr.startQueue := by rw [h]
  have hb : (f s.mgr).budget = s.mgr.budget := by rw [h]
  exact fun hs => ⟨⟨hs.toBooks.congr (fun q => ⟨rfl, rfl, rfl⟩) hc hq (effectiveBudget_congr rfl hb) rfl, hs.connected⟩,
    fun q => .refl _⟩

/-! ## The start queue and admission (R26 to R33) -/

/-- R33: the start of a port that is QUEUED. -/
theorem startPort_step (hp : (s.port p).power.state = .queued) : HubStep s (s.startPort p) := by
  have hself := startPort_port_self s p
  have hne : ∀ q, q ≠ p → (s.startPort p).port q = s.port q := fun q hq => startPort_port_of_ne s hq
  refine fun hs => ⟨⟨hs.toBooks.of_power hne ⟨?_, ?_⟩ ?_ ?_ hs.budget (fun q hq => .inl ?_) rfl, fun q hq => ?_⟩, fun q => ?_⟩
  · rw [hself]
    simpa [PowerRec.enterInrush, PowerState.committed, hp] using (hs.port p).allotment
  · rw [hself]
    intro hm
    simpa [hp] using (hs.port p).marks hm
  · rw [hself]
  · rw [hself]; rfl
  · have := List.mem_filter.1 hq
    exact ⟨by simpa using this.2, this.1⟩
  · by_cases hqp : q = p
    · subst hqp
      rw [hself] at hq
      exact absurd (hs.connected q hq) (by simp [hp])
    · rw [hne q hqp] at hq ⊢; exact hs.connected q hq
  · by_cases hqp : q = p
    · subst hqp
      rw [hself]
      exact .of_same id id id id ⟨rfl, rfl⟩ rfl fun k => .inl
    · rw [hne q hqp]; exact .refl _

/-- R32: a test of the head of the start queue. -/
theorem testHead_step : HubStep s s.testHead := by
  refine .of_accounts fun hs => ?_
  obtain h | ⟨q, rest, hq, -, -, h⟩ := testHead_cases s <;> rw [h]
  · exact .refl s
  · exact startPort_step (hs.starts q (hq ▸ List.mem_cons_self))

theorem testJoined_step {l : List Port} : HubStep s (s.testJoined l) := .when fun _ => testHead_step

/-- R27: what an admission's outcome DONE says of an OFF port. -/
theorem admissionOutcome_done (h : s.admissionOutcome p = .done) (hoff : (s.port p).power.state = .off) :
    (s.port p).marks.lockout = false ∧ (s.port p).held = false ∧ s.mgr.supply = .normal ∧
      s.mgr.committed + (s.port p).profile.allotment ≤ s.effectiveBudget := by
  unfold State.admissionOutcome at h
  dsimp only at h
  rw [hoff] at h
  split at h
  · cases h
  rename_i hlock
  split at h
  · cases h
  rename_i hheld
  rw [if_neg (by decide)] at h
  split at h
  · cases h
  rename_i hsupply
  rw [if_neg (by decide)] at h
  split at h
  · cases h
  rename_i hbudget
  refine ⟨by simpa using hlock, by simpa [PortRec.held] using hheld, ?_, by omega⟩
  cases hm : s.mgr.supply
  · rfl
  · exact absurd hm hsupply

/-- R27: an admission. -/
theorem admitPort_step : HubStep s (s.admitPort p) := by
  obtain ⟨h, hdone, hoff⟩ | h := admit_cases s p <;> rw [h]
  · obtain ⟨hlock, hheld, -, hbudget⟩ := admissionOutcome_done hdone hoff
    have hself := commitPort_port_self s p
    have hne : ∀ q, q ≠ p → (s.commitPort p).port q = s.port q := fun q hq => commitPort_port_of_ne s hq
    refine .of_power (p := p) (fun hs => hs.toBooks.of_power hne ⟨?_, ?_⟩ ?_ ?_ hbudget (fun q hq => ?_) rfl) hne hself
      fun hs hc => absurd (hs.connected p hc) (by simp [hoff])
    · rw [hself]; rfl
    · rw [hself]
      intro hm
      exact absurd hm (by simp [PortRec.held] at hheld ⊢; simp [hheld, hlock])
    · rw [hself]
    · rw [commitPort_mgr, hself]
      have : (s.port p).power.allotment = none := by
        simpa [hoff, PowerState.committed] using (hs.port p).allotment
      simp [this]
    · rw [commitPort_mgr] at hq
      obtain hq | hq := List.mem_append.1 hq
      · by_cases hqp : q = p
        · subst hqp; exact .inr (by rw [hself])
        · exact .inl ⟨hqp, hq⟩
      · rw [List.mem_singleton.1 hq, hself]; exact .inr rfl
  · exact .refl s

theorem autoAdmit_step {o : AdmitOrigin} : HubStep s (s.autoAdmit o p) := .ite (fun _ => admitPort_step) fun _ => powerEvent_step

theorem admitList_step : ∀ (l : List Port) (s : State), HubStep s (s.admitList l).2
  | [], s => .refl s
  | _ :: l, _ => admitPort_step.trans (admitList_step l _)

/-! ## Leaving the energized states (R26, R30, R31, R36, R37) -/

theorem leaveEnergized_port_of_ne {b : PowerState} {q : Port} (h : q ≠ p) : (s.leaveEnergized p b).port q = s.port q := by
  unfold State.leaveEnergized
  dsimp only
  rw [(linkPowerLeft_only _ p).1.1 q h]
  have hq : (s.updPower p (PowerRec.deenergize s.now)).port q = s.port q := by simp [h.symm]
  split
  · exact hq
  · exact hq

/-- R37: before the link leaves, power alone has changed. -/
theorem leaveEnergized_eq (s : State) (p : Port) (b : PowerState) :
    ∃ v : State, s.leaveEnergized p b = v.linkPowerLeft p ∧
      v.port p = { s.port p with power := PowerRec.deenergize s.now (s.port p).power } ∧
      (Books s → Books v) := by
  have h1 : Books s → Books (s.updPower p (PowerRec.deenergize s.now)) := fun h => by
    refine h.congr (fun q => ?_) rfl rfl rfl rfl
    by_cases hq : q = p
    · subst hq; simp [PowerRec.deenergize]
    · simp [Ne.symm hq]
  have hself : (s.updPower p (PowerRec.deenergize s.now)).port p =
      { s.port p with power := PowerRec.deenergize s.now (s.port p).power } := State.updPort_port_self s p _
  by_cases hb : b = .inrush
  · refine ⟨(s.updPower p (PowerRec.deenergize s.now)).updMgr fun g => { g with lastInrushEnd := some s.now }, ?_, ?_,
      fun h => (h1 h).congr (fun _ => ⟨rfl, rfl, rfl⟩) rfl rfl rfl rfl⟩
    · simp [State.leaveEnergized, hb]
    · exact hself
  · exact ⟨_, by simp [State.leaveEnergized, hb], hself, h1⟩

theorem leaveEnergized_books {b : PowerState} (h : Books s) : Books (s.leaveEnergized p b) := by
  obtain ⟨v, hv, -, hbooks⟩ := leaveEnergized_eq s p b
  rw [hv]
  exact (hbooks h).of_only (linkPowerLeft_only v p)

theorem leaveEnergized_calm {b : PowerState} : Calm (s.port p) ((s.leaveEnergized p b).port p) := by
  obtain ⟨v, hv, hport, -⟩ := leaveEnergized_eq s p b
  rw [hv]
  refine .of_power (PowerRec.deenergize s.now (s.port p).power) ?_
  rw [← hport]
  exact linkPowerLeft_calm

theorem leaveEnergized_connected {b : PowerState} : ((s.leaveEnergized p b).port p).link.state.connected = false := by
  obtain ⟨v, hv, -, -⟩ := leaveEnergized_eq s p b
  rw [hv]
  exact linkPowerLeft_connected

/-- A port whose power part has changed and which then leaves the energized states. -/
theorem HubStep.of_leave {b : PowerState} (h : Accounts s → Books u) (hport : ∀ q, q ≠ p → u.port q = s.port q)
    {w : PowerRec} (hp : u.port p = { s.port p with power := w }) : HubStep s (u.leaveEnergized p b) := by
  refine fun hs => ⟨⟨leaveEnergized_books (h hs), fun q hq => ?_⟩, fun q => ?_⟩ <;> by_cases hqp : q = p
  · subst hqp; exact absurd hq (by simp [leaveEnergized_connected])
  · rw [leaveEnergized_port_of_ne hqp, hport q hqp] at hq ⊢; exact hs.connected q hq
  · subst hqp; exact .of_power w (hp ▸ leaveEnergized_calm)
  · rw [leaveEnergized_port_of_ne hqp, hport q hqp]; exact .refl _

/-- R26: what entry into OFF does to the books. -/
theorem enterOff_books {c : OffCause} (h : Books s) : Books (s.enterOff p c) := by
  have hself := enterOff_port_self s p c
  have hle : (s.port p).power.allotment.getD 0 ≤ s.mgr.committed := h.sum ▸ allotment_le s p
  refine h.of_power (p := p) (fun q hq => enterOff_port_of_ne s c hq) ?_ (by rw [hself]) ?_ ?_ (fun q hq => .inl ?_) rfl
  · rw [hself]; exact ⟨rfl, fun _ => .inl rfl⟩
  · rw [enterOff_mgr, hself]
    exact Nat.sub_add_cancel hle
  · exact Nat.le_trans (Nat.sub_le _ _) h.budget
  · have := List.mem_filter.1 hq
    exact ⟨by simpa using this.2, this.1⟩

/-- R30, R31: a port is switched off. -/
theorem switchOff_step {c : OffCause} : HubStep s (s.switchOff p c) := by
  unfold State.switchOff
  dsimp only
  refine .unless fun hcommitted => .trans ?_ powerEvent_step
  refine .ite (fun _ => .of_leave (fun hs => enterOff_books hs.toBooks) (fun q hq => enterOff_port_of_ne s c hq)
    (enterOff_port_self s p c)) fun hen => ?_
  refine .of_power (p := p) (fun hs => enterOff_books hs.toBooks) (fun q hq => enterOff_port_of_ne s c hq)
    (enterOff_port_self s p c) fun hs hc => absurd (hs.connected p hc) fun hon => hen ?_
  rw [hon]; rfl

theorem switchOffBy_step {c : OffCause} : HubStep s (s.switchOffBy p c) := .when fun _ => switchOff_step.trans testHead_step

end Sys2Proof.Machine
end

section
/-! PROOFS. Sound steps of the break finder, and of what takes ports out of the energized states and queues sweeps: trips, the
undercurrent rule, entry into LOST, an accepted HELLO, the supply (O10, O11). -/

namespace Sys2Proof.Machine

variable {s t u : State} {p : Port}

/-! ## The break finder (R49, R52, R53) -/

/-- A change of one port's marks and link and of the engine, of a port that is OFF or TRIPPED and stays disconnected. -/
theorem HubStep.of_engine (hm : t.mgr = s.mgr) (hp : t.presets = s.presets) (hport : ∀ q, q ≠ p → t.port q = s.port q)
    (hpower : (t.port p).power = (s.port p).power)
    (hoff : Accounts s → (s.port p).power.state = .off ∨ (s.port p).power.state = .tripped)
    (hconn : (t.port p).link.state.connected = true → (s.port p).link.state.connected = true)
    (hcalm : (s.port p).link.state ≠ .up → Calm (s.port p) (t.port p))
    (hpending : Accounts s → ∀ e ∈ t.engine.queue, (t.port e.port).marks.sweepPending = true)
    (hcurrent : Accounts s → ∀ e, t.engine.current = some e →
      (t.engine.state = .dischargeWait ∧ (t.port e.port).marks.sweepPending = true) ∨
      (t.engine.state = .acquiring ∧ (t.port e.port).marks.testing = true))
    (hnodup : Accounts s → ((t.engine.current.toList ++ t.engine.queue).map SweepEntry.port).Nodup) : HubStep s t := by
  intro hs
  have hoff := hoff hs
  have hall : ∀ q, (t.port q).power = (s.port q).power := fun q => by
    by_cases hq : q = p
    · exact hq ▸ hpower
    · rw [hport q hq]
  have hdown : (s.port p).link.state.connected ≠ true := fun hc => by
    rw [hs.connected p hc] at hoff
    exact hoff.elim nofun nofun
  refine ⟨⟨⟨fun q => ⟨?_, fun hq => ?_⟩, ?_, ?_, fun q hq => ?_, hpending hs, hcurrent hs, hnodup hs⟩, fun q hq => ?_⟩,
    fun q => ?_⟩
  · rw [hall]; exact (hs.port q).allotment
  · by_cases hqp : q = p
    · rw [hall, hqp]; exact hoff
    · rw [hport q hqp] at hq ⊢; exact (hs.port q).marks hq
  · rw [hm, hs.sum]; exact (allotted_congr fun q => by rw [hall]).symm
  · rw [hm, effectiveBudget_congr hp (by rw [hm])]; exact hs.budget
  · rw [hall]; exact hs.starts q (hm ▸ hq)
  · by_cases hqp : q = p
    · subst hqp; exact absurd (hconn hq) hdown
    · rw [hport q hqp] at hq ⊢; exact hs.connected q hq
  · by_cases hqp : q = p
    · subst hqp
      exact hcalm fun hup => hdown (by rw [hup]; rfl)
    · rw [hport q hqp]; exact .refl _

/-- R53: the engine enters ACQUIRING for its current entry, which has waited for its discharge. -/
theorem enterAcquiring_step {e : SweepEntry} (he : s.engine.current = some e) (hw : s.engine.state = .dischargeWait) :
    HubStep s (s.enterAcquiring e) := by
  have hself := enterAcquiring_port_self s e
  have hne : ∀ q, q ≠ e.port → (s.enterAcquiring e).port q = s.port q := fun q hq => enterAcquiring_port_of_ne s e hq
  have hheld : Accounts s → (s.port e.port).marks.sweepPending = true := fun hs => by
    obtain ⟨-, h⟩ | ⟨h, -⟩ := hs.current e he
    · exact h
    · rw [hw] at h; cases h
  refine .of_engine (p := e.port) rfl rfl hne ?_ (fun hs => (hs.port e.port).marks (by simp [PortRec.held, hheld hs])) ?_
    (fun hup => ?_) (fun hs x hx => ?_) (fun hs x hx => ?_) fun hs => hs.nodup
  · rw [hself]
  · rw [hself]; exact nofun
  · rw [hself]
    exact .of_same (fun h => absurd h hup) id id id ⟨rfl, rfl⟩ rfl fun k => .inl
  · have hmem : x ∈ s.engine.queue := hx
    have hnodup := hs.nodup
    rw [he, Option.toList_some, List.map_append, List.nodup_append] at hnodup
    rw [hne x.port fun h => hnodup.2.2 e.port (by simp) x.port (List.mem_map_of_mem hmem) h.symm]
    exact hs.pending x hmem
  · have hx : s.engine.current = some x := hx
    obtain rfl : e = x := Option.some.inj (he.symm.trans hx)
    rw [hself]
    exact .inr ⟨rfl, rfl⟩

/-- R52: an IDLE engine takes the head entry. -/
theorem takeEntry_step : HubStep s s.takeEntry := by
  obtain ⟨h, -⟩ | ⟨e, rest, hidle, hq, h⟩ := takeEntry_cases s
  · rw [h]; exact .refl s
  · have hstep : HubStep s (s.updEngine (fun g => { g with
        queue := rest, current := some e, state := .dischargeWait
        dischargeEnd := some ((s.port e.port).power.deenergized + ms 100) })) := by
      have hmem : e ∈ s.engine.queue := hq ▸ List.mem_cons_self
      refine .of_engine (p := e.port) rfl rfl (fun _ _ => rfl) rfl
        (fun hs => (hs.port e.port).marks (by simp [PortRec.held, hs.pending e hmem])) id (fun _ => .refl _)
        (fun hs x hx => hs.pending x (hq ▸ List.mem_cons_of_mem _ hx)) (fun hs x hx => .inl ⟨rfl, ?_⟩) fun hs => ?_
      · obtain rfl : e = x := Option.some.inj hx
        exact hs.pending e hmem
      · have hcur : s.engine.current = none := by
          cases hc : s.engine.current with
          | none => rfl
          | some x =>
            obtain ⟨hd, -⟩ | ⟨hd, -⟩ := hs.current x hc <;> rw [hidle] at hd <;> cases hd
        simpa [hcur, hq] using hs.nodup
    obtain ⟨-, h⟩ | ⟨-, h⟩ := h <;> rw [h]
    · exact hstep
    · exact hstep.trans (enterAcquiring_step rfl rfl)

/-- R49: an append for a port that is OFF or TRIPPED. -/
theorem sweepAppend_step {c : SweepCause} {m : Option Master} {n : Option Nat}
    (hoff : Accounts s → (s.port p).power.state = .off ∨ (s.port p).power.state = .tripped) :
    HubStep s (s.sweepAppend p c m n) := by
  unfold State.sweepAppend
  dsimp only
  refine .unless fun hfree => .trans ?_ takeEntry_step
  simp only [Bool.or_eq_true, not_or, Bool.not_eq_true] at hfree
  obtain ⟨hpending, htesting⟩ := hfree
  have hmarks : ∀ q, (((s.updMarks p fun m => { m with sweepPending := true }).updEngine fun g =>
      { g with queue := g.queue ++ [⟨p, c, m, n⟩] }).port q).marks =
        if q = p then { (s.port p).marks with sweepPending := true } else (s.port q).marks := fun q => by
    rw [State.updEngine_port]
    split
    · rename_i h; subst h; simp
    · rename_i h; simp [Ne.symm h]
  refine .of_engine (p := p) rfl rfl (fun q hq => ?_) ?_ hoff ?_ (fun hup => ?_) (fun hs e he => ?_) (fun hs e he => ?_)
    fun hs => ?_
  · simp [hq.symm]
  · simp
  · simp
  · exact .of_same (by simp) (by simp) (by simp) (by simp) (by simp) (by simp) fun k hk => .inl (by simpa using hk)
  · rw [hmarks]
    split
    · rfl
    · rename_i hne
      have hmem : e ∈ s.engine.queue := by
        obtain h | h := List.mem_append.1 he
        · exact h
        · exact absurd (by rw [List.mem_singleton.1 h]) hne
      exact hs.pending e hmem
  · have hcur := hs.current e he
    rw [hmarks]
    split
    · rename_i heq
      exact absurd hcur (by simp [heq, hpending, htesting])
    · exact hcur
  · have hq : p ∉ ((s.engine.current.toList ++ s.engine.queue).map SweepEntry.port) := fun hmem => by
      obtain ⟨e, he, heq⟩ := List.mem_map.1 hmem
      obtain he | he := List.mem_append.1 he
      · exact absurd (hs.current e (by simpa using he)) (by simp [heq, hpending, htesting])
      · exact absurd (hs.pending e he) (by simp [heq, hpending])
    change ((s.engine.current.toList ++ (s.engine.queue ++ [(⟨p, c, m, n⟩ : SweepEntry)])).map SweepEntry.port).Nodup
    rw [← List.append_assoc, List.map_append, List.nodup_append]
    refine ⟨hs.nodup, List.pairwise_singleton _ _, fun a ha b hb hab => hq ?_⟩
    obtain rfl : b = p := by simpa using hb
    exact hab ▸ ha

end Sys2Proof.Machine
end

section
/-! PROOFS. Sound steps of a sweep's end, of the ends of an inrush and a latch, and of what takes ports out of the energized
states and queues sweeps (O10, O11). -/

namespace Sys2Proof.Machine

variable {s t u : State} {p : Port}

/-! ## The end of a sweep (R66, R68) -/

/-- R29: an admission does not read the engine. -/
theorem autoAdmit_updEngine (o : AdmitOrigin) (f : BreakEngine → BreakEngine) :
    (s.updEngine f).autoAdmit o p = (s.autoAdmit o p).updEngine f := by
  have hadmit : (s.updEngine f).admitPort p = (s.admitPort p).updEngine f := by
    unfold State.admitPort
    rw [show (s.updEngine f).admissionOutcome p = s.admissionOutcome p from rfl]
    rw [State.updEngine_port]
    by_cases h : s.admissionOutcome p = .done ∧ (s.port p).power.state = .off
    · rw [if_pos h, if_pos h]; rfl
    · rw [if_neg h, if_neg h]
  unfold State.autoAdmit
  rw [show (s.updEngine f).admissionOutcome p = s.admissionOutcome p from rfl]
  dsimp only
  split
  · exact hadmit
  · rfl

/-- R32: nor does a test of the head of the start queue. -/
theorem testJoined_updEngine (l : List Port) (f : BreakEngine → BreakEngine) :
    (s.updEngine f).testJoined l = (s.testJoined l).updEngine f := by
  have hhead : (s.updEngine f).testHead = s.testHead.updEngine f := by
    unfold State.testHead
    rw [State.updEngine_mgr]
    split
    · rfl
    · rw [show (s.updEngine f).noInrush = s.noInrush from rfl, show (s.updEngine f).gapPassed = s.gapPassed from rfl]
      split <;> rfl
  unfold State.testJoined
  split
  · exact hhead
  · rfl

/-- R66: the record is logged, the port leaves TESTING and the engine its entry. -/
theorem sweepDone_step {e : SweepEntry} {r : BreakRecord} {b : Bool} (he : s.engine.current = some e)
    (hw : s.engine.state = .acquiring) :
    HubStep s ((((s.updPort e.port (fun t => { t with breakLog := appendLog t.breakLog r })).updLink e.port
      (fun l => { l with state := .down, lastCause := some .sweepEnd })).updMarks e.port
      (fun m => { m with testing := false, lockout := m.lockout || b })).updEngine BreakEngine.toIdle) := by
  refine .of_engine (p := e.port) rfl rfl (fun q hq => ?_) (by simp) (fun hs => (hs.port e.port).marks ?_)
    (by simp [LinkState.connected]) (fun hup => ?_) (fun hs x hx => ?_) (fun _ _ => nofun) fun hs => ?_
  · simp [hq.symm]
  · obtain ⟨h, -⟩ | ⟨-, h⟩ := hs.current e he
    · rw [hw] at h; cases h
    · simp [PortRec.held, h]
  · exact .of_same (fun h => absurd h hup) (by simp) (by simp) (by simp) (by simp) (by simp)
      fun k hk => .inl (by simpa using hk)
  · have hp := hs.pending x hx
    by_cases hxe : x.port = e.port
    · rw [hxe] at hp ⊢
      simpa using hp
    · simpa [Ne.symm hxe] using hp
  · have hn := hs.nodup
    rw [List.map_append, List.nodup_append] at hn
    simpa [BreakEngine.toIdle] using hn.2.1

/-- R66, R68: the end of a sweep. -/
theorem endSweep_step {e : SweepEntry} {q : SweepParams} (he : s.engine.current = some e) (hw : s.engine.state = .acquiring) :
    HubStep s (s.endSweep e q) := by
  unfold State.endSweep
  extract_lets r locks s1 s2 restore s3 s4
  refine .trans ?_ takeEntry_step
  have h3 : HubStep s (s3.updEngine BreakEngine.toIdle) :=
    (sweepDone_step (r := r) (b := locks) he hw).trans
      (.of_masters (notifyAll_same (s2.updEngine BreakEngine.toIdle) locks _))
  by_cases hr : restore = true
  · rw [show s4 = (s3.autoAdmit .sweepRestore e.port).testJoined s3.mgr.startQueue from if_pos hr, ← testJoined_updEngine,
      ← autoAdmit_updEngine]
    exact (h3.trans autoAdmit_step).trans testJoined_step
  · rwa [show s4 = s3 from if_neg hr]

theorem execDischargeEnd_step : AnswersIn (HubStep s) (execDischargeEnd s) := by
  refine ⟨_, rfl, ?_⟩
  split
  · rename_i hw he
    exact .when fun _ => enterAcquiring_step he hw
  · exact .refl s

theorem execAcquisitionEnd_step : AnswersIn (HubStep s) (execAcquisitionEnd s) := by
  refine ⟨_, rfl, ?_⟩
  split
  · rename_i hw he _
    exact .when fun _ => endSweep_step he hw
  · exact .refl s

/-- A change of the engine outside the sweep accounts. -/
theorem updEngine_step {f : BreakEngine → BreakEngine} (hq : (f s.engine).queue = s.engine.queue)
    (hs : (f s.engine).state = s.engine.state) (hc : (f s.engine).current = s.engine.current) :
    HubStep s (s.updEngine f) := by
  refine fun h => ⟨⟨⟨h.port, h.sum, h.budget, h.starts, fun e he => h.pending e ?_, fun e he => ?_, ?_⟩, h.connected⟩,
    fun _ => .refl _⟩
  · rwa [State.updEngine_engine, hq] at he
  · rw [State.updEngine_engine, hc] at he
    rw [State.updEngine_engine, hs]
    exact h.current e he
  · rw [State.updEngine_engine, hq, hc]
    exact h.nodup

/-! ## The ends of an inrush and of a latch (R34, R40) -/

/-- R34: the end of an inrush. -/
theorem finishInrush_step (hp : (s.port p).power.state = .inrush) : HubStep s (s.finishInrush p) := by
  refine .of_accounts fun hs => ?_
  have hup : (s.port p).link.state ≠ .up := fun hup => by
    have := hs.connected p (by rw [hup]; rfl)
    rw [hp] at this
    cases this
  unfold State.finishInrush
  extract_lets s1
  suffices h1 : HubStep s s1 from .trans (.trans h1 powerEvent_step) testHead_step
  have h0 : HubStep s (s.updPower p PowerRec.enterOn) := by
    have hself : (s.updPower p PowerRec.enterOn).port p = { s.port p with power := (s.port p).power.enterOn } :=
      State.updPort_port_self s p _
    refine .of_power (p := p) (fun hs => hs.toBooks.of_power (p := p) (fun q hq => by simp [hq.symm]) ⟨?_, fun hm => ?_⟩ ?_ ?_
      hs.budget (fun q hq => .inl ⟨?_, hq⟩) rfl) (fun q hq => by simp [hq.symm]) hself fun _ _ => rfl
    · rw [hself]
      simpa [hp, PowerState.committed, PowerRec.enterOn] using (hs.port p).allotment
    · rw [hself] at hm
      exact absurd ((hs.port p).marks hm) (by simp [hp])
    · rw [hself]
    · rw [hself]; rfl
    · rintro rfl
      have := hs.starts q hq
      rw [hp] at this
      cases this
  have hm : HubStep (s.updPower p PowerRec.enterOn) ((s.updPower p PowerRec.enterOn).updMgr
      fun g => { g with lastInrushEnd := some s.now }) := updMgr_step rfl
  refine (h0.trans hm).trans (.of_only (updLink_only _ p _) (fun _ => .inr ?_) (.of_same (fun h => absurd h ?_) ?_ ?_ ?_ ?_ ?_
    fun k hk => .inl ?_))
  · simp [PowerRec.enterOn]
  · simpa using hup
  · simp [s1, LinkRec.enterAwait]
  · simp [s1, LinkRec.enterAwait]
  · simp [s1]
  · simp [s1]
  · simp [s1]
  · simpa [s1] using hk

/-- R40: LOCKOUT cleared. -/
theorem clearLockout_step : HubStep s (s.updMarks p fun k => { k with lockout := false }) := by
  have hmarks : ∀ q, ((s.updMarks p fun k => { k with lockout := false }).port q).power = (s.port q).power ∧
      ((s.updMarks p fun k => { k with lockout := false }).port q).held = (s.port q).held ∧
      ((s.updMarks p fun k => { k with lockout := false }).port q).marks.sweepPending = (s.port q).marks.sweepPending ∧
      ((s.updMarks p fun k => { k with lockout := false }).port q).marks.testing = (s.port q).marks.testing ∧
      (((s.updMarks p fun k => { k with lockout := false }).port q).marks.lockout = true →
        (s.port q).marks.lockout = true) ∧
      ((s.updMarks p fun k => { k with lockout := false }).port q).link = (s.port q).link := fun q => by
    by_cases hq : p = q
    · subst hq; simp [PortRec.held]
    · simp [hq]
  refine fun hs => ⟨⟨⟨fun q => ⟨?_, fun hq => ?_⟩, ?_, hs.budget, fun q hq => ?_, fun e he => ?_, fun e he => ?_, hs.nodup⟩,
    fun q hq => ?_⟩, fun q => ?_⟩
  · rw [(hmarks q).1]; exact (hs.port q).allotment
  · obtain ⟨hpower, hheld, -, -, hlock, -⟩ := hmarks q
    rw [hpower]
    refine (hs.port q).marks ?_
    rw [hheld] at hq
    simp only [Bool.or_eq_true] at hq ⊢
    exact hq.imp id hlock
  · exact hs.sum.trans (allotted_congr fun q => by rw [(hmarks q).1]).symm
  · rw [(hmarks q).1]; exact hs.starts q hq
  · rw [(hmarks e.port).2.2.1]; exact hs.pending e he
  · rw [(hmarks e.port).2.2.1, (hmarks e.port).2.2.2.1]; exact hs.current e he
  · obtain ⟨hpower, -, -, -, -, hlink⟩ := hmarks q
    rw [hpower]; exact hs.connected q (hlink ▸ hq)
  · by_cases hq : p = q
    · subst hq
      exact .of_same (by simp) (by simp) (by simp) (by simp) (by simp) (by simp) fun k hk => .inl (by simpa using hk)
    · rw [State.updMarks_port_of_ne s _ hq]; exact .refl _

/-- R40: the latch of a TRIPPED port and LOCKOUT cleared. -/
theorem clearFault_step : HubStep s (s.clearFault p) := by
  unfold State.clearFault
  dsimp only
  refine .trans (.when fun hp => .trans ?_ powerEvent_step) clearLockout_step
  · have hself : (s.updPower p fun w => { w with state := .off, lastOff := some .cleared }).port p =
        { s.port p with power := { (s.port p).power with state := .off, lastOff := some .cleared } } :=
      State.updPort_port_self s p _
    refine .of_power (p := p) (fun hs => hs.toBooks.of_power (p := p) (fun q hq => by simp [hq.symm]) ⟨?_, fun hm => ?_⟩ ?_ ?_
      hs.budget (fun q hq => .inl ⟨?_, hq⟩) rfl) (fun q hq => by simp [hq.symm]) hself fun hs hc => ?_
    · rw [hself]
      simpa [hp, PowerState.committed] using (hs.port p).allotment
    · rw [hself]; exact .inl rfl
    · rw [hself]
    · rw [hself]; rfl
    · rintro rfl
      have := hs.starts q hq
      rw [hp] at this
      cases this
    · have := hs.connected p hc
      rw [hp] at this
      cases this

/-- R30: one entry of an off list. -/
theorem offEntry_step : HubStep s (s.offEntry p) := by
  unfold State.offEntry
  exact .trans switchOff_step (.when fun _ => updMgr_step rfl)

/-! ## Trips and the undercurrent rule (R34 to R39) -/

theorem leaveEnergized_power (s : State) (p : Port) (b : PowerState) :
    ((s.leaveEnergized p b).port p).power = PowerRec.deenergize s.now (s.port p).power := by
  obtain ⟨v, hv, hport, -⟩ := leaveEnergized_eq s p b
  rw [hv, (linkPowerLeft_only v p).2.1, hport]

/-- A port that is OFF or TRIPPED does not wait for its start, so a test of the head leaves it; a sweep may be queued for it. -/
theorem testHead_sweep_step {c : SweepCause} {m : Option Master} {n : Option Nat}
    (hp : (s.port p).power.state = .off ∨ (s.port p).power.state = .tripped) :
    HubStep s (s.testHead.sweepAppend p c m n) := by
  refine .of_accounts fun hs => testHead_step.trans (sweepAppend_step fun _ => ?_)
  rw [testHead_port_of_not_mem s fun hq => ?_]
  · exact hp
  · rw [hs.starts p hq] at hp
    exact hp.elim nofun nofun

/-- R36: a trip of an energized port. -/
theorem trip_step {c : TripCause} {n : Nat} (hp : (s.port p).power.state = .inrush ∨ (s.port p).power.state = .on) :
    HubStep s (s.trip p c n) := by
  unfold State.trip
  extract_lets before sweeps s1 s2 queued s3
  refine .trans ?_ powerEvent_step
  have hself : s1.port p = { s.port p with
      power := { (s.port p).power with allotment := none, state := .tripped, lastTrip := some c } } := by
    rw [show s1.port p = _ from State.updPort_port_self _ p _, releaseAllotment_port_self]
  have hne : ∀ q, q ≠ p → s1.port q = s.port q := fun q hq => by
    rw [show s1.port q = _ from State.updPort_port_of_ne _ _ hq.symm, releaseAllotment_port_of_ne s hq]
  have hbooks : Accounts s → Books s1 := fun hs => by
    have hle : (s.port p).power.allotment.getD 0 ≤ s.mgr.committed := hs.sum ▸ allotment_le s p
    refine hs.toBooks.of_power hne ?_ (by rw [hself]) ?_ (Nat.le_trans (Nat.sub_le _ _) hs.budget) (fun q hq => .inl ⟨?_, hq⟩) rfl
    · rw [hself]; exact ⟨rfl, fun _ => .inr rfl⟩
    · rw [hself]; exact Nat.sub_add_cancel hle
    · rintro rfl
      rw [hs.starts q hq] at hp
      exact hp.elim nofun nofun
  have h2 : HubStep s (s1.leaveEnergized p before) := .of_leave hbooks hne hself
  have htripped : ((s1.leaveEnergized p before).port p).power.state = .tripped := by
    rw [leaveEnergized_power, hself]; rfl
  by_cases hsw : sweeps = true
  · rw [show s3 = _ from if_pos hsw]
    exact h2.trans (testHead_sweep_step (.inr htripped))
  · rw [show s3 = _ from if_neg hsw]
    exact h2.trans testHead_step

/-- R39: the undercurrent rule. -/
theorem undercurrentRule_step : HubStep s (s.undercurrentRule p) := by
  unfold State.undercurrentRule
  extract_lets s0 s1 s2
  have h0 : HubStep s s0 := updPower_step rfl rfl
  refine .ite (fun _ => .trans (h0.trans (.trans (u := s2) (.of_leave (b := .on) (u := s0.enterOff p .undercurrent)
    (fun hs => enterOff_books hs.toBooks) (fun q hq => enterOff_port_of_ne _ _ hq) (enterOff_port_self _ p _)) ?_))
      powerEvent_step) fun _ => h0.trans powerEvent_step
  refine testHead_sweep_step (.inl ?_)
  rw [leaveEnergized_power, enterOff_port_self]
  rfl

theorem judgeOn_step {v : Nat} (hp : (s.port p).power.state = .on) : HubStep s (s.judgeOn p v) := by
  unfold State.judgeOn
  extract_lets w overRun under s1
  refine .ite (fun _ => trip_step (.inr hp)) fun _ => .ite (fun _ => trip_step (.inr hp)) fun _ => ?_
  have h1 : HubStep s s1 := updPower_step rfl rfl
  exact .ite (fun _ => h1.trans undercurrentRule_step) fun _ => h1

theorem judgeInrush_step {v : Nat} (hp : (s.port p).power.state = .inrush) : HubStep s (s.judgeInrush p v) := by
  unfold State.judgeInrush
  extract_lets a s1
  have h1 : HubStep s s1 := updPower_step rfl rfl
  have hp1 : (s1.port p).power.state = .inrush ∨ (s1.port p).power.state = .on := .inl (by simpa [s1] using hp)
  exact .ite (fun _ => h1.trans (trip_step hp1)) fun _ => .ite (fun _ => h1.trans (trip_step hp1)) fun _ => h1

theorem takeSample_step {n : Nat} : HubStep s (s.takeSample p n) := by
  unfold State.takeSample
  extract_lets v s1
  have h1 : HubStep s s1 := updPower_step rfl rfl
  have hp1 : (s1.port p).power.state = (s.port p).power.state := by simp [s1]
  split
  · rename_i h; exact h1.trans (judgeInrush_step (hp1.trans h))
  · rename_i h; exact h1.trans (judgeOn_step (hp1.trans h))
  · exact h1

/-! ## LOST, failed attempts and HELLO (R6 to R10, R18) -/

theorem energized_committed : ∀ {w : PowerState}, w.energized = true → w.committed = true
  | .inrush, _ | .on, _ => rfl

/-- R31: an energized port that another block switches off is OFF. -/
theorem switchOff_off {c : OffCause} (hp : (s.port p).power.state.energized = true) :
    ((s.switchOff p c).port p).power.state = .off := by
  have hcom := energized_committed hp
  unfold State.switchOff
  simp only [hcom, hp, Bool.not_true, Bool.false_eq_true, if_false, if_true]
  rw [(powerEvent_same _ _ _).1, leaveEnergized_power, enterOff_port_self]
  rfl

/-- R18: the entry into LOST of a connected link. -/
theorem enterLost_step {c : LinkCause} (hconn : (s.port p).link.state.connected = true) : HubStep s (s.enterLost p c) := by
  refine .of_accounts fun hs => ?_
  unfold State.enterLost
  extract_lets before s1 s2 s3
  have h2 : HubStep s s2 := depart_step (fun _ => hconn) (fun _ => rfl) rfl
  have h3 : HubStep s s3 := h2.trans linkEvent_step
  refine .ite (fun _ => h3.trans ?_) fun _ => h3
  have hpower : (s3.port p).power = (s.port p).power := by
    rw [(linkEvent_same s2 p before none).1, depart_only.2.1]
  have hen : (s3.port p).power.state.energized = true := by rw [hpower, hs.connected p hconn]; rfl
  unfold State.switchOffBy
  rw [if_pos hen]
  exact switchOff_step.trans (testHead_sweep_step (.inl (switchOff_off hen)))

/-- R10: a training attempt that fails. -/
theorem failAttempt_step : HubStep s (s.failAttempt p) := by
  unfold State.failAttempt
  dsimp only
  refine .unless fun htraining => ?_
  split
  · exact (handDown_step _).trans attemptAt_step
  · exact enterLost_step (inTraining_connected (by simpa using htraining))

/-- R124: the axes of an accepted HELLO are those of a quiet port. -/
theorem rebuildAxes_step {v : PerAxis (Option Nat)} : HubStep s (s.rebuildAxes p v) := by
  refine .of_link (updLens_only s p _) (State.updLens_port_link ..) (.of_link (by simp [State.rebuildAxes]) (fun _ hq => ?_)
    fun _ ha => by simpa [State.rebuildAxes] using ha)
  unfold State.rebuildAxes
  obtain ⟨hactive, hidle, horigin, hwindow, hdegraded, hwaiting, -⟩ := hq
  refine ⟨by simpa using hactive, by simpa using hidle, by simpa using horigin, by simpa using hwindow,
    by simpa using hdegraded, by simpa using hwaiting, fun x a ha => ?_⟩
  rw [State.updLens_port_lens, PerAxis.get_map, freshAxis, Option.map_eq_some_iff] at ha
  obtain ⟨v, -, rfl⟩ := ha
  exact ⟨rfl, rfl, rfl, rfl⟩

/-- R6 to R8: a HELLO at a connected receiver. -/
theorem takeHello_step {h : HelloBody} (hconn : (s.port p).link.state.connected = true) : HubStep s (s.takeHello p h) := by
  unfold State.takeHello
  refine .ite (fun _ => updCounters_step) fun _ => ?_
  extract_lets i s1
  have h0 : HubStep s (s.updLink p (LinkRec.recordHello i)) := updLink_step rfl (.inr ⟨id, rfl⟩)
  have h1 : HubStep s s1 := h0.trans rebuildAxes_step
  refine .ite (fun _ => h1.trans (classDown_step.trans switchOffBy_step)) fun _ => h1.trans (startTraining_step ?_)
  simpa [s1, State.rebuildAxes, LinkRec.recordHello] using hconn

end Sys2Proof.Machine
end

section
/-! PROOFS. Sound steps of the supply, the preset store, the intakes and the masters (O10, O11). -/

namespace Sys2Proof.Machine

variable {s t u : State} {p : Port} {m : Master}

/-! ## The supply (R42 to R44) -/

/-- A change of the power parts of some ports. -/
theorem foldl_updPower_port (f : PowerRec → PowerRec) : ∀ (l : List Port) (s : State) (q : Port), l.Nodup →
    (l.foldl (fun t p => t.updPower p f) s).port q =
      if q ∈ l then { s.port q with power := f (s.port q).power } else s.port q
  | [], _, _, _ => by simp
  | p :: l, s, q, hn => by
    obtain ⟨hp, hl⟩ := List.nodup_cons.1 hn
    rw [List.foldl_cons, foldl_updPower_port f l _ q hl]
    by_cases hq : q = p
    · subst hq
      rw [if_neg hp, if_pos List.mem_cons_self]
      exact State.updPort_port_self s q _
    · simp [hq, Ne.symm hq]

/-- R42: the ports that are energized when the supply fails leave their links. -/
def State.supplyLeave (b : State) (t : State) (p : Port) : State :=
  if (b.port p).power.state.energized then t.leaveEnergized p (b.port p).power.state else t

theorem supplyLeave_connected {b : State} {q : Port} (h : ((b.supplyLeave t p).port q).link.state.connected = true) :
    (t.port q).link.state.connected = true ∧ (q = p → (b.port q).power.state.energized = false) := by
  unfold State.supplyLeave at h
  split at h
  · by_cases hq : q = p
    · subst hq
      rw [leaveEnergized_connected] at h
      cases h
    · rw [leaveEnergized_port_of_ne hq] at h
      exact ⟨h, fun hp => absurd hp hq⟩
  · rename_i hen
    exact ⟨h, fun hp => by simpa [hp] using hen⟩

theorem supplyLeave_calm {b : State} {q : Port} : Calm (t.port q) ((b.supplyLeave t p).port q) := by
  unfold State.supplyLeave
  split
  · by_cases hq : q = p
    · subst hq; exact leaveEnergized_calm
    · rw [leaveEnergized_port_of_ne hq]; exact .refl _
  · exact .refl _

theorem foldl_supplyLeave_connected {b : State} {q : Port} : ∀ (l : List Port) (t : State),
    ((l.foldl b.supplyLeave t).port q).link.state.connected = true →
    (t.port q).link.state.connected = true ∧ (q ∈ l → (b.port q).power.state.energized = false)
  | [], _, h => ⟨h, nofun⟩
  | _ :: l, _, h =>
    have ⟨h1, h2⟩ := foldl_supplyLeave_connected l _ h
    have ⟨h3, h4⟩ := supplyLeave_connected h1
    ⟨h3, fun hq => (List.mem_cons.1 hq).elim h4 h2⟩

theorem foldl_supplyLeave_calm {b : State} {q : Port} : ∀ (l : List Port) (t : State),
    Calm (t.port q) ((l.foldl b.supplyLeave t).port q)
  | [], _ => .refl _
  | _ :: l, _ => supplyLeave_calm.trans (foldl_supplyLeave_calm l _)

/-- R42: a port that the supply has switched off. -/
theorem supplyOff_account {r : PortRec} (h : PortAccount r) :
    PortAccount { r with power := r.power.supplyOff } ∧ r.power.supplyOff.allotment = none := by
  unfold PowerRec.supplyOff
  split
  · exact ⟨⟨rfl, fun _ => .inl rfl⟩, rfl⟩
  · rename_i hc
    refine ⟨h, ?_⟩
    have := h.allotment
    simpa [Bool.eq_false_iff.2 hc] using this

/-- R42: the supply state enters LOW. -/
theorem supplyLow_step : HubStep s s.supplyLow := by
  unfold State.supplyLow
  extract_lets set s1 s2 s3
  refine .trans ?_ powerEvent_step
  have hport : ∀ q, s2.port q = { s.port q with power := (s.port q).power.supplyOff } := fun q => by
    rw [show s2.port q = s1.port q from rfl, foldl_updPower_port _ _ _ _ (by decide), if_pos (mem_allPorts q)]
  have hsame : s1.presets = s.presets ∧ s1.engine = s.engine :=
    foldl_closed (P := fun u => u.presets = s.presets ∧ u.engine = s.engine) (fun _ _ h => h) ⟨rfl, rfl⟩
  have hbooks : Accounts s → Books s2 := fun hs => by
    have hengine : s2.engine = s.engine := hsame.2
    refine ⟨fun q => ?_, ?_, Nat.zero_le _, fun q hq => (List.not_mem_nil hq).elim, fun e he => ?_, fun e he => ?_, ?_⟩
    · rw [hport]; exact (supplyOff_account (hs.port q)).1
    · have hnone : ∀ q, (s2.port q).power.allotment = none := fun q => by
        rw [hport]; exact (supplyOff_account (hs.port q)).2
      have hzero : s2.mgr.committed = 0 := rfl
      simp only [hzero, State.allotted, hnone]
      rfl
    · rw [hport]; exact hs.pending e (hengine ▸ he)
    · rw [hport, hengine]; exact hs.current e (hengine ▸ he)
    · rw [hengine]; exact hs.nodup
  have h3 : s3 = allPorts.foldl s.supplyLeave s2 := rfl
  refine fun hs => ⟨⟨?_, fun q hq => ?_⟩, fun q => ?_⟩
  · rw [h3]
    exact foldl_closed (P := Books) (fun _ _ h => when_closed h leaveEnergized_books) (hbooks hs)
  · rw [h3] at hq
    obtain ⟨hconn, hen⟩ := foldl_supplyLeave_connected _ _ hq
    rw [hport] at hconn
    have hoff := hen (mem_allPorts q)
    rw [hs.connected q hconn] at hoff
    cases hoff
  · rw [h3]
    refine .of_power (s.port q).power.supplyOff ?_
    rw [← hport]
    exact foldl_supplyLeave_calm _ _

/-- R43, R44: the supply state enters NORMAL. -/
theorem supplyNormal_step : HubStep s s.supplyNormal := by
  unfold State.supplyNormal
  extract_lets set back s1 _ s2 s3 s4
  have h2 : HubStep s s2 := .trans (updMgr_step rfl) powerEvent_step
  have h3 : HubStep s s3 := (h2.trans (.foldl (fun _ _ => autoAdmit_step) back s2)).trans (updMgr_step rfl)
  refine .trans ?_ testJoined_step
  exact .ite (fun _ => (h3.trans (.foldl (fun _ _ => autoAdmit_step) _ s3)).trans (updMgr_step rfl)) fun _ => h3

/-! ## What the accounts do not mention -/

/-- A change that leaves every port's record, the manager, the engine and the presets. -/
theorem HubStep.of_ports (hport : ∀ q, t.port q = s.port q) (hm : t.mgr = s.mgr) (he : t.engine = s.engine)
    (hp : t.presets = s.presets) : HubStep s t := by
  refine fun hs => ⟨⟨hs.toBooks.congr (fun q => ?_) (by rw [hm]) (by rw [hm]) (effectiveBudget_congr hp (by rw [hm])) he,
    fun q hq => ?_⟩, fun q => hport q ▸ .refl _⟩
  · rw [hport]; exact ⟨rfl, rfl, rfl⟩
  · rw [hport] at hq ⊢; exact hs.connected q hq

theorem HubStep.of_only_all (h : ∀ p, OnlyTraffic s t p) : HubStep s t :=
  .of_ports (port_of_only_all h) (h 0).1.2.2.2.1 (h 0).1.2.2.2.2.1 (h 0).1.2.2.2.2.2.1

theorem updMaster_step {f : MasterRec → MasterRec} : HubStep s (s.updMaster m f) := .of_ports (fun _ => rfl) rfl rfl rfl

theorem updStore_step {f : Store → Store} : HubStep s (s.updStore f) := .of_ports (fun _ => rfl) rfl rfl rfl

/-- What the frame store, the masters and the intakes do, where it leaves a port's intake IDLE as it was. -/
theorem HubStep.beside (h : OnlyTraffic s t p) (hb : (s.port p).sameBesideIntake (t.port p))
    (hi : (s.port p).link.state ≠ .up → (s.port p).quiet → (t.port p).intake.state = .idle ∧
      (t.port p).intake.pendingOrigin = none) : HubStep s t := by
  obtain ⟨hlink, hseq, hlens, hwaiting⟩ := hb
  refine .of_link h hlink (.of_link (by rw [hlink]) (fun hup hq => ?_) fun _ ha => hseq ▸ ha)
  obtain ⟨hidle, horigin⟩ := hi hup hq
  obtain ⟨hactive, -, -, hwindow, hdegraded, hwait, haxes⟩ := hq
  exact ⟨hseq ▸ hactive, hidle, horigin, hlink ▸ hwindow, hlink ▸ hdegraded, hwaiting ▸ hwait, hlens ▸ haxes⟩

/-- A change of a port's profile or subscribers. -/
theorem updPort_step {f : PortRec → PortRec}
    (hf : f (s.port p) = { s.port p with profile := (f (s.port p)).profile, subscribers := (f (s.port p)).subscribers }) :
    HubStep s (s.updPort p f) := by
  have hself := State.updPort_port_self s p f
  rw [hf] at hself
  have hne : ∀ q, q ≠ p → (s.updPort p f).port q = s.port q := fun q hq => State.updPort_port_of_ne s f hq.symm
  refine fun hs => ⟨⟨hs.toBooks.congr (fun q => ?_) rfl rfl rfl rfl, fun q hq => ?_⟩, fun q => ?_⟩ <;> by_cases hqp : q = p
  · subst hqp; rw [hself]; exact ⟨rfl, rfl, rfl⟩
  · rw [hne q hqp]; exact ⟨rfl, rfl, rfl⟩
  · subst hqp; rw [hself] at hq ⊢; exact hs.connected q hq
  · rw [hne q hqp] at hq ⊢; exact hs.connected q hq
  · subst hqp; rw [hself]; exact ⟨id, id⟩
  · rw [hne q hqp]; exact .refl _

/-! ## Requests -/

theorem answered_step {e : RequestEntry} {a : Answer} : HubStep s (s.answered m e a) := by
  unfold State.answered
  exact (updMaster_step (s := s)).trans updMaster_step

/-- A request that is taken does what it does to the state in which it has been taken. -/
theorem takeRequest_step {k : RequestKind} {fits : Bool} {act : State → Answer × State}
    (hact : ∀ u : State, HubStep u (act u).2) : HubStep s (s.takeRequest m k fits act) := by
  have htaken : HubStep s (s.taken m) := updMaster_step
  obtain ht | ⟨e, -, ⟨-, ht⟩ | ⟨-, ht⟩ | ⟨-, -, ht⟩⟩ := takeRequest_cases s m k fits act <;> rw [ht]
  · exact .refl s
  · exact answered_step
  · exact answered_step
  · exact (htaken.trans (hact _)).trans updMaster_step

/-! ## The preset store (R145 to R147) -/

/-- A change of the presets that leaves the write in progress. -/
theorem updPresets_step {f : PresetStore → PresetStore} (h : (f s.presets).write = s.presets.write) :
    HubStep s (s.updPresets f) := by
  have hb : (s.updPresets f).effectiveBudget = s.effectiveBudget := by
    unfold State.effectiveBudget
    rw [State.updPresets_presets, h]
    rfl
  exact fun hs => ⟨⟨hs.toBooks.congr (fun _ => ⟨rfl, rfl, rfl⟩) rfl rfl hb rfl, hs.connected⟩, fun _ => .refl _⟩

/-- R26: the budget that admissions are judged by, while nothing is being written and while something is. -/
theorem effectiveBudget_of_none (h : s.presets.write = none) : s.effectiveBudget = s.mgr.budget := by
  unfold State.effectiveBudget
  rw [h]

theorem effectiveBudget_of_cell {w : Write} {c : Cell} (h : s.presets.write = some w) (hc : w.content = .cell c) :
    s.effectiveBudget = min s.mgr.budget c.budget := by
  unfold State.effectiveBudget
  rw [h]
  dsimp only
  rw [hc]

theorem effectiveBudget_of_other {w : Write} (h : s.presets.write = some w) (hc : ∀ c, w.content ≠ .cell c) :
    s.effectiveBudget = s.mgr.budget := by
  unfold State.effectiveBudget
  rw [h]
  dsimp only
  split
  · rename_i c hw; exact absurd hw (hc c)
  · rfl

theorem effectiveBudget_le (s : State) : s.effectiveBudget ≤ s.mgr.budget := by
  unfold State.effectiveBudget
  split
  · split
    · exact Nat.min_le_left _ _
    · exact Nat.le_refl _
  · exact Nat.le_refl _

/-- A change of the budgets under which the committed sum still lies. -/
theorem HubStep.of_budget (hport : ∀ q, t.port q = s.port q) (hc : t.mgr.committed = s.mgr.committed)
    (hq : t.mgr.startQueue = s.mgr.startQueue) (he : t.engine = s.engine)
    (hb : Accounts s → s.mgr.committed ≤ t.effectiveBudget) : HubStep s t := by
  refine fun hs => ⟨⟨⟨fun q => ?_, ?_, ?_, fun q hm => ?_, fun e hm => ?_, fun e hm => ?_, ?_⟩, fun q hm => ?_⟩,
    fun q => hport q ▸ .refl _⟩
  · rw [hport]; exact hs.port q
  · rw [hc, hs.sum]; exact (allotted_congr fun q => by rw [hport q]).symm
  · rw [hc]; exact hb hs
  · rw [hport]; exact hs.starts q (hq ▸ hm)
  · rw [hport]; exact hs.pending e (he ▸ hm)
  · rw [hport, he]; exact hs.current e (he ▸ hm)
  · rw [he]; exact hs.nodup
  · rw [hport] at hm ⊢; exact hs.connected q hm

theorem writeRefusal_none {st : PresetStore} {k : WriteKind} {r : RecordName} (h : st.writeRefusal k r = none) :
    st.write = none := by
  unfold PresetStore.writeRefusal at h
  split at h
  · cases h
  · rename_i hw
    simpa using hw

/-- R145: a write that starts; the budget of a cell record covers what is committed. -/
theorem takeWrite_step {k : WriteKind} {r : RecordName} {c : NewContent} {l : List (Nat × Nat)}
    (hc : ∀ x, c = .cell x → s.presets.writeRefusal k r = none → s.mgr.committed ≤ x.budget) :
    HubStep s (s.takeWrite m k r c l).2 := by
  unfold State.takeWrite
  split
  · exact .refl s
  · rename_i hw
    refine .of_budget (fun _ => rfl) rfl rfl rfl fun hs => ?_
    have hbudget := hs.budget
    rw [effectiveBudget_of_none (writeRefusal_none hw)] at hbudget
    have hwrite : (s.updPresets fun st => st.startWrite ⟨r, k, m, c, s.now⟩).presets.write = some ⟨r, k, m, c, s.now⟩ := rfl
    by_cases hx : ∃ x, c = .cell x
    · obtain ⟨x, rfl⟩ := hx
      rw [effectiveBudget_of_cell hwrite rfl]
      exact Nat.le_min.2 ⟨hbudget, hc x rfl hw⟩
    · rw [effectiveBudget_of_other hwrite fun x hcx => hx ⟨x, hcx⟩]
      exact hbudget

theorem finishWrite_write (st : PresetStore) (w : Write) (ok : Bool) : (st.finishWrite w ok).write = none := by
  unfold PresetStore.finishWrite
  split <;> rfl

/-- R147: what a completed write leaves of the budgets. -/
theorem loadWritten_step {w : Write} {ok : Bool} (hw : s.presets.write = some w) :
    HubStep s (if ok then (s.updPresets fun st => st.finishWrite w ok).loadWritten w.content w.record
      else s.updPresets fun st => st.finishWrite w ok) := by
  have h1 : HubStep s (s.updPresets fun st => st.finishWrite w ok) :=
    .of_budget (fun _ => rfl) rfl rfl rfl fun hs => by
      rw [effectiveBudget_of_none (finishWrite_write _ w ok)]
      exact Nat.le_trans hs.budget (effectiveBudget_le s)
  refine .ite (fun _ => ?_) fun _ => h1
  unfold State.loadWritten
  split
  · exact h1.trans (updPort_step rfl)
  · rename_i c _ hc
    refine .of_budget (fun _ => rfl) rfl rfl rfl fun hs => ?_
    rw [effectiveBudget_of_none (finishWrite_write s.presets w ok)]
    have hbudget := hs.budget
    rw [effectiveBudget_of_cell hw hc] at hbudget
    exact Nat.le_trans hbudget (Nat.min_le_right _ _)
  · exact h1

end Sys2Proof.Machine
end

section
/-! PROOFS. Sound steps of the sequencer, the lenses, the intakes and the masters (O10, O11). Each runs on a link that is UP, or
for a context that is active, or leaves a quiet port quiet. -/

namespace Sys2Proof.Machine

variable {s t u : State} {p : Port} {m : Master} {a : Analysis}

/-! ## The sequencer (chapter 8) -/

theorem inPhase_active {c : SeqCtx} {f : Phase} (h : c.inPhase f = true) : c.active = true := by
  simp only [SeqCtx.inPhase, Bool.and_eq_true, decide_eq_true_eq] at h
  simp [SeqCtx.active, h.1]

theorem due_active {c : SeqCtx} {now : Time} {f : Phase} (h : c.due now f = true) : c.active = true :=
  inPhase_active (Bool.and_eq_true_iff.1 h).1

theorem boundLive_active {r : PortRec} (h : r.boundLive = true) : r.seq.active = true :=
  inPhase_active (Bool.and_eq_true_iff.1 (Bool.and_eq_true_iff.1 h).1).2

theorem seqEvent_step {b : Bool} {c : SeqCause} {i : Option Nat} : HubStep s (s.seqEvent p b c i) :=
  .of_masters (seqEvent_same s p b c i)

theorem endRun_step {e : EndStatus} {x : EndExtras} (ha : (s.port p).seq.active = true) : HubStep s (s.endRun p e x) :=
  .traffic_active (endRun_only s p e x) (fun hP h => hP.endRun h) ha

theorem seqHoldLapsed_step : HubStep s (s.seqHoldLapsed p) := .when endRun_step

theorem completeStep_step (ha : (s.port p).seq.active = true) : HubStep s (s.completeStep p) :=
  .traffic_active (completeStep_only s p) (fun hP h => hP.completeStep h) ha

theorem seqStoreDone_step {n : Fin 64} : HubStep s (s.seqStoreDone p n) := by
  cases hw : (s.port p).seq.inPhase .storeWait
  · simp only [State.seqStoreDone, hw, Bool.not_false, if_true]
    exact .refl s
  · exact .traffic_active (seqStoreDone_only s p n) (fun hP h => hP.seqStoreDone h) (inPhase_active hw)

theorem seqTeardown_step : HubStep s (s.seqTeardown p m) := .when fun _ => updSeq_step id

/-- R158: a start that nothing stands against finds its link UP. -/
theorem judgeStart_up (h : s.judgeStart p m = .done) : (s.port p).link.state = .up := by
  unfold State.judgeStart at h
  dsimp only at h
  split at h
  · cases h
  · rename_i hc
    refine Classical.byContradiction fun hup => ?_
    exact hc (.inl hup)

theorem startRun_step {c : Option Nat} (h : s.judgeStart p m = .done) : HubStep s (s.startRun p m c) :=
  .traffic_up (startRun_only s p m c) (fun hP h => hP.startRun h) (judgeStart_up h)

theorem cadenceRestart_step : HubStep s (s.cadenceRestart p) := by
  unfold State.cadenceRestart
  split
  · exact .refl s
  · exact .ite startRun_step fun _ => .trans (updSeq_step id) seqEvent_step

theorem cadenceEvent_step : HubStep s (s.cadenceEvent p) := by
  unfold State.cadenceEvent
  extract_lets s1 c
  have h1 : HubStep s s1 := updSeq_step id
  refine .ite (fun _ => h1.trans ?_) fun _ => .ite (fun _ => h1.trans cadenceRestart_step) fun _ => h1
  exact .trans (updSeq_step id) seqEvent_step

theorem takeLoad_step {n : Nat} {l : List Step} : HubStep s (s.takeLoad m n l).2 := by
  unfold State.takeLoad
  split
  · exact .refl s
  · refine ite_answer_closed (.refl s) ?_
    split
    · exact .refl s
    · exact updSeq_step fun h => by cases h

theorem resume_only (s : State) (p : Port) : OnlyTraffic s (s.resume p) p := by
  unfold State.resume
  split
  · exact afterStart_only _ p (startStep_only s p _)
  · exact .refl s p

theorem resume_step (h : (s.port p).seq.state = .held) : HubStep s (s.resume p) :=
  .traffic_active (resume_only s p) (fun hP h => hP.resume h) (by simp [SeqCtx.active, h])

theorem frameTimedOut_only (s : State) (p : Port) : OnlyTraffic s (s.frameTimedOut p) p := by
  unfold State.frameTimedOut
  split
  · exact ite_only ((finalize_only s p _ _).trans (endRun_only _ p _ _)) (endRun_only s p _ _)
  · exact endRun_only s p _ _

/-! ## Trigger edges (R183, R184) -/

theorem fireUnsequenced_step {x : Option Nat} {o : PendingOrigin} (hup : (s.port p).link.state = .up) :
    HubStep s (s.fireUnsequenced p x o) :=
  .traffic_up ((handDown_only s p _).trans (updIntake_only _ p _)) (fun hP h => hP.fireUnsequenced h) hup

theorem deliverEdge_step {l : LineNo} {v : Time} : HubStep s (s.deliverEdge l v p) := by
  unfold State.deliverEdge
  dsimp only
  refine .ite (fun h => ?_) fun _ => .ite (fun _ => updCounters_step) fun _ => .ite (fun _ => updCounters_step) fun h => ?_
  · have ha : (s.port p).seq.active = true := inPhase_active (Bool.and_eq_true_iff.1 h).1
    refine .trans (updSeq_step id) (completeStep_step ?_)
    simpa [SeqCtx.active] using ha
  · exact fireUnsequenced_step (Classical.byContradiction fun hup => h (.inl hup))

theorem updLine_step {l : LineNo} {f : LineRec → LineRec} : HubStep s (s.updLine l f) := .of_ports (fun _ => rfl) rfl rfl rfl

theorem takeEdge_step {l : LineNo} {v : Time} : HubStep s (s.takeEdge l v) :=
  .ite (fun _ => updLine_step) fun _ => .trans updLine_step (.foldl (fun _ _ => deliverEdge_step) _ _)

theorem takeLevel_step {l : LineNo} {v : Level} : HubStep s (s.takeLevel l v) := by
  unfold State.takeLevel
  exact .ite (fun _ => .trans updLine_step takeEdge_step) fun _ => updLine_step

/-! ## The lenses (chapter 6) -/

theorem lensEvent_same (s : State) (p : Port) (c : LensCause) : SameButMasters s (s.lensEvent p c) := by
  unfold State.lensEvent
  exact notifyOpt_same s _ _ _

theorem takeReport_step {l : List ReportEntry} (hup : (s.port p).link.state = .up) : HubStep s (s.takeReport p l) := by
  refine .traffic_up ?_ (fun hP h => hP.takeReport h) hup
  unfold State.takeReport
  extract_lets settled s1 still s2
  have h1 : OnlyTraffic s s1 p := updLens_only s p _
  have h2 : OnlyTraffic s s2 p := ite_only (h1.trans (seqAxisIdle_only s1 p)) h1
  exact ite_only (h2.trans ((lensEvent_same s2 p _).only p)) h2

theorem stopLens_step (hup : (s.port p).link.state = .up) : HubStep s (s.stopLens p) := by
  refine .traffic_up ?_ (fun hP h => hP.stopLens h) hup
  unfold State.stopLens
  extract_lets l changed s1 s2
  have h1 : OnlyTraffic s s1 p := ite_only (.refl s p) (handDown_only s p _)
  have h2 : OnlyTraffic s s2 p := h1.trans (updLens_only s1 p _)
  exact ite_only (h2.trans (seqAxisIdle_only s2 p)) h2

theorem makeMove_step {v : PerAxis (Option Nat)} {n : Nat} {o : Option Master} (hup : (s.port p).link.state = .up) :
    HubStep s (s.makeMove p v n o) := .traffic_up (makeMove_only s p v n o) (fun hP h => hP.makeMove h) hup

theorem breakHold_step : HubStep s (s.breakHold p) := by
  unfold State.breakHold
  split
  · exact .refl s
  · exact .trans (.trans (updLens_step rfl) seqHoldLapsed_step) updMaster_step

theorem withoutMover_axes (l : LensRec) : (if l.mover = some m then { l with mover := none } else l).axes = l.axes := by
  split <;> rfl

theorem lensTeardown_step : HubStep s (State.lensTeardown m s p) := by
  unfold State.lensTeardown
  exact .trans (.when fun _ => .trans (updLens_step rfl) seqHoldLapsed_step) (updLens_step (withoutMover_axes _))

/-- R134: an axis that stalls is MOVING, so its port is not quiet. -/
theorem execLensDeadline_step {x : Axis} : AnswersIn (HubStep s) (execLensDeadline p x s) := by
  refine ⟨_, rfl, ?_⟩
  split
  · rename_i b hb
    refine .when fun hdue => ?_
    have hmoving := hdue.1
    extract_lets s1
    refine .trans (u := (s1.seqAxisStalled p x).lensEvent p (.stalled x)) ?_ (.of_masters (lensEvent_same _ p _))
    have honly : OnlyTraffic s (s1.seqAxisStalled p x) p := (updLens_only s p _).trans (seqAxisStalled_only _ p x)
    have hlink : ((s1.seqAxisStalled p x).port p).link = (s.port p).link :=
      (links_trafficClosed s).seqAxisStalled ((links_trafficClosed s).updLens fun _ => rfl) p
    refine .of_link honly hlink (.of_link (by rw [hlink]) (fun _ hq => ?_) fun _ ha => ?_)
    · have := hq.2.2.2.2.2.2 x b hb
      rw [hmoving] at this
      exact absurd this.1 nofun
    · unfold State.seqAxisStalled
      split
      · exact endRun_inactive _ p _ _
      · simpa [s1] using ha
  · exact .refl s

/-! ## The intakes (chapter 4) -/

/-- R89: an intake that is not IDLE is not that of a quiet port. -/
theorem finalize_step {e : EndTags} {b : Bool} (hi : (s.port p).intake.state ≠ .idle) : HubStep s (s.finalize p e b) := by
  cases ha : (s.port p).seq.active
  · have hlive : (s.port p).boundLive = false := Bool.eq_false_iff.2 fun h => by
      rw [boundLive_active h] at ha
      cases ha
    refine .beside (finalize_only s p e b) ?_ fun _ hq => absurd hq.2.1 hi
    exact (besideIntake_storeClosed s).finalize (sameBesideIntake_refl s) (.inl (by simp [hlive])) p
  · exact .traffic_active (finalize_only s p e b) (fun hP h => hP.finalize h) ha

theorem endDiscard_step {e : DiscardEnd} (hi : (s.port p).intake.state ≠ .idle) : HubStep s (s.endDiscard p e) := by
  cases ha : (s.port p).seq.active
  · have hlive : (s.port p).boundLive = false := Bool.eq_false_iff.2 fun h => by
      rw [boundLive_active h] at ha
      cases ha
    refine .beside (endDiscard_only s p e) ?_ fun _ hq => absurd hq.2.1 hi
    have hreport : s.reportDiscard p e = s := by simp [State.reportDiscard, hlive]
    unfold State.endDiscard
    rw [hreport]
    exact (besideIntake_storeClosed s).updIntake (sameBesideIntake_refl s) p
  · exact .traffic_active (endDiscard_only s p e) (fun hP h => hP.endDiscard h) ha

theorem execInactivityTimeout_step : AnswersIn (HubStep s) (execInactivityTimeout p s) := by
  refine ⟨_, rfl, .unless fun _ => ?_⟩
  split
  · exact .refl s
  · rename_i h; exact finalize_step (by rw [h]; nofun)
  · rename_i h; exact endDiscard_step (by rw [h]; nofun)

theorem writeOldest_step : HubStep s (s.writeOldest p) := by
  unfold State.writeOldest
  split
  · exact .refl s
  · rename_i b rest _
    have hport : ∀ q, (s.writeBuffered b).port q = s.port q := port_of_only_all fun q => writeBuffered_only s q b
    refine .beside (p := p) (((writeBuffered_only s p b).trans (updIntake_only _ p _)).trans (updStore_only _ p _))
      ⟨?_, ?_, ?_, ?_⟩ fun _ hq => ?_
    · simp [hport]
    · simp [hport]
    · simp [hport]
    · simp [hport]
    · simpa [hport] using ⟨hq.2.1, hq.2.2.1⟩

/-- R2: a packet for another block reaches it on a link that is UP. -/
theorem routed_step {act : State → State} (hact : ∀ u, (u.port p).link.state = .up → HubStep u (act u)) :
    HubStep s (s.routed p act) := by
  unfold State.routed
  refine .ite (fun hup => .trans hear_step (hact _ ?_)) fun _ => .trans (.trans hear_step countClean_step) updCounters_step
  simpa [State.hear, LinkRec.heardPacket] using hup

theorem takeLine_step {k : Nat} {l : List Byte} {d : Bool} (hup : (s.port p).link.state = .up) :
    HubStep s (s.takeLine p k l d) := .traffic_up (takeLine_only s p k l d) (fun hP h => hP.takeLine h) hup

theorem execCheckFailedPacket_step {r : Rate} {b : Option (Nat × List Byte)} :
    AnswersIn (HubStep s) (execCheckFailedPacket p r b s) := by
  refine ⟨_, rfl, .unless fun _ => ?_⟩
  extract_lets s1 s2
  have h1 : HubStep s s1 := .trans hear_step updCounters_step
  have hstate : (s1.port p).link.state = (s.port p).link.state := by
    simp [s1, State.countFailed, State.hear, LinkRec.heardPacket]
  split
  · rename_i hup
    have h2 : HubStep s s2 := h1.trans (updLink_step rfl (.inl (hstate.trans hup)))
    split
    · refine h2.trans (takeLine_step ?_)
      simpa [s2, LinkRec.failInWindow] using hstate.trans hup
    · exact h2
  · exact h1.trans failAttempt_step
  · exact h1.trans failAttempt_step
  · exact h1

/-! ## The frame store (chapter 5) -/

theorem handFetch_step {f : FetchMsg} : HubStep s (s.handFetch a f) := updMaster_step

theorem cancelFetches_step {id : Nat} : HubStep s (s.cancelFetches a id) := by
  unfold State.cancelFetches
  exact .trans updStore_step (.foldl (fun _ _ => .trans updStore_step handFetch_step) _ _)

theorem readLine_step {f : Fetch} : HubStep s (s.readLine a f) := by
  unfold State.readLine
  split
  · exact .refl s
  · extract_lets bytes s1
    have h1 : HubStep s s1 := .trans handFetch_step updStore_step
    refine .ite (fun _ => h1.trans ?_) fun _ => h1.trans updStore_step
    exact .trans (.trans updStore_step updStore_step) handFetch_step

theorem execFetchReadGrant_step : AnswersIn (HubStep s) (execFetchReadGrant s) := by
  refine ⟨_, rfl, .unless fun _ => ?_⟩
  split
  · exact .refl s
  · split
    · exact readLine_step
    · exact .refl s

theorem takeFetch_step {tag id first count : Nat} : HubStep s (s.takeFetch a tag id first count).2 := by
  unfold State.takeFetch
  extract_lets r
  split
  · exact .refl s
  · refine ite_answer_closed (.refl s) (ite_answer_closed (.refl s) ?_)
    extract_lets left n clamps
    exact ite_answer_closed (.refl s) (pair_closed updStore_step)

theorem setSubscription_step {v : Bool} : HubStep s (s.setSubscription m p v) := by
  unfold State.setSubscription
  split
  · exact updPort_step rfl
  · exact .refl s

/-! ## Teardown (R199) -/

theorem storeTeardown_step : HubStep s (s.storeTeardown a) := by
  unfold State.storeTeardown
  exact .trans updStore_step (.foldl (fun _ _ => updPort_step rfl) _ _)

theorem teardown_step {b : Bool} : HubStep s (s.teardown m b) := by
  unfold State.teardown
  extract_lets s1 s2 s3 s4
  have h1 : HubStep s s1 := updMaster_step
  have h2 : HubStep s1 s2 := by
    cases m with
    | A => exact storeTeardown_step
    | B => exact storeTeardown_step
    | C => exact .refl s1
  have h3 : HubStep s2 s3 := .foldl (fun _ _ => lensTeardown_step) _ _
  have h4 : HubStep s3 s4 := .foldl (fun _ _ => seqTeardown_step) _ _
  exact (((h1.trans h2).trans h3).trans h4).trans updMaster_step

/-! ## The completion of a write (R147) -/

theorem completeWrite_step {w : Write} {ok : Bool} (hw : s.presets.write = some w) : HubStep s (s.completeWrite w ok) := by
  unfold State.completeWrite
  extract_lets s1 s2 s3 s4
  have h2 : HubStep s s2 := loadWritten_step hw
  have h3 : HubStep s s3 := h2.trans updMaster_step
  have h4 : HubStep s s4 := .ite (fun _ => h3) fun _ => h3.trans testHead_step
  split
  · exact h4.trans (.foldl (fun _ _ => seqStoreDone_step) _ _)
  · exact h4

/-! ## The resets -/

/-- R24, R25, R47, R48: the accounts of a hub whose ports, manager and engine are as a reset leaves them. -/
theorem accounts_of_reset (hport : ∀ q, ∃ f b l, s.port q = PortRec.afterReset f b l)
    (hm : ∃ b g, s.mgr = PowerMgr.afterReset b g) (he : s.engine = BreakEngine.reset) : Accounts s := by
  have hoff : ∀ q, (s.port q).power = PowerRec.reset ∧ (s.port q).link.state = .down := fun q => by
    obtain ⟨f, b, l, h⟩ := hport q
    rw [h]
    exact ⟨rfl, rfl⟩
  obtain ⟨b, g, hm⟩ := hm
  have hsum : s.allotted = 0 := by
    simp only [State.allotted, (hoff _).1]
    rfl
  refine ⟨⟨fun q => ⟨?_, fun _ => .inl ?_⟩, ?_, ?_, fun q hq => ?_, fun e h => ?_, fun e h => ?_, ?_⟩, fun q hq => ?_⟩
  · rw [(hoff q).1]; rfl
  · rw [(hoff q).1]; rfl
  · rw [hm, hsum]; rfl
  · rw [hm]; exact Nat.zero_le _
  · rw [hm] at hq; cases hq
  · rw [he] at h; cases h
  · rw [he] at h; cases h
  · rw [he]; exact List.nodup_nil
  · rw [(hoff q).2] at hq; cases hq

theorem afterReset_port {k : ResetKind} (q : Port) : ∃ f b l, (s.afterReset k).port q = PortRec.afterReset f b l :=
  ⟨_, _, _, by simp only [State.afterReset, State.port, vector_get_ofFn]; rfl⟩

/-- R71, R72: a reset leaves every port quiet and the books empty. -/
theorem afterReset_step {k : ResetKind} : HubStep s (s.afterReset k) := by
  refine fun _ => ⟨accounts_of_reset afterReset_port ⟨_, _, rfl⟩ rfl, fun q => .of_quiet ?_⟩
  obtain ⟨f, b, l, h⟩ := afterReset_port (s := s) (k := k) q
  rw [h]
  exact ⟨rfl, rfl, rfl, rfl, rfl, nofun, fun x a ha => by cases x <;> cases ha⟩

end Sys2Proof.Machine
end

section
/-! PROOFS. Every command is a sound step of the hub; with it the statements O10 and O11. -/

namespace Sys2Proof.Machine

variable {s t : State} {p : Port} {m : Master}

/-! ## Commands with cases of their own -/

theorem receives_connected {r : Rate} (h : ¬ (!s.receives p r) = true) : (s.port p).link.state.connected = true := by
  simp only [State.receives, Bool.not_eq_true', Bool.not_eq_false, Bool.and_eq_true] at h
  exact h.1

theorem execHello_step {r : Rate} {h : HelloBody} : AnswersIn (HubStep s) (execHello p r h s) := by
  refine ⟨_, rfl, .unless fun hr => .trans (.trans hear_step countClean_step) (takeHello_step (countClean_connected ?_))⟩
  simpa [State.hear, LinkRec.heardPacket] using receives_connected hr

theorem execErrorWindowEnd_step : AnswersIn (HubStep s) (execErrorWindowEnd p s) := by
  refine ⟨_, rfl, ?_⟩
  split
  · exact .when fun h => judgeWindow_step h.1
  · exact .refl s

theorem lockLost_connected {now : Time} : ∀ {l : LinkRec}, l.lockLost now = true → l.state.connected = true := by
  intro l h
  have h2 := (Bool.and_eq_true_iff.1 h).2
  split at h2
  · rename_i hs; rw [hs]; rfl
  · rename_i hs _; rw [hs]; rfl
  · rename_i hs _; rw [hs]; rfl
  · cases h2

theorem execCloseTimeout_step : AnswersIn (HubStep s) (execCloseTimeout p s) :=
  ⟨_, rfl, .ite (fun h => endRun_step (due_active h)) fun _ => .when fun h =>
    .traffic_active (frameTimedOut_only s p) (fun hP h => hP.frameTimedOut h) (due_active h)⟩

theorem execTriggerHandover_step : AnswersIn (HubStep s) (execTriggerHandover p s) := by
  refine ⟨_, rfl, .when fun h => ?_⟩
  split
  · split
    · exact .traffic_active (handTrigger_only s p _ _) (fun hP h => hP.handTrigger h) (inPhase_active h.1)
    · exact .refl s
  · exact .refl s

theorem execDramWriteGrant_step : AnswersIn (HubStep s) (execDramWriteGrant s) := by
  refine ⟨_, rfl, ?_⟩
  split
  · exact writeOldest_step
  · exact .refl s

theorem execStoreWriteComplete_step {b : Bool} : AnswersIn (HubStep s) (execStoreWriteComplete b s) := by
  refine ⟨_, rfl, ?_⟩
  split
  · rename_i hw; exact completeWrite_step hw
  · exact .refl s

theorem execUnknownRequestKind_step : AnswersIn (HubStep s) (execUnknownRequestKind m s) := by
  refine ⟨_, rfl, ?_⟩
  split
  · exact .unless fun _ => (updMaster_step (s := s)).trans updMaster_step
  · exact .refl s

/-! ## Requests -/

theorem execSetRateLimit_step {n v : Nat} : AnswersIn (HubStep s) (execSetRateLimit m n v s) := by
  refine ⟨_, rfl, takeRequest_step fun u => onPort_closed (.refl u) ?_⟩
  intro q
  split
  · exact updPort_step (f := fun t => { t with profile := { t.profile with rateLimit := _ } }) rfl
  · exact .refl u

theorem execRetrain_step {n : Nat} : AnswersIn (HubStep s) (execRetrain m n s) := by
  refine ⟨_, rfl, takeRequest_step fun u => onPort_closed (.refl u) ?_⟩
  intro q
  split
  · rename_i hup; exact enterRetraining_step hup
  · exact .refl u

theorem execPortPowerOn_step {l : List Nat} : AnswersIn (HubStep s) (execPortPowerOn m l s) := by
  refine ⟨_, rfl, takeRequest_step fun u => ?_⟩
  split
  · exact .refl u
  · exact (admitList_step _ u).trans testJoined_step

theorem execPortPowerOff_step {l : List Nat} : AnswersIn (HubStep s) (execPortPowerOff m l s) := by
  refine ⟨_, rfl, takeRequest_step fun u => ?_⟩
  split
  · exact .refl u
  · have hoff (l : List Port) : HubStep u (l.foldl State.offEntry u) := .foldl (fun _ _ => offEntry_step) l u
    exact .ite (fun _ => (hoff _).trans testHead_step) fun _ => hoff _

/-- R50: a sweep is queued for a port that is OFF or TRIPPED. -/
theorem execSweep_step {n : Nat} {v : Option Nat} : AnswersIn (HubStep s) (execSweep m n v s) := by
  refine ⟨_, rfl, takeRequest_step fun u => ?_⟩
  split
  · exact .refl u
  · rename_i q _
    split
    · exact .refl u
    · rename_i hpower
      refine ite_answer_closed (.refl u) (sweepAppend_step fun _ => ?_)
      cases h : (u.port q).power.state with
      | off => exact .inl rfl
      | tripped => exact .inr rfl
      | queued | inrush | on => rw [h] at hpower; exact absurd rfl hpower

theorem execRecallPreset_step {n k : Nat} : AnswersIn (HubStep s) (execRecallPreset m n k s) := by
  refine ⟨_, rfl, takeRequest_step fun u => onPort_closed (.refl u) ?_⟩
  intro q
  split
  · exact .refl u
  · refine ite_answer_closed (.refl u) ?_
    split
    · exact .refl u
    · refine ite_answer_closed (.refl u) (ite_answer_closed (.refl u) ?_)
      split
      · exact .refl u
      · rename_i hup; exact makeMove_step (Classical.byContradiction hup)

theorem execMoveLens_step {n : Nat} {v : PerAxis (Option Int)} {k : Option Nat} :
    AnswersIn (HubStep s) (execMoveLens m n v k s) := by
  refine ⟨_, rfl, takeRequest_step fun u => onPort_closed (.refl u)
    (ite_answer_closed (.refl u) (ite_answer_closed (.refl u) ?_))⟩
  split
  · exact .refl u
  · rename_i hup; exact makeMove_step (Classical.byContradiction hup)

theorem execStopLens_step {n : Nat} : AnswersIn (HubStep s) (execStopLens m n s) := by
  refine ⟨_, rfl, takeRequest_step fun u => onPort_closed (.refl u) (ite_answer_closed (.refl u) ?_)⟩
  split
  · exact .refl u
  · rename_i hup; exact stopLens_step (Classical.byContradiction hup)

theorem execTakeLens_step {n : Nat} : AnswersIn (HubStep s) (execTakeLens m n s) :=
  ⟨_, rfl, takeRequest_step fun u => onPort_closed (.refl u) (ite_answer_closed (.refl u) (by
    dsimp only
    exact updLens_step rfl))⟩

theorem takeWritePreset_step {f : PresetFields} : HubStep s (s.takeWritePreset m f).2 := by
  unfold State.takeWritePreset
  split
  · exact ite_answer_closed (.refl s) (takeWrite_step nofun)
  · exact .refl s

theorem execWritePreset_step {l : List Byte} : AnswersIn (HubStep s) (execWritePreset m l s) := by
  refine ⟨_, rfl, ofRecord_closed (.refl s) (takeRequest_step fun u => ?_)⟩
  split
  · exact takeWritePreset_step
  · exact .refl u

theorem execErasePreset_step {n : Nat} : AnswersIn (HubStep s) (execErasePreset m n s) := by
  refine ⟨_, rfl, takeRequest_step fun u => ?_⟩
  split
  · exact .refl u
  · exact takeWrite_step nofun

theorem execWriteProfile_step {n : Nat} {f : RawProfile} : AnswersIn (HubStep s) (execWriteProfile m n f s) := by
  refine ⟨_, rfl, takeRequest_step fun u => ?_⟩
  split
  · exact .refl u
  · split
    · exact .refl u
    · exact takeWrite_step nofun

/-- R145: a cell record whose budget lies below the committed sum is refused. -/
theorem execWriteCell_step {f : RawCell} : AnswersIn (HubStep s) (execWriteCell m f s) := by
  refine ⟨_, rfl, takeRequest_step fun u => ?_⟩
  split
  · exact .refl u
  · rename_i c clamps _
    split
    · exact .refl u
    · rename_i hover
      refine takeWrite_step fun x hx hw => ?_
      obtain rfl : c = x := NewContent.cell.inj hx
      refine Classical.byContradiction fun hlt => ?_
      exact hover ⟨hw, Nat.lt_of_not_le hlt⟩

theorem execLockPreset_step {n a : Nat} : AnswersIn (HubStep s) (execLockPreset m n a s) := by
  refine ⟨_, rfl, takeRequest_step fun u => ?_⟩
  split
  · exact .refl u
  · unfold State.takeLock
    split
    · exact .refl u
    · exact .refl u
    · exact ite_answer_closed (.refl u) (takeWrite_step nofun)

theorem execLoadSequence_step {l : List Byte} : AnswersIn (HubStep s) (execLoadSequence m l s) := by
  refine ⟨_, rfl, ofRecord_closed (.refl s) (takeRequest_step fun u => ?_)⟩
  split
  · exact takeLoad_step
  · exact .refl u

/-- R158: a start on a link that is UP. -/
theorem execStartSequence_step {n k : Nat} : AnswersIn (HubStep s) (execStartSequence m n k s) := by
  refine ⟨_, rfl, takeRequest_step fun u => onPort_closed (.refl u) ?_⟩
  intro q
  refine ite_answer_closed (.refl u) ?_
  extract_lets r c
  split
  · exact .refl u
  · rename_i hr
    refine pair_closed (startRun_step ?_)
    have hr : u.startRefusal q m = .done := Classical.byContradiction hr
    unfold State.startRefusal at hr
    split at hr
    · cases hr
    · split at hr
      · cases hr
      · exact hr

theorem execResumeSequence_step {n : Nat} : AnswersIn (HubStep s) (execResumeSequence m n s) := by
  refine ⟨_, rfl, takeRequest_step fun u => onPort_closed (.refl u) ?_⟩
  intro q
  split
  · exact .refl u
  · rename_i hheld
    exact ite_answer_closed (.refl u) (resume_step (Classical.byContradiction hheld))

theorem execHaltSequence_step {n : Nat} : AnswersIn (HubStep s) (execHaltSequence m n s) := by
  refine ⟨_, rfl, takeRequest_step fun u => onPort_closed (.refl u) ?_⟩
  intro q
  split
  · exact .refl u
  · rename_i ha
    exact ite_answer_closed (.refl u) (endRun_step (by simpa using ha))

theorem execFire_step {n : Nat} {x : Option Nat} : AnswersIn (HubStep s) (execFire m n x s) := by
  refine ⟨_, rfl, takeRequest_step fun u => onPort_closed (.refl u)
    (ite_answer_closed (.refl u) (ite_answer_closed (.refl u) ?_))⟩
  split
  · exact .refl u
  · rename_i hup
    exact ite_answer_closed (.refl u) (fireUnsequenced_step (Classical.byContradiction hup))

theorem execSetTriggerLine_step {n : Nat} {r : RawLine} : AnswersIn (HubStep s) (execSetTriggerLine m n r s) := by
  refine ⟨_, rfl, takeRequest_step fun u => ?_⟩
  split
  · exact .refl u
  · exact ite_answer_closed (.refl u) (by dsimp only; exact updLine_step)

theorem execSetFramePolicy_step {n k : Option Nat} : AnswersIn (HubStep s) (execSetFramePolicy m n k s) :=
  ⟨_, rfl, takeRequest_step fun u => onReader_closed (.refl u) (ite_answer_closed (.refl u) (by
    dsimp only
    exact updStore_step))⟩

theorem execRelease_step {n : Nat} : AnswersIn (HubStep s) (execRelease m n s) :=
  ⟨_, rfl, takeRequest_step fun u => onReader_closed (.refl u)
    (ite_answer_closed (.refl u) (pair_closed (cancelFetches_step.trans updStore_step)))⟩

theorem execSetNoticeMask_step {l : Option (List Nat)} {w : Option Nat} : AnswersIn (HubStep s) (execSetNoticeMask m l w s) :=
  ⟨_, rfl, takeRequest_step fun u => by
    dsimp only
    exact updMaster_step⟩

/-! ## Every command -/

theorem event_step (i : Instr) (hi : requestOf i = none) : AnswersIn (HubStep s) (exec i s) := by
  cases i with
  | por | warmReset => exact .next afterReset_step
  | checkFailedPacket => exact execCheckFailedPacket_step
  | malformedPacket => exact .next (.unless fun _ => .trans (.trans hear_step countClean_step) updCounters_step)
  | idle => exact .next (.unless fun _ => .trans hear_step countClean_step)
  | hello => exact execHello_step
  | lensReport => exact .next (.unless fun _ => .ite (fun _ => .trans (.trans hear_step countClean_step) updCounters_step)
      fun _ => routed_step fun _ => takeReport_step)
  | frameOpen => exact .next (.unless fun _ => routed_step fun _ => .traffic_up (openFrame_only _ _ _ _ _)
      fun hP h => hP.openFrame h)
  | line => exact .next (.unless fun _ => routed_step fun _ => takeLine_step)
  | frameClose => exact .next (.unless fun _ => routed_step fun _ => .traffic_up (closeFrame_only _ _ _)
      fun hP h => hP.closeFrame h)
  | inactivityTimeout => exact execInactivityTimeout_step
  | dramWriteGrant => exact execDramWriteGrant_step
  | fetchReadGrant => exact execFetchReadGrant_step
  | downChannelSend => exact .next (.when fun _ => sendDown_step)
  | helloTimeout => exact .next (.when fun h => enterLost_step (by rw [h.1]; rfl))
  | lockLoss => exact .next (.when fun h => enterLost_step (lockLost_connected h))
  | attemptDeadline => exact .next (.when fun _ => failAttempt_step)
  | errorWindowEnd => exact execErrorWindowEnd_step
  | currentSample => exact .next takeSample_step
  | overload | undercurrent => exact .next (.when fun _ => takeSample_step)
  | inrushEnd => exact .next (.when fun h => finishInrush_step h.1)
  | staggerGapEnd => exact .next (.when fun _ => testHead_step)
  | queueHeadStart => exact .next testHead_step
  | supplyStateLow => exact .next (.when fun _ => supplyLow_step)
  | supplyStateNormal => exact .next (.when fun _ => supplyNormal_step)
  | dischargeEnd => exact execDischargeEnd_step
  | acquisitionRepetition => exact .next (.when fun _ => updEngine_step rfl rfl rfl)
  | acquisitionEnd => exact execAcquisitionEnd_step
  | lensDeadline => exact execLensDeadline_step
  | storeWriteComplete => exact execStoreWriteComplete_step
  | settleTimeout | awaitTimeout => exact .next (.when fun h => endRun_step (due_active h))
  | closeTimeout => exact execCloseTimeout_step
  | triggerHandover => exact execTriggerHandover_step
  | dwellEnd => exact .next (.when fun h => completeStep_step (due_active h))
  | cadenceDeadline => exact .next (.when fun _ => cadenceEvent_step)
  | triggerLineSample => exact .next takeLevel_step
  | acceptedTransition => exact .next (.when fun _ => takeLevel_step)
  | fabricRecordArrival | spiSelectRise | outboundSendStart | outboundSendComplete =>
    exact .next (.when fun _ => updMaster_step)
  | spiSelectFall | fabricLockReturn => exact .next (.unless fun _ => updMaster_step)
  | fabricLockLost => exact .next (.when fun _ => updMaster_step.trans teardown_step)
  | unknownRequestKind => exact execUnknownRequestKind_step
  | _ => cases hi

theorem request_step (i : Instr) (hi : requestOf i ≠ none) : AnswersIn (HubStep s) (exec i s) := by
  cases i with
  | readPower | readBreakLog | readLens | readProfile | readSequence =>
    exact .next (takeRequest_step fun u => onPort_closed (.refl u) (HubStep.refl u))
  | listFrames | readStore | readPreset | readCell | readStoreStatus | readTriggers | readPart =>
    exact .next (takeRequest_step fun u => .refl u)
  | readCamera => exact .next (takeRequest_step fun u => onPort_closed (.refl u) (pair_closed (updLink_step rfl (.inr ⟨id, rfl⟩))))
  | setRateLimit => exact execSetRateLimit_step
  | retrain => exact execRetrain_step
  | portPowerOn => exact execPortPowerOn_step
  | portPowerOff => exact execPortPowerOff_step
  | clearPortFault => exact .next (takeRequest_step fun u => onPort_closed (.refl u) clearFault_step)
  | sweep => exact execSweep_step
  | subscribe | unsubscribe => exact .next (takeRequest_step fun u => onPort_closed (.refl u) setSubscription_step)
  | setFramePolicy => exact execSetFramePolicy_step
  | fetch => exact .next (takeRequest_step fun u => onReader_closed (.refl u) takeFetch_step)
  | release => exact execRelease_step
  | takeLens => exact execTakeLens_step
  | giveLens => exact .next (takeRequest_step fun u => onPort_closed (.refl u)
      (ite_answer_closed (.refl u) (ite_answer_closed (.refl u) (updLens_step rfl))))
  | breakHold => exact .next (takeRequest_step fun u => onPort_closed (.refl u) breakHold_step)
  | moveLens => exact execMoveLens_step
  | stopLens => exact execStopLens_step
  | recallPreset => exact execRecallPreset_step
  | writePreset => exact execWritePreset_step
  | erasePreset => exact execErasePreset_step
  | writeProfile => exact execWriteProfile_step
  | writeCell => exact execWriteCell_step
  | lockPreset => exact execLockPreset_step
  | lockDown => exact .next (takeRequest_step fun u => ite_answer_closed (.refl u) (ite_answer_closed (.refl u)
      (pair_closed (updPresets_step rfl))))
  | clearStoreError => exact .next (takeRequest_step fun u => pair_closed (updPresets_step rfl))
  | loadSequence => exact execLoadSequence_step
  | startSequence => exact execStartSequence_step
  | resumeSequence => exact execResumeSequence_step
  | haltSequence => exact execHaltSequence_step
  | fire => exact execFire_step
  | setTriggerLine => exact execSetTriggerLine_step
  | setNoticeMask => exact execSetNoticeMask_step
  | detach => exact .next (takeRequest_step fun u => teardown_step)
  | _ => exact absurd rfl hi

/-- Every command is a sound step of the hub. -/
theorem exec_step (i : Instr) (s : State) : AnswersIn (HubStep s) (exec i s) := by
  by_cases hi : requestOf i = none
  · exact event_step i hi
  · exact request_step i hi

/-! ## The statements -/

/-- Settles O10: a sound step keeps both accounts and, port by port, every active context on a link that is UP. -/
theorem hubAccountsAreKept : Obligations.HubAccountsAreKept := by
  intro s t hpower hsweep hup ht
  have hs : Accounts s := accounts_iff.1 ⟨hpower, hsweep⟩
  unfold step at ht
  split at ht
  · rename_i c rest _
    obtain ⟨u, hu, hstep⟩ := exec_step c { s with pending := rest }
    obtain rfl : u = t := Host.Outcome.next.inj (hu.symm.trans ht)
    have hs' : Accounts { s with pending := rest } :=
      ⟨hs.toBooks.congr (fun _ => ⟨rfl, rfl, rfl⟩) rfl rfl rfl rfl, hs.connected⟩
    obtain ⟨hacc, hcalm⟩ := hstep hs'
    obtain ⟨hpower', hsweep'⟩ := accounts_iff.2 hacc
    exact ⟨hpower', hsweep', fun p => (hcalm p).active (hup p)⟩
  · obtain rfl : s.tick = t := Host.Outcome.next.inj ht
    exact ⟨hpower, hsweep, hup⟩

/-- Settles O11: a sound step leaves a port whose link was UP with its link UP or quiet. -/
theorem leavingUpQuietensThePort : Obligations.LeavingUpQuietensThePort := by
  intro c s t p hpower hsweep ht hup hleft
  obtain ⟨u, hu, hstep⟩ := exec_step c s
  obtain rfl : u = t := Host.Outcome.next.inj (hu.symm.trans ht)
  exact (((hstep (accounts_iff.1 ⟨hpower, hsweep⟩)).2 p).quiet (.inl hup)).resolve_left hleft

end Sys2Proof.Machine
end

section
/-! PROOFS. The queue of commands and the resets (O1, O2, O4, O5). -/

namespace Sys2Proof.Machine

/-- Settles O1. -/
theorem stepRunsTheFrontCommand : Obligations.StepRunsTheFrontCommand := fun _ _ _ => rfl

/-- Settles O2. -/
theorem emptyQueueTicksTheTimebase : Obligations.EmptyQueueTicksTheTimebase := by
  intro s h
  unfold step
  split
  · rename_i hc
    rw [h] at hc
    cases hc
  · rfl

/-- R65 and R142: the ports of a new part after POR. -/
theorem reset_port (p : Port) : State.reset.port p = PortRec.afterReset Profile.default false [] := by
  simp only [State.port, State.reset, vector_get_replicate]

/-- Settles O5. -/
theorem resetMeetsTheInvariants : Obligations.ResetMeetsTheInvariants := by
  have hacc : Accounts State.reset := accounts_of_reset (fun q => ⟨_, _, _, reset_port q⟩) ⟨_, _, rfl⟩ rfl
  obtain ⟨hpower, hsweep⟩ := accounts_iff.2 hacc
  refine ⟨fun m => by cases m <;> rfl, rfl, fullFreeList_kept, ⟨fun p => ?_, fun a => ?_, fun m => ?_⟩, hpower, hsweep,
    fun p hp => ?_⟩
  · rw [reset_port]; exact ⟨Nat.zero_le _, Nat.zero_le _⟩
  · cases a <;> exact Nat.zero_le _
  · cases m <;> exact ⟨Nat.zero_le _, Nat.zero_le _⟩
  · rw [reset_port] at hp; cases hp

/-- Settles O4. -/
theorem resetsReturnEveryBlock : Obligations.ResetsReturnEveryBlock := by
  intro s warm
  refine ⟨s.afterReset (if warm then .warm else .por), by cases warm <;> rfl, rfl, rfl, rfl, fun p => ?_, ?_, rfl, rfl, ?_,
    fun l => ?_, fun m => ?_⟩
  · simp only [State.afterReset, State.port, vector_get_ofFn]
    cases warm <;> rfl
  · unfold State.afterReset PresetStore.cellContent
    dsimp only
    split <;> rfl
  · have hports : List.finRange 8 = allPorts := by decide
    rw [hports]
    cases warm <;> rfl
  · simp only [State.afterReset, PresetStore.cellContent, vector_get_ofFn]
    split
    · rfl
    · simp only [Cell.default, vector_get_replicate]; rfl
  · cases m <;> rfl

end Sys2Proof.Machine
end

section
/-! PROOFS. The encodings of chapter 11 (O12, O13): what each field of a layout spells is what was written there. -/

namespace Sys2Proof.Machine

/-! ## Fields (R202) -/

@[simp] theorem byteAt_cons_zero (b : Byte) (l : List Byte) : byteAt (b :: l) 0 = b.toNat := rfl

@[simp] theorem byteAt_cons_succ (b : Byte) (l : List Byte) (i : Nat) : byteAt (b :: l) (i + 1) = byteAt l i := rfl

@[simp] theorem bitAt_cons_zero (b : Byte) (l : List Byte) (k : Nat) : bitAt (b :: l) 0 k = b.getLsbD k := rfl

@[simp] theorem bitAt_cons_succ (b : Byte) (l : List Byte) (i k : Nat) : bitAt (b :: l) (i + 1) k = bitAt l i k := rfl

theorem toNat_byte8 {n : Nat} (h : n < 256) : (byte8 n).toNat = n := Nat.mod_eq_of_lt h

/-- R202: the two bytes of a number spell it. -/
theorem toNat_le16 {n : Nat} (h : n < 65536) : (BitVec.ofNat 8 n).toNat + 256 * (BitVec.ofNat 8 (n / 256)).toNat = n := by
  simp only [BitVec.toNat_ofNat]
  omega

theorem wordAt_le16_append {n : Nat} (h : n < 65536) (l : List Byte) : wordAt (le16 n ++ l) 0 = n := toNat_le16 h

theorem longAt_le32_append {n : Nat} (h : n < 4294967296) (l : List Byte) : longAt (le32 n ++ l) 0 = n := by
  change (BitVec.ofNat 8 n).toNat + 256 * (BitVec.ofNat 8 (n / 256)).toNat +
    65536 * ((BitVec.ofNat 8 (n / 65536)).toNat + 256 * (BitVec.ofNat 8 (n / 65536 / 256)).toNat) = n
  simp only [BitVec.toNat_ofNat]
  omega

@[simp] theorem wordAt_cons_succ (b : Byte) (l : List Byte) (i : Nat) : wordAt (b :: l) (i + 1) = wordAt l i := rfl

@[simp] theorem longAt_cons_succ (b : Byte) (l : List Byte) (i : Nat) : longAt (b :: l) (i + 1) = longAt l i := rfl

/-- A byte of bits holds the bits it was made of. -/
theorem testBit_bits (l : List Bool) (k : Nat) :
    (l.foldr (fun (b : Bool) n => b.toNat + 2 * n) 0).testBit k = l.getD k false := by
  induction l generalizing k with
  | nil => simp
  | cons b l ih =>
    rw [List.foldr_cons]
    cases k with
    | zero => cases b <;> simp [Nat.testBit_zero]
    | succ k =>
      rw [Nat.testBit_succ, show (b.toNat + 2 * l.foldr (fun (b : Bool) n => b.toNat + 2 * n) 0) / 2 =
        l.foldr (fun (b : Bool) n => b.toNat + 2 * n) 0 by have := b.toNat_lt; omega, ih]
      rfl

theorem getLsbD_bitsByte (l : List Bool) {k : Nat} (h : k < 8) : (bitsByte l).getLsbD k = l.getD k false := by
  rw [bitsByte, BitVec.getLsbD_ofNat, testBit_bits, decide_eq_true h, Bool.true_and]

theorem toNat_bitsByte_lt (l : List Bool) : (bitsByte l).toNat < 2 ^ l.length := by
  have hlt : l.foldr (fun (b : Bool) n => b.toNat + 2 * n) 0 < 2 ^ l.length := by
    induction l with
    | nil => exact Nat.one_pos
    | cons b l ih =>
      rw [List.foldr_cons, List.length_cons, Nat.pow_succ]
      have := b.toNat_lt
      omega
  exact Nat.lt_of_le_of_lt (Nat.mod_le _ _) hlt

theorem presentWord_opt {v : Option Nat} (h : v.getD 0 < absentWord) :
    presentWord v.isSome (v.getD absentWord) = some v := by
  cases v with
  | none => rfl
  | some n => simp [presentWord, Nat.ne_of_lt (show n < absentWord from h)]

theorem getD_absentWord_lt {v : Option Nat} (h : v.getD 0 < absentWord) : v.getD absentWord < 65536 := by
  cases v with
  | none => decide
  | some n => exact Nat.lt_succ_of_lt h

/-! ## The sequence step (11.2) -/

theorem length_stepBytes (st : Step) : st.bytes.length = 14 := by
  obtain ⟨k, -⟩ := st
  cases k <;> rfl

/-- The kind of a step is spelt by its bytes 0 and 2 to 13, whatever its flags. -/
theorem parseStepKind_bytes {k : StepKind} (h : k.fitsFields = true) (flags : Byte) :
    parseStepKind (k.bytes.1 :: flags :: k.bytes.2) = some k := by
  cases k with
  | lens preset t allowance =>
    obtain ⟨f, i, z⟩ := t
    simp only [StepKind.fitsFields, Bool.and_eq_true, decide_eq_true_eq] at h
    obtain ⟨⟨⟨⟨hp, hf⟩, hi⟩, hz⟩, ha⟩ := h
    generalize hl : ((StepKind.lens preset ⟨f, i, z⟩ allowance).bytes.1 :: flags ::
      (StepKind.lens preset ⟨f, i, z⟩ allowance).bytes.2) = l
    have hkind : byteAt l 0 = 0 := by rw [← hl]; rfl
    have hbits : byteAt l 2 < 32 := by rw [← hl]; exact toNat_bitsByte_lt _
    have hzeros : zerosAt l 12 2 = true := by rw [← hl]; rfl
    have hbit (n : Nat) (hn : n < 8) : bitAt l 2 n =
        [preset.isSome, f.isSome, i.isSome, z.isSome, allowance.isSome].getD n false := by
      rw [← hl]; exact getLsbD_bitsByte _ hn
    have hfocus : wordAt l 4 = f.getD absentWord := by rw [← hl]; exact toNat_le16 (getD_absentWord_lt hf)
    have hiris : wordAt l 6 = i.getD absentWord := by rw [← hl]; exact toNat_le16 (getD_absentWord_lt hi)
    have hzoom : wordAt l 8 = z.getD absentWord := by rw [← hl]; exact toNat_le16 (getD_absentWord_lt hz)
    have hallow : wordAt l 10 = allowance.getD absentWord := by rw [← hl]; exact toNat_le16 (getD_absentWord_lt ha)
    have hpreset : byteAt l 3 = preset.getD absentWord % 256 := by rw [← hl]; rfl
    simp only [parseStepKind, hkind, hbits, hzeros, and_self, if_true, hbit _ (by decide : (0 : Nat) < 8),
      hbit _ (by decide : 1 < 8), hbit _ (by decide : 2 < 8), hbit _ (by decide : 3 < 8), hbit _ (by decide : 4 < 8),
      List.getD_cons_zero, List.getD_cons_succ, hfocus, hiris, hzoom, hallow, presentWord_opt hf, presentWord_opt hi,
      presentWord_opt hz, presentWord_opt ha, hpreset]
    cases preset with
    | none => rfl
    | some n => simp [Nat.mod_eq_of_lt (show n < 256 from hp)]
  | settle t =>
    simp only [StepKind.fitsFields, decide_eq_true_eq] at h
    exact congrArg (fun n => some (StepKind.settle n)) (toNat_le16 h)
  | await line t =>
    simp only [StepKind.fitsFields, Bool.and_eq_true, decide_eq_true_eq] at h
    exact congr (congrArg (fun n k => some (StepKind.await n k)) (toNat_byte8 h.1)) (toNat_le16 h.2)
  | trigger exposure lines width close =>
    simp only [StepKind.fitsFields, Bool.and_eq_true, decide_eq_true_eq] at h
    obtain ⟨⟨⟨he, hl⟩, hw⟩, hc⟩ := h
    generalize heq : ((StepKind.trigger exposure lines width close).bytes.1 :: flags ::
      (StepKind.trigger exposure lines width close).bytes.2) = l
    have hkind : byteAt l 0 = 3 := by rw [← heq]; rfl
    have hbits : byteAt l 2 < 4 := by rw [← heq]; exact toNat_bitsByte_lt _
    have hzeros : zerosAt l 3 1 = true := by rw [← heq]; rfl
    have hbit (n : Nat) (hn : n < 8) : bitAt l 2 n = [exposure.isSome, close.isSome].getD n false := by
      rw [← heq]; exact getLsbD_bitsByte _ hn
    have hexposure : longAt l 4 = exposure.getD absentWord := by
      rw [← heq]
      refine longAt_le32_append ?_ (le16 lines ++ le16 width ++ opt16 close)
      cases exposure with
      | none => decide
      | some n => exact he
    have hlines : wordAt l 8 = lines := by rw [← heq]; exact toNat_le16 hl
    have hwidth : wordAt l 10 = width := by rw [← heq]; exact toNat_le16 hw
    have hclose : wordAt l 12 = close.getD absentWord := by rw [← heq]; exact toNat_le16 (getD_absentWord_lt hc)
    simp only [parseStepKind, hkind, hbits, hzeros, and_self, if_true, hbit _ (by decide : (0 : Nat) < 8),
      hbit _ (by decide : 1 < 8), List.getD_cons_zero, List.getD_cons_succ, hclose, presentWord_opt hc, hexposure, hlines,
      hwidth]
    cases exposure <;> rfl
  | dwell t =>
    simp only [StepKind.fitsFields, decide_eq_true_eq] at h
    exact congrArg (fun n => some (StepKind.dwell n)) (toNat_le16 h)

/-- Settles O13: the kind and the flags are read back from the bytes that spell them. -/
theorem sequenceStepsRoundTrip : Obligations.SequenceStepsRoundTrip := by
  intro st h
  refine ⟨length_stepBytes st, ?_⟩
  have hflags : byteAt st.bytes 1 < 32 := toNat_bitsByte_lt [st.chain, st.hold, st.note, st.lenient, st.discard]
  have hbit (n : Nat) (hn : n < 8) : bitAt st.bytes 1 n =
      [st.chain, st.hold, st.note, st.lenient, st.discard].getD n false := getLsbD_bitsByte _ hn
  have hkind : parseStepKind st.bytes = some st.kind := parseStepKind_bytes h _
  simp only [parseStep, length_stepBytes, hflags, and_self, if_true, hkind, Option.map_some, hbit _ (by decide : (0 : Nat) < 8),
    hbit _ (by decide : 1 < 8), hbit _ (by decide : 2 < 8), hbit _ (by decide : 3 < 8), hbit _ (by decide : 4 < 8),
    List.getD_cons_zero, List.getD_cons_succ]

/-! ## Drop link packets (11.3) -/

theorem getD_append_length (l r : List Byte) (i : Nat) : (l ++ r).getD (l.length + i) 0 = r.getD i 0 := by
  rw [List.getD_eq_getElem?_getD, List.getElem?_append_right (Nat.le_add_right _ _), Nat.add_sub_cancel_left,
    ← List.getD_eq_getElem?_getD]

theorem byteAt_append_length (l r : List Byte) (i : Nat) : byteAt (l ++ r) (l.length + i) = byteAt r i := by
  rw [byteAt, getD_append_length, byteAt]

theorem wordAt_append_length (l r : List Byte) (i : Nat) : wordAt (l ++ r) (l.length + i) = wordAt r i := by
  simp only [wordAt, Nat.add_assoc, byteAt_append_length]

/-- R1, R206: a packet with a kind and a body passes its checks and is read as that kind and body. -/
theorem upPacketOf_packetBytes (p : Port) (rate : Rate) {kind : Nat} {body : List Byte} (hk : kind < 256)
    (hb : body.length < 65536) : upPacketOf p rate (packetBytes kind body) = packetOf p rate kind body := by
  obtain ⟨tail, hl, htail⟩ : ∃ tail, packetBytes kind body = byte8 kind :: (le16 body.length ++
      byte8 (headerCheck (byte8 kind :: le16 body.length)) :: (body ++ tail)) ∧
      tail = if body = [] then [] else le16 (byteSum body % 65536) := ⟨_, by simp [packetBytes, le16], rfl⟩
  have hcheck : byteAt (packetBytes kind body) 3 = headerCheck (packetBytes kind body) := by
    rw [hl]
    exact toNat_byte8 (by unfold headerCheck; omega)
  have hn : wordAt (packetBytes kind body) 1 = body.length := by rw [hl]; exact toNat_le16 hb
  have hkind : byteAt (packetBytes kind body) 0 = kind := by rw [hl]; exact toNat_byte8 hk
  have hbody : ((packetBytes kind body).drop 4).take body.length = body := by
    rw [hl]
    exact List.take_left
  have hlen : (packetBytes kind body).length = 4 + body.length + tail.length := by
    rw [hl]
    simp [le16]
    omega
  simp only [upPacketOf, hn, hcheck, hbody, hkind, hlen]
  rw [if_neg (by omega), if_pos]
  by_cases hempty : body = []
  · exact .inl (by simp [hempty])
  · rw [if_neg hempty] at htail
    refine .inr ⟨trivial, ?_, by rw [htail]; simp [le16]; omega⟩
    rw [hl, show 4 + body.length = (byte8 kind :: (le16 body.length ++
      [byte8 (headerCheck (byte8 kind :: le16 body.length))] ++ body)).length + 0 by simp [le16]; omega]
    rw [show byte8 kind :: (le16 body.length ++ byte8 (headerCheck (byte8 kind :: le16 body.length)) :: (body ++ tail)) =
      (byte8 kind :: (le16 body.length ++ [byte8 (headerCheck (byte8 kind :: le16 body.length))] ++ body)) ++ tail by simp,
      wordAt_append_length, htail]
    exact toNat_le16 (Nat.mod_lt _ (by decide))

theorem axisOf_axisCode : ∀ a : Axis, axisOf (axisCode a) = some a
  | .focus | .iris | .zoom => rfl

/-- R206: the entries of a LENS_REPORT are read back from their bytes. -/
theorem parseEntries_bytes : ∀ {l : List ReportEntry}, (∀ e ∈ l, e.position ≤ 4095) →
    parseEntries l.length (l.flatMap ReportEntry.bytes) = some l
  | [], _ => rfl
  | e :: l, h => by
    have he := h e List.mem_cons_self
    have hrest := parseEntries_bytes fun x hx => h x (List.mem_cons_of_mem _ hx)
    have haxis : byteAt (ReportEntry.bytes e ++ l.flatMap ReportEntry.bytes) 0 = axisCode e.axis :=
      toNat_byte8 (by cases e.axis <;> decide)
    have hposition : wordAt (ReportEntry.bytes e ++ l.flatMap ReportEntry.bytes) 1 = e.position := toNat_le16 (by omega)
    have hsettled : byteAt (ReportEntry.bytes e ++ l.flatMap ReportEntry.bytes) 3 = e.settled.toNat :=
      toNat_byte8 (by cases e.settled <;> decide)
    have hdrop : (ReportEntry.bytes e ++ l.flatMap ReportEntry.bytes).drop 4 = l.flatMap ReportEntry.bytes := rfl
    simp only [List.flatMap_cons, List.length_cons, parseEntries, haxis, axisOf_axisCode, hdrop, hrest, hposition, he, if_true,
      hsettled]
    obtain ⟨axis, position, settled⟩ := e
    cases settled <;> rfl

theorem length_entryBytes : ∀ l : List ReportEntry, (l.flatMap ReportEntry.bytes).length = 4 * l.length
  | [] => rfl
  | e :: l => by
    rw [List.flatMap_cons, List.length_append, length_entryBytes l, List.length_cons]
    simp [ReportEntry.bytes, le16]
    omega

theorem axesDistinct_of_once : ∀ {l : List ReportEntry}, axesOnce (l.map ReportEntry.axis) = true → axesDistinct l = true
  | [], _ => rfl
  | e :: l, h => by
    simp only [List.map_cons, axesOnce, Bool.and_eq_true, Bool.not_eq_true', List.contains_eq_mem, List.mem_map,
      decide_eq_false_iff_not, not_exists, not_and] at h
    simp only [axesDistinct, Bool.and_eq_true, Bool.not_eq_true', List.any_eq_false, decide_eq_true_eq]
    exact ⟨h.1, axesDistinct_of_once h.2⟩

/-- R6: the fields of a HELLO body of 49 bytes are read back from them. -/
theorem parseHello_bytes {h : HelloBody} (hf : helloForm h = true) (hl : h.bodyLength = 49) :
    (helloBytes h).length = 49 ∧ parseHello (helloBytes h) = h := by
  simp only [helloForm, hl, if_true, isByte, isWord, Bool.and_eq_true, decide_eq_true_eq] at hf
  obtain ⟨⟨⟨⟨⟨⟨⟨⟨hmodel, hserial⟩, hrate⟩, hclass⟩, hfocus⟩, hiris⟩, hzoom⟩, -⟩, hmodels, hserials⟩ := hf
  have hlen : (byte8 h.modelLength :: h.model).length = 25 := by rw [List.length_cons, hmodels]
  have hlen' : (byte8 h.serialLength :: h.serial).length = 17 := by rw [List.length_cons, hserials]
  generalize hr2 : byte8 h.rateCode :: le16 h.powerClass ++ [bitsByte [h.present.focus, h.present.iris, h.present.zoom],
    byte8 h.speed.focus, byte8 h.speed.iris, byte8 h.speed.zoom] = r2
  have hbytes : helloBytes h = (byte8 h.modelLength :: h.model) ++ ((byte8 h.serialLength :: h.serial) ++ r2) := by
    rw [← hr2, helloBytes]
    simp only [List.append_assoc, List.cons_append]
  have hget1 (i : Nat) : (helloBytes h).getD (25 + i) 0 = ((byte8 h.serialLength :: h.serial) ++ r2).getD i 0 := by
    rw [hbytes, ← hlen, getD_append_length]
  have hget2 (i : Nat) : (helloBytes h).getD (25 + (17 + i)) 0 = r2.getD i 0 := by
    rw [hget1, ← hlen', getD_append_length]
  have hlength : (helloBytes h).length = 49 := by
    rw [hbytes, List.length_append, List.length_append, hlen, hlen', ← hr2]
    rfl
  refine ⟨hlength, ?_⟩
  have h0 : byteAt (helloBytes h) 0 = h.modelLength := by rw [hbytes]; exact toNat_byte8 hmodel
  have h25 : byteAt (helloBytes h) 25 = h.serialLength := by
    rw [byteAt, hget1 0]; exact toNat_byte8 hserial
  have h42 : byteAt (helloBytes h) 42 = h.rateCode := by
    rw [byteAt, hget2 0, ← hr2]; exact toNat_byte8 hrate
  have h43 : wordAt (helloBytes h) 43 = h.powerClass := by
    rw [wordAt, byteAt, byteAt, hget2 1, hget2 2, ← hr2]; exact toNat_le16 hclass
  have h45 (k : Nat) (hk : k < 8) : bitAt (helloBytes h) 45 k =
      [h.present.focus, h.present.iris, h.present.zoom].getD k false := by
    rw [bitAt, hget2 3, ← hr2]; exact getLsbD_bitsByte _ hk
  have h46 : byteAt (helloBytes h) 46 = h.speed.focus := by
    rw [byteAt, hget2 4, ← hr2]; exact toNat_byte8 hfocus
  have h47 : byteAt (helloBytes h) 47 = h.speed.iris := by
    rw [byteAt, hget2 5, ← hr2]; exact toNat_byte8 hiris
  have h48 : byteAt (helloBytes h) 48 = h.speed.zoom := by
    rw [byteAt, hget2 6, ← hr2]; exact toNat_byte8 hzoom
  have hm : ((helloBytes h).drop 1).take 24 = h.model := by
    rw [hbytes, List.cons_append, List.drop_one, List.tail_cons, List.take_left' hmodels]
  have hs : ((helloBytes h).drop 26).take 16 = h.serial := by
    rw [hbytes, show 26 = 25 + 1 from rfl, ← List.drop_drop, List.drop_left' hlen, List.cons_append, List.drop_one,
      List.tail_cons, List.take_left' hserials]
  simp only [parseHello, h0, h25, h42, h43, h45 _ (by decide : (0 : Nat) < 8), h45 _ (by decide : 1 < 8),
    h45 _ (by decide : 2 < 8), h46, h47, h48, hm, hs, hlength, List.getD_cons_zero, List.getD_cons_succ]
  rw [← hl]

/-- Settles O12: every packet's bytes carry its kind and its body, and each body its fields. -/
theorem upPacketsRoundTrip : Obligations.UpPacketsRoundTrip := by
  intro p rate c l hwf hsound hbytes
  cases c with
  | idle q r =>
    obtain ⟨rfl, rfl⟩ := hsound
    obtain rfl := Option.some.inj hbytes
    rw [upPacketOf_packetBytes _ _ (by decide) (by decide)]
    rfl
  | hello q r h =>
    obtain ⟨rfl, rfl, hl⟩ := hsound
    obtain rfl := Option.some.inj hbytes
    obtain ⟨hlength, hparse⟩ := parseHello_bytes hwf hl
    rw [upPacketOf_packetBytes _ _ (by decide) (by rw [hlength]; decide)]
    exact congrArg (Instr.hello q r) hparse
  | lensReport q r l =>
    obtain ⟨rfl, rfl⟩ := hsound
    obtain rfl := Option.some.inj hbytes
    simp only [Instr.wellFormed, reportForm, Bool.and_eq_true, decide_eq_true_eq, List.all_eq_true] at hwf
    obtain ⟨⟨hcount, honce⟩, hpositions⟩ := hwf
    have hlen := length_entryBytes l
    rw [upPacketOf_packetBytes _ _ (by decide) (by rw [List.length_cons, hlen]; omega)]
    have hn : byteAt (byte8 l.length :: l.flatMap ReportEntry.bytes) 0 = l.length := toNat_byte8 (by omega)
    simp only [packetOf, hn, List.length_cons, hlen, List.drop_one, List.tail_cons, parseEntries_bytes hpositions,
      axesDistinct_of_once honce, if_true]
    rw [if_pos ⟨by omega, hcount⟩]
  | frameOpen q r f w n =>
    obtain ⟨rfl, rfl⟩ := hsound
    obtain rfl := Option.some.inj hbytes
    simp only [Instr.wellFormed, isWord, Bool.and_eq_true, decide_eq_true_eq] at hwf
    obtain ⟨⟨hf, hw⟩, hn⟩ := hwf
    rw [upPacketOf_packetBytes _ _ (by decide) (by simp [le16])]
    have h0 : wordAt (le16 f ++ le16 w ++ le16 n) 0 = f := toNat_le16 hf
    have h2 : wordAt (le16 f ++ le16 w ++ le16 n) 2 = w := toNat_le16 hw
    have h4 : wordAt (le16 f ++ le16 w ++ le16 n) 4 = n := toNat_le16 hn
    simp only [packetOf, h0, h2, h4]
    rfl
  | line q r k payload =>
    obtain ⟨rfl, rfl⟩ := hsound
    obtain rfl := Option.some.inj hbytes
    simp only [Instr.wellFormed, isWord, Bool.and_eq_true, decide_eq_true_eq] at hwf
    have hk := hwf.1
    have hpayload : payload.length ≤ 32768 := hwf.2
    have hlen : (le16 k ++ payload).length = 2 + payload.length := by rw [List.length_append]; rfl
    rw [upPacketOf_packetBytes _ _ (by decide) (by omega)]
    simp only [packetOf, wordAt_le16_append hk, hlen]
    rw [if_pos (by omega)]
    rfl
  | frameClose q r c =>
    obtain ⟨rfl, rfl⟩ := hsound
    obtain rfl := Option.some.inj hbytes
    simp only [Instr.wellFormed, isWord, decide_eq_true_eq] at hwf
    rw [upPacketOf_packetBytes _ _ (by decide) (by simp [le16])]
    have h0 : wordAt (le16 c) 0 = c := toNat_le16 hwf
    simp only [packetOf, h0]
    rfl
  | _ => exact hsound.elim

end Sys2Proof.Machine
end

section
/-! PROOFS. How the requests are refused before their block judges them, and what the requests that only read answer
(O14 to O17). -/

namespace Sys2Proof.Machine

variable {s : State} {m : Master} {k : RequestKind} {e : RequestEntry} {c : Instr}

/-! ## A request's command takes its master's next request -/

/-- R192: what a request's command does: it takes the next request of its master and kind, where the bytes it carries are those
received. -/
theorem exec_of_request (h : requestOf c = some (m, k)) (s : State) : ∃ act, exec c s = .next
    (match recordOf c with
      | some l => s.ofRecord m l (s.takeRequest m k (fieldsFit c) act)
      | none => s.takeRequest m k (fieldsFit c) act) := by
  cases c <;> cases h <;> exact ⟨_, rfl⟩

/-- R193: the kinds whose commands carry bytes are open to every master. -/
theorem permits_of_record {l : List Byte} (h : requestOf c = some (m, k)) (hl : recordOf c = some l) : k.permits m = true := by
  cases c <;> cases hl <;> cases h <;> rfl

theorem permits_eq_false (h : (m ≠ .C ∧ k ∈ [RequestKind.writeProfile, .writeCell, .lockPreset, .lockDown, .clearStoreError,
      .clearPortFault, .breakHold, .setTriggerLine]) ∨
    (m = .C ∧ k ∈ [RequestKind.subscribe, .unsubscribe, .fetch, .release, .setFramePolicy])) : k.permits m = false := by
  obtain ⟨hm, hk⟩ | ⟨rfl, hk⟩ := h
  · simp only [List.mem_cons, List.not_mem_nil, or_false] at hk
    rcases hk with rfl | rfl | rfl | rfl | rfl | rfl | rfl | rfl <;> exact decide_eq_false hm
  · simp only [List.mem_cons, List.not_mem_nil, or_false] at hk
    rcases hk with rfl | rfl | rfl | rfl | rfl <;> rfl

/-- Settles O14. -/
theorem reservedKindsAreNotPermitted : Obligations.ReservedKindsAreNotPermitted := by
  intro c s m k e hc hnext hform hfit hkind
  have hpermits := permits_eq_false hkind
  obtain ⟨act, hact⟩ := exec_of_request hc s
  rw [hact]
  cases hl : recordOf c with
  | some l =>
    rw [permits_of_record hc hl] at hpermits
    cases hpermits
  | none =>
    dsimp only
    rw [hfit, takeRequest_of_not_permitted hnext hform hpermits]

/-- R192, R203: which fields a record is malformed for, where its header is sound. -/
theorem entry_malformed {h : Header} (fields : List Byte) (fits : Bool) (hc : h.credit = 0) (hp : h.part = 0) :
    (h.entry fields fits).malformed = !fieldsMatch h.kind fields fits := by
  simp [Header.entry, hc, hp]

/-- Settles O15. -/
theorem malformedRequestsAreRefused : Obligations.MalformedRequestsAreRefused := by
  refine ⟨fun c s m k e hc hnext hrecord hbad => ?_, fun s m e hnext hkind => ?_, fun h fields fits hcredit hpart => ?_,
    fun c s m k hc hother => ?_⟩
  · obtain ⟨act, hact⟩ := exec_of_request hc s
    rw [hact]
    cases hl : recordOf c with
    | some l =>
      dsimp only
      rw [ofRecord_of_next hnext (hrecord l hl), takeRequest_of_malformed hnext hbad]
    | none =>
      dsimp only
      rw [takeRequest_of_malformed hnext hbad]
  · have hunknown : knownKind e.kind = false := by
      simp only [knownKind, within, Bool.and_eq_false_iff, decide_eq_false_iff_not]
      omega
    change execUnknownRequestKind m s = _
    simp only [execUnknownRequestKind, hnext, hunknown, Bool.false_eq_true, if_false]
    rfl
  · have hless : fieldless h.kind = true ↔ h.kind ∈ [15, 28, 29, 32, 33, 41, 43, 44] := by
      rw [fieldless, List.contains_iff_mem]
    have hopt : allOptional h.kind = true ↔ h.kind ∈ [11, 14, 42] := by rw [allOptional, List.contains_iff_mem]
    simp only [entry_malformed fields fits hcredit hpart, fieldsMatch, hless]
    refine ⟨fun hk => ?_, fun hk => ?_, fun hk => ?_, fun hk hfits => ?_, fun hk hempty => ?_, fun hk hfits hne => ?_⟩
    · rw [if_pos hk]; simp
    · rw [if_neg (by simp [hk]), if_pos hk]; simp
    · rw [if_neg (by simp [hk]), if_neg (by simp [hk]), if_pos hk]; simp
    · rw [if_neg (by simp at hk ⊢; omega), if_neg (by simp at hk; omega), if_neg (by simp at hk; omega), hfits]; rfl
    · rw [if_neg (by simp at hk ⊢; omega), if_neg (by simp at hk; omega), if_neg (by simp at hk; omega), hempty,
        Bool.eq_false_iff.2 fun h => absurd (hopt.1 h) (by simp at hk ⊢; omega)]
      simp
    · rw [if_neg (by simp at hk ⊢; omega), if_neg (by simp at hk; omega), if_neg (by simp at hk; omega), hfits]
      simp [hne]
  · obtain ⟨act, hact⟩ := exec_of_request hc s
    rw [hact]
    cases hl : recordOf c with
    | some l =>
      refine congrArg _ (ofRecord_takeRequest_of_other fun e he => ?_)
      obtain ⟨l', hl', hne⟩ := hother e he
      rw [hl] at hl'
      exact Option.some.inj hl' ▸ hne
    | none =>
      refine congrArg _ (takeRequest_of_no_next fun e he => ?_)
      obtain ⟨l', hl', -⟩ := hother e he
      rw [hl] at hl'
      cases hl'

/-- A request that names a camera port judges the number first. -/
theorem exec_of_port {n : Nat} (h : requestOf c = some (m, k)) (hn : portNamed c = some n) (s : State) :
    ∃ act, exec c s = .next (s.takeRequest m k (fieldsFit c) (onPort n act)) := by
  cases c <;> cases hn <;> cases h <;> exact ⟨_, rfl⟩

/-- Settles O16. -/
theorem portsOutsideTheRangeAreRefused : Obligations.PortsOutsideTheRangeAreRefused := by
  intro c s m k e n hc hreach hfit hn hgt
  obtain ⟨act, hact⟩ := exec_of_port hc hn s
  rw [hact, takeRequest_of_reaches_fits hreach hfit, onPort_of_gt hgt]
  rfl

/-! ## The requests that read -/

/-- A request that only reads is answered from the state in which it has been taken. -/
theorem takeRequest_reading {f : State → Answer} (h : Reaches s m k e) :
    s.takeRequest m k true (answering f) = s.answered m e (f (s.taken m)) := takeRequest_of_reaches h

theorem takeRequest_reading_port {n : Nat} {p : Port} {f : Port → State → Answer} (h : Reaches s m k e)
    (hp : portOf n = some p) :
    s.takeRequest m k true (onPort n fun p => answering (f p)) = s.answered m e (f p (s.taken m)) := by
  rw [takeRequest_of_reaches h, onPort_of_portOf hp]
  rfl

/-- Taking a request leaves of each master's record all but its request queue and its attention line. -/
theorem taken_master (s : State) (m x : Master) : ((s.taken m).master x).attached = (s.master x).attached ∧
    ((s.taken m).master x).protocolErrors = (s.master x).protocolErrors ∧
    ((s.taken m).master x).framingErrors = (s.master x).framingErrors := by
  by_cases h : m = x
  · subst h
    simp [State.taken, State.updMaster_master_self]
  · simp [State.taken, State.updMaster_master_of_ne s _ h]

theorem positionOf_eq (p : Port) : ∀ l : List Port,
    positionOf p l = (l.findIdx? (fun q => q == p)).map (fun i => i + 1)
  | [] => rfl
  | q :: l => by
    unfold positionOf
    by_cases h : q = p
    · simp [List.findIdx?_cons, h]
    · simp [List.findIdx?_cons, h, positionOf_eq p l]

theorem writing_iff (st : PresetStore) (r : RecordName) : st.writing r = true ↔ st.write.map Write.record = some r := by
  unfold PresetStore.writing
  cases st.write <;> simp

/-- R142: what a preset reads as. -/
theorem preset_eq (st : PresetStore) (n : Fin 64) :
    st.preset n = if (st.presets.get n).valid = true then (st.presets.get n).content else none := rfl

theorem preset_isSome (st : PresetStore) (n : Fin 64) :
    (st.preset n).isSome = ((st.presets.get n).valid && (st.presets.get n).content.isSome) := by
  rw [preset_eq]
  cases (st.presets.get n).valid <;> rfl

theorem locked_eq (st : PresetStore) : st.locked = fun n =>
    (st.presets.get n).valid && ((st.presets.get n).content.map Preset.locked).getD false := by
  funext n
  rw [PresetStore.locked, preset_eq]
  cases (st.presets.get n).valid <;> rfl

/-- R119: which list a LIST_FRAMES lists. -/
theorem listedMaster_of_other {named x : Master} (hm : m ≠ .C) (hx : named = x) (hne : x ≠ m) :
    listedMaster m (some named) = .error .notPermitted := by
  subst hx
  cases m with
  | C => exact absurd rfl hm
  | A | B => simp [listedMaster, Master.analysis, hne]

theorem listedMaster_of_own {a : Analysis} {named : Option Master} (h : named = none ∨ named = some a.master) :
    listedMaster a.master named = .ok a := by
  obtain rfl | rfl := h <;> cases a <;> rfl

/-- Settles O17. -/
theorem readRequestsAnswerFromTheState : Obligations.ReadRequestsAnswerFromTheState := by
  intro s m e
  refine ⟨fun n p hp => ⟨fun h => ?_, fun h => ?_, fun h => ?_, fun h => ⟨fun hc => ?_, fun hc => ?_⟩, fun h => ?_⟩,
    fun n h => ?_, fun h => ?_, fun h => ?_, fun h => ?_, fun h => ?_, fun h => ?_, fun named skip h => ?_⟩
  · refine (congrArg Host.Outcome.next (takeRequest_reading_port h hp)).trans ?_
    simp only [State.powerReport, positionOf_eq]
    rfl
  · refine (congrArg Host.Outcome.next (takeRequest_reading_port h hp)).trans ?_
    simp only [State.breakLogReport, positionOf_eq, List.findIdx?_map]
    rfl
  · exact congrArg Host.Outcome.next (takeRequest_reading_port h hp)
  · refine (congrArg Host.Outcome.next (takeRequest_reading_port h hp)).trans ?_
    simp only [State.sequenceBody]
    rw [if_pos (show ((s.taken m).port p).seq.state = .empty from hc), show ((s.taken m).port p).seq.state = .empty from hc]
    rfl
  · refine (congrArg Host.Outcome.next (takeRequest_reading_port h hp)).trans ?_
    simp only [State.sequenceBody]
    rw [if_neg (show ((s.taken m).port p).seq.state ≠ .empty from hc)]
    rfl
  · refine (congrArg Host.Outcome.next (takeRequest_reading_port h hp)).trans ?_
    simp only [writing_iff]
    rfl
  · refine (congrArg Host.Outcome.next (takeRequest_reading h)).trans ?_
    by_cases hn : n < 64
    · simp only [presetNo, dif_pos hn, writing_iff]
      rfl
    · simp only [presetNo, dif_neg hn]
  · refine (congrArg Host.Outcome.next (takeRequest_reading h)).trans ?_
    simp only [writing_iff]
    rfl
  · refine (congrArg Host.Outcome.next (takeRequest_reading h)).trans ?_
    simp only [PresetStore.statusReport, preset_isSome, locked_eq]
    rfl
  · exact congrArg Host.Outcome.next (takeRequest_reading h)
  · refine ⟨_, _, congrArg Host.Outcome.next (takeRequest_reading h), ?_⟩
    simp only [List.map_map]
    exact ⟨rfl, rfl, rfl, rfl, rfl, rfl, rfl⟩
  · refine (congrArg Host.Outcome.next (takeRequest_reading h)).trans ?_
    simp only [State.partReport, List.map_cons, List.map_nil, taken_master]
    rfl
  · have hexec : exec (.listFrames m named skip) s = .next (s.answered m e _) :=
      congrArg Host.Outcome.next (takeRequest_reading h)
    rw [hexec]
    refine ⟨fun hm ⟨x, hx, hne⟩ => ?_, fun hm hnamed => ?_, fun a ha => ?_⟩
    · rw [hx]
      simp only [listedMaster_of_other hm rfl hne]
    · subst hm
      obtain rfl | rfl := hnamed <;> rfl
    · have hlisted : listedMaster m named = .ok a := by
        obtain ⟨rfl, h⟩ | ⟨rfl, rfl⟩ := ha
        · exact listedMaster_of_own h
        · cases a <;> rfl
      simp only [hlisted]
      refine ⟨fun hskip => by rw [if_pos hskip], fun hskip => ?_⟩
      rw [if_neg (Nat.not_lt.2 hskip)]
      rfl

end Sys2Proof.Machine
end


section
/-! PROOFS. Changes of one port's record alone, and the camera link: packets, the down-channel and the link requests (chapter 1). -/

namespace Sys2Proof.Machine

section
variable {s t u : State} {p q : Port}

/-! ## Changes of one port's record -/

theorem SameBut.refl (s : State) (p : Port) : SameBut s s p := ⟨fun _ _ => rfl, rfl, rfl, rfl, rfl, rfl, rfl, rfl, rfl, rfl⟩

theorem SameBut.trans (h : SameBut s t p) (k : SameBut t u p) : SameBut s u p := by
  obtain ⟨h0, h1, h2, h3, h4, h5, h6, h7, h8, h9⟩ := h
  obtain ⟨k0, k1, k2, k3, k4, k5, k6, k7, k8, k9⟩ := k
  exact ⟨fun q hq => (k0 q hq).trans (h0 q hq), k1.trans h1, k2.trans h2, k3.trans h3, k4.trans h4, k5.trans h5, k6.trans h6,
    k7.trans h7, k8.trans h8, k9.trans h9⟩

theorem SameBut.outside (h : SameBut s t p) : SameOutside s t p := by
  obtain ⟨h0, h1, h2, h3, h4, -, h6, h7, -, h9⟩ := h
  exact ⟨h0, h1, h2, h3, h4, h6, h7, h9⟩

theorem SameBut.masters_eq (h : SameBut s t p) : t.masters = s.masters := by
  obtain ⟨-, -, -, -, -, -, -, -, hmasters, -⟩ := h
  exact hmasters

theorem updPort_sameBut (s : State) (p : Port) (f : PortRec → PortRec) : SameBut s (s.updPort p f) p :=
  ⟨fun _ hq => s.updPort_port_of_ne f (Ne.symm hq), rfl, rfl, rfl, rfl, rfl, rfl, rfl, rfl, rfl⟩

@[simp] theorem updPort_updPort (s : State) (p : Port) (f g : PortRec → PortRec) :
    (s.updPort p f).updPort p g = s.updPort p (fun r => g (f r)) := by
  simp only [State.updPort, vector_get_set_self]
  congr 1
  exact Vector.set_set ..

theorem updPort_self {f : PortRec → PortRec} (h : f (s.port p) = s.port p) : s.updPort p f = s := by
  have hv : s.ports.set p (f (s.ports.get p)) = s.ports := by
    rw [show f (s.ports.get p) = s.ports.get p from h]
    exact Vector.set_getElem_self ..
  unfold State.updPort
  rw [hv]

/-- A change of one port is fixed by what it makes of the record as it stands. -/
theorem updPort_congr {f g : PortRec → PortRec} (h : f (s.port p) = g (s.port p)) : s.updPort p f = s.updPort p g := by
  unfold State.updPort
  rw [show f (s.ports.get p) = g (s.ports.get p) from h]

/-- A command that changes one port's record alone, in the form the statements give it. -/
theorem next_updPort {o : Outcome} {f : PortRec → PortRec} {r : PortRec} (h : o = .next (s.updPort p f))
    (hr : f (s.port p) = r) : ∃ t, o = .next t ∧ SameBut s t p ∧ t.port p = r :=
  ⟨_, h, updPort_sameBut s p f, (s.updPort_port_self p f).trans hr⟩

end

section
variable {s t u : State} {p q : Port} {rate : Rate}

/-! ## Packets at the link controller -/

theorem receives_eq_false
    (h : (s.port p).link.state = .down ∨ (s.port p).link.state = .testing ∨ rate ≠ (s.port p).link.listen) :
    s.receives p rate = false := by
  obtain h | h | h := h
  · simp [State.receives, h, LinkState.connected]
  · simp [State.receives, h, LinkState.connected]
  · simp [State.receives, Ne.symm h]

theorem connected_of_ne {l : LinkState} (hd : l ≠ .down) (ht : l ≠ .testing) : l.connected = true := by
  cases l <;> first | rfl | contradiction

theorem receives_listen (h : (s.port p).link.state.connected = true) : s.receives p (s.port p).link.listen = true := by
  simp [State.receives, h]

/-- R9: outside training a packet does not count toward a clean run. -/
theorem countClean_of_not_training (h : (s.port p).link.state.inTraining = false) : s.countClean p = s := by
  simp [State.countClean, h]

theorem countClean_starts {a : Attempt} (h : (s.port p).link.state.inTraining = true) (ha : (s.port p).link.attempt = some a)
    (hc : a.cleanStart = none) :
    s.countClean p = s.updLink p (fun l => { l with attempt := some { a with cleanStart := some s.now } }) := by
  simp [State.countClean, h, ha, hc]

theorem countClean_within {a : Attempt} {c : Time} (ha : (s.port p).link.attempt = some a)
    (hc : a.cleanStart = some c) (hnow : s.now < c + 10000) : s.countClean p = s := by
  have : ¬ c + ms 10 ≤ s.now := Nat.not_le.mpr hnow
  simp [State.countClean, ha, hc, this]

theorem countClean_done {a : Attempt} {c : Time} (h : (s.port p).link.state.inTraining = true)
    (ha : (s.port p).link.attempt = some a) (hc : a.cleanStart = some c) (hnow : c + 10000 ≤ s.now) :
    s.countClean p = (s.updLink p (LinkRec.enterUp s.now)).linkEvent p (s.port p).link.state none := by
  have : c + ms 10 ≤ s.now := hnow
  simp [State.countClean, h, ha, hc, this]

/-- A LINK_EVENT, its fields read from the record the link has. -/
theorem linkEvent_eq {l : LinkRec} (h : (s.port p).link = l) (b : LinkState) (n : Option Nat) :
    s.linkEvent p b n = s.notifyAll (decide (l.state = .lost) && decide (b ≠ .lost))
      (.linkEvent
        { port := p, previous := b, new := l.state, rate := if l.state = .up then l.current else none,
          cause := if l.state = .lost ∨ l.state = .down then l.lastCause else none, degraded := l.degraded,
          changed := l.changed, windowCount := n }) := by
  subst h; rfl

/-- R2: an IDLE that is received. -/
theorem exec_idle_received (h : s.receives p rate = true) : exec (.idle p rate) s = .next ((s.hear p).countClean p) := by
  simp [exec, execIdle, h]

theorem exec_malformedPacket_received (h : s.receives p rate = true) :
    exec (.malformedPacket p rate) s = .next (((s.hear p).countClean p).countStray p) := by
  simp [exec, execMalformedPacket, h]

theorem hear_eq (s : State) (p : Port) :
    s.hear p = s.updPort p (fun r => { r with link := r.link.heardPacket s.now }) := rfl

theorem connected_of_training {l : LinkState} (h : l = .training ∨ l = .retraining) : l.connected = true := by
  obtain rfl | rfl := h <;> rfl

theorem inTraining_of {l : LinkState} (h : l = .training ∨ l = .retraining) : l.inTraining = true := by
  obtain rfl | rfl := h <;> rfl

@[simp] theorem heardPacket_state (now : Time) (l : LinkRec) : (l.heardPacket now).state = l.state := rfl

theorem heardPacket_of_none {l : LinkRec} (h : l.attempt = none) (now : Time) :
    l.heardPacket now = { l with lastPacket := some now } := by
  simp [LinkRec.heardPacket, h]

theorem heardPacket_of_some {l : LinkRec} {a : Attempt} (h : l.attempt = some a) (now : Time) :
    l.heardPacket now = { l with lastPacket := some now, attempt := some { a with heard := true } } := by
  simp [LinkRec.heardPacket, h]

theorem satInc_eq (n : Nat) : satInc n = if n < 4294967295 then n + 1 else n := rfl

/-- Settles O19. -/
theorem checkPassedPacketsCountTowardTheCleanRun : Obligations.CheckPassedPacketsCountTowardTheCleanRun := by
  intro s p rate
  refine ⟨fun h => ?_, fun h hrate hnone => ?_, fun a h hrate ha => ?_, fun hd ht hrate => ?_⟩
  · have hrec := receives_eq_false h
    exact ⟨by simp [exec, execIdle, hrec], by simp [exec, execMalformedPacket, hrec]⟩
  · subst hrate
    have hconn : (s.port p).link.state.connected = true := by obtain h | h | h := h <;> rw [h] <;> rfl
    have htrain : (s.port p).link.state.inTraining = false := by obtain h | h | h := h <;> rw [h] <;> rfl
    have hclean : (s.hear p).countClean p = s.hear p := countClean_of_not_training (by simpa [hear_eq] using htrain)
    refine next_updPort (f := fun r => { r with link := r.link.heardPacket s.now })
      ((exec_idle_received (receives_listen hconn)).trans ?_) ?_
    · rw [hclean, hear_eq]
    · dsimp only
      rw [heardPacket_of_none hnone]
  · subst hrate
    have hconn := connected_of_training h
    have hexec := exec_idle_received (receives_listen hconn)
    have hheard : ((s.hear p).port p).link =
        { (s.port p).link with lastPacket := some s.now, attempt := some { a with heard := true } } := by
      rw [hear_eq, State.updPort_port_self, heardPacket_of_some ha]
    have htrain : ((s.hear p).port p).link.state.inTraining = true := by rw [hheard]; exact inTraining_of h
    have hattempt : ((s.hear p).port p).link.attempt = some { a with heard := true } := by rw [hheard]
    refine ⟨fun hstart => ?_, fun c hstart hnow => ?_, fun c hstart hnow => ?_⟩
    · rw [countClean_starts htrain hattempt hstart] at hexec
      refine next_updPort (f := fun r => { r with link := { r.link with
          lastPacket := some s.now, attempt := some { a with heard := true, cleanStart := some s.now } } }) (hexec.trans ?_) rfl
      · simp only [hear_eq, State.updLink, updPort_updPort]
        rfl
    · rw [countClean_within hattempt hstart hnow] at hexec
      refine next_updPort (hexec.trans (by rw [hear_eq])) ?_
      dsimp only
      rw [heardPacket_of_some ha]
    · rw [countClean_done htrain hattempt hstart hnow] at hexec
      have hlink : (((s.hear p).updLink p (LinkRec.enterUp s.now)).port p) = { s.port p with link :=
          { (s.port p).link with state := .up, lastPacket := some s.now, attempt := none, window := some ⟨s.now, 0⟩ } } := by
        simp only [State.updLink, hear_eq, updPort_updPort, State.updPort_port_self, LinkRec.enterUp]
        rfl
      refine ⟨(s.hear p).updLink p (LinkRec.enterUp s.now), ?_, hlink, ?_⟩
      · exact (updPort_sameBut _ _ _).trans (updPort_sameBut _ _ _)
      · have hst : ((s.hear p).port p).link.state = (s.port p).link.state := by rw [hheard]
        rw [hexec, hst]
        exact congrArg Host.Outcome.next (linkEvent_eq (congrArg PortRec.link hlink) _ _)
  · subst hrate
    have hrec := receives_listen (connected_of_ne hd ht)
    exact ⟨_, exec_idle_received hrec, exec_malformedPacket_received hrec⟩

/-- Settles O22. -/
theorem downChannelSendsInOrder : Obligations.DownChannelSendsInOrder := by
  intro s p
  refine ⟨fun h => ?_, fun h => ?_⟩
  · have hsends : (s.port p).link.state.sends = true := by obtain h | h | h := h <;> rw [h] <;> rfl
    have hexec : exec (.downChannelSend p) s = .next (s.sendDown p) := by simp [exec, execDownChannelSend, hsends]
    refine ⟨fun hw => ?_, fun k rest hw hk => ?_, fun k rest hw hk hup => ?_⟩
    · refine next_updPort (f := fun r => { r with lastSent := some .idle }) (hexec.trans ?_) rfl
      simp only [State.sendDown, hw]
    · have hkeep : (k.needsUp && decide ((s.port p).link.state ≠ .up)) = false := by
        obtain hk | hk := hk <;> simp [hk]
      refine next_updPort (f := fun r => { r with waiting := rest, lastSent := some k }) (hexec.trans ?_) rfl
      simp only [State.sendDown, hw, hkeep, Bool.false_eq_true, if_false]
    · refine next_updPort (f := fun r => { r with waiting := rest }) (hexec.trans ?_) rfl
      simp only [State.sendDown, hw, hk, hup, ne_eq, not_false_eq_true, decide_true, Bool.and_self, if_true]
  · have hsends : (s.port p).link.state.sends = false := by obtain h | h | h | h := h <;> rw [h] <;> rfl
    simp [exec, execDownChannelSend, hsends]

end
end Sys2Proof.Machine

end


section
/-! PROOFS. Departures from UP, and a port switched off by its link: the link requests, the deadlines and check failures (chapter 1). -/

namespace Sys2Proof.Machine

variable {s t u : State} {p q : Port}

/-! ## The down-channel -/

/-- R3: a packet handed to a down-channel with room. -/
theorem handDown_of_room {k : DownPacket} (hk : k.needsUp = false ∨ (s.port p).link.state = .up)
    (hroom : (s.port p).waiting.length < 16) :
    s.handDown p k = s.updPort p (fun r => { r with waiting := r.waiting ++ [k] }) := by
  obtain ⟨-, h⟩ | ⟨h, -⟩ := handDown_cases s p k
  · obtain ⟨hup, hne⟩ | h := h
    · obtain hk | hk := hk
      · rw [hup] at hk; cases hk
      · exact absurd hk hne
    · exact absurd hroom (Nat.not_lt.mpr h)
  · exact h

/-- R3: at most the waiting packets change. -/
theorem handDown_port (s : State) (p : Port) (k : DownPacket) : ∃ w, (s.handDown p k).port p = { s.port p with waiting := w } ∧
    ∀ x ∈ w, x ∈ (s.port p).waiting ∨ x = k := by
  obtain ⟨h, -⟩ | ⟨h, -⟩ := handDown_cases s p k
  · exact ⟨(s.port p).waiting, by rw [h], fun x hx => .inl hx⟩
  · refine ⟨(s.port p).waiting ++ [k], by rw [h, State.updPort_port_self], fun x hx => ?_⟩
    simpa using hx

/-! ## Requests that name a port -/

@[simp] theorem taken_port (s : State) (m : Master) (q : Port) : (s.taken m).port q = s.port q := rfl
@[simp] theorem taken_now (s : State) (m : Master) : (s.taken m).now = s.now := rfl
@[simp] theorem taken_mgr (s : State) (m : Master) : (s.taken m).mgr = s.mgr := rfl
@[simp] theorem taken_engine (s : State) (m : Master) : (s.taken m).engine = s.engine := rfl
@[simp] theorem taken_store (s : State) (m : Master) : (s.taken m).store = s.store := rfl
@[simp] theorem taken_presets (s : State) (m : Master) : (s.taken m).presets = s.presets := rfl
@[simp] theorem taken_lines (s : State) (m : Master) : (s.taken m).lines = s.lines := rfl

/-- R192: a request whose block answers `a` and leaves `t`. -/
theorem takeRequest_answers {m : Master} {k : RequestKind} {e : RequestEntry} {act : State → Answer × State} {a : Answer}
    (h : Reaches s m k e) (ha : act (s.taken m) = (a, t)) : s.takeRequest m k true act = t.reply m e a := by
  rw [takeRequest_of_reaches h, ha]

theorem takeRequest_onPort {m : Master} {k : RequestKind} {e : RequestEntry} {act : Port → State → Answer × State} {a : Answer}
    {n : Nat} (h : Reaches s m k e) (hp : portOf n = some p) (ha : act p (s.taken m) = (a, t)) :
    s.takeRequest m k true (onPort n act) = t.reply m e a :=
  takeRequest_answers h (by rw [onPort_of_portOf hp]; exact ha)

/-! ## Departures (R12) -/

theorem leftFrom_of_ne {b : LinkState} (h : b ≠ .up) (n : Option Nat) : s.leftFrom p b n = s := by
  simp [State.leftFrom, h]

/-- R3, R12: the packets that a departure leaves waiting. -/
theorem announceLeft_waiting (s : State) (p : Port) :
    ((s.announceLeft p).port p).waiting = (s.port p).waiting.filter (fun k => !k.needsUp) := by
  unfold State.announceLeft State.lensLinkLeft
  rw [State.updLens_port_waiting, (intakeLinkLeft_beside _ p p).2.2.2, (seqCameraLost_link_waiting _ p).2]
  simp [State.dropDown]

/-- The link of a port after it has left its state, with the announcements where that was UP. -/
theorem depart_link {f : LinkRec → LinkRec} :
    ((if (s.port p).link.state = .up then (s.updLink p f).announceLeft p else s.updLink p f).port p).link =
      if (s.port p).link.state = .up then (f (s.port p).link).noWindow else f (s.port p).link := by
  split
  · rw [announceLeft_link, State.updLink_port_link]
  · rw [State.updLink_port_link]

/-- A quiet port stays quiet under a new link record without a window and packets that can be sent in every state. -/
theorem quiet_of_link {r u : PortRec} (h : r.quiet) (hseq : u.seq = r.seq) (hin : u.intake = r.intake) (hlens : u.lens = r.lens)
    (hw : u.link.window = none) (hd : u.link.degraded = false) (hk : ∀ k ∈ u.waiting, k.needsUp = false) : u.quiet := by
  obtain ⟨hactive, hidle, horigin, -, -, -, haxes⟩ := h
  refine ⟨hseq ▸ hactive, hin ▸ hidle, hin ▸ horigin, hw, hd, hk, hlens ▸ haxes⟩

/-! ## Retraining (R16) -/

/-- R12, R16: what retraining leaves of an UP link and its port. -/
theorem enterRetraining_port (r : Rate) (n : Option Nat) :
    ((s.enterRetraining p r n).port p).link =
      (LinkRec.attemptAt s.now r { (s.port p).link with state := .retraining }).noWindow ∧
    ((s.enterRetraining p r n).port p).quiet ∧
    (((s.port p).waiting.filter (fun k => !k.needsUp)).length < 16 →
      ((s.enterRetraining p r n).port p).waiting = (s.port p).waiting.filter (fun k => !k.needsUp) ++ [.rateSet r]) := by
  generalize hv : s.updLink p (fun l => { l with state := .retraining }) = v
  have hvl : (v.port p).link = { (s.port p).link with state := .retraining } := by rw [← hv, State.updLink_port_link]
  have hvw : (v.port p).waiting = (s.port p).waiting := by rw [← hv, State.updLink_port_waiting]
  generalize hu : (v.announceLeft p).linkEvent p .up n = u
  have hup : u.port p = (v.announceLeft p).port p := by rw [← hu]; exact (linkEvent_same _ p _ _).1 p
  have ht : s.enterRetraining p r n = (u.handDown p (.rateSet r)).updLink p (LinkRec.attemptAt s.now r) := by
    rw [← hu, ← hv]; rfl
  have hquiet := announceLeft_quiet v p
  have hlink := announceLeft_link v p
  have hwaiting := announceLeft_waiting v p
  rw [← hup] at hquiet hlink hwaiting
  rw [hvw] at hwaiting
  obtain ⟨w, hw, hmem⟩ := handDown_port u p (.rateSet r)
  have hport : (s.enterRetraining p r n).port p =
      { u.port p with waiting := w, link := LinkRec.attemptAt s.now r (u.port p).link } := by
    rw [ht, State.updLink, State.updPort_port_self, hw]
  have hnew : ((s.enterRetraining p r n).port p).link =
      (LinkRec.attemptAt s.now r { (s.port p).link with state := .retraining }).noWindow := by
    rw [hport, hlink, hvl]; rfl
  refine ⟨hnew, quiet_of_link hquiet ?_ ?_ ?_ (by rw [hnew]; rfl) (by rw [hnew]; rfl) fun k hk => ?_, fun hroom => ?_⟩
  · rw [hport]
  · rw [hport]
  · rw [hport]
  · rw [hport] at hk
    obtain hk | rfl := hmem k hk
    · exact hquiet.2.2.2.2.2.1 k hk
    · rfl
  · rw [ht, State.updLink_port_waiting, handDown_of_room (.inl rfl) (by rw [hwaiting]; exact hroom), State.updPort_port_self,
      hwaiting]

/-- Settles O24. -/
theorem errorWindowsAreJudgedAtTheirEnd : Obligations.ErrorWindowsAreJudgedAtTheirEnd := by
  intro s p w hw hup
  have hexec : exec (.errorWindowEnd p) s = .next (if w.start + 1000000 ≤ s.now then s.judgeWindow p w else s) := by
    show Host.Outcome.next _ = _
    rw [hw]
    simp only [hup, true_and]
    rfl
  refine ⟨fun hnow => by rw [hexec, if_neg (Nat.not_le.mpr hnow)], fun hnow => ?_⟩
  rw [if_pos hnow] at hexec
  rw [hexec]
  refine ⟨fun mark hmark => ?_, fun q r hover hq hr => ?_⟩
  · have hjudge : s.judgeWindow p w = s.nextWindow p w mark := by
      unfold State.judgeWindow
      obtain ⟨rfl, hle⟩ | ⟨rfl, hlt, hcur⟩ := hmark
      · rw [if_neg (Nat.not_lt.mpr hle)]
      · rw [if_pos hlt, hcur]; rfl
    rw [hjudge]
    have hport : (s.updLink p (fun l => { l with window := some ⟨w.start + ms 1000, 0⟩, degraded := mark })).port p =
        { s.port p with link := { (s.port p).link with window := some ⟨w.start + 1000000, 0⟩, degraded := mark } } :=
      State.updPort_port_self s p _
    refine ⟨_, updPort_sameBut _ _ _, hport, fun hsame => ?_, fun hne => ?_⟩
    · simp only [State.nextWindow, hsame, if_true]
      rfl
    · simp only [State.nextWindow, hne, if_false]
      rw [linkEvent_eq (congrArg PortRec.link hport)]
      simp [hup]
      rfl
  · have hjudge : s.judgeWindow p w = s.enterRetraining p r (some w.count) := by
      simp [State.judgeWindow, hover, hq, hr]
    rw [hjudge]
    obtain ⟨hlink, hquiet, -⟩ := enterRetraining_port (s := s) (p := p) r (some w.count)
    refine ⟨_, rfl, (enterRetraining_only s p r _).1, ?_, ?_, ?_, hquiet, ?_⟩ <;> rw [hlink] <;> rfl

/-- Settles O18. -/
theorem linkRequestsAct : Obligations.LinkRequestsAct := by
  refine ⟨fun s m e n p hp => ⟨fun h => ?_, fun h r => ?_, fun h k hk => ?_⟩, fun s m e n p hp h => ⟨fun hup => ?_, fun hup => ?_⟩⟩
  · exact congrArg Host.Outcome.next (takeRequest_onPort h hp rfl)
  · refine congrArg Host.Outcome.next (takeRequest_onPort h hp ?_)
    cases r <;> rfl
  · have hrate : rateOf k = none := by
      unfold rateOf
      split <;> first | rfl | omega
    refine congrArg Host.Outcome.next (takeRequest_onPort h hp ?_)
    rw [hrate]
    rfl
  · generalize hr : ((s.port p).link.current.getD .r1250).min (s.port p).profile.rateLimit = r
    have hexec : exec (.retrain m n) s = .next (((s.taken m).enterRetraining p r none).reply m e { result := .done }) := by
      refine congrArg Host.Outcome.next (takeRequest_onPort h hp ?_)
      simp only [taken_port, hup, hr, if_true]
    obtain ⟨hlink, hquiet, hroom⟩ := enterRetraining_port (s := s.taken m) (p := p) r none
    refine ⟨_, r, hexec, rfl, ((taken_same s m).only p).1.trans (enterRetraining_only _ p _ _).1, ?_, ?_, ?_, ?_, hquiet, hroom⟩ <;>
      rw [hlink] <;> rfl
  · refine congrArg Host.Outcome.next (takeRequest_onPort h hp ?_)
    simp only [taken_port, hup, if_false]
    rfl

end Sys2Proof.Machine

end


section
/-! PROOFS. A port switched off: its power, its link and the sweep that may follow (R18, R31, R37, R49). -/

namespace Sys2Proof.Machine

variable {s t u : State} {p q : Port}

/-! ## Power leaving the energized states (R19, R37) -/

/-- R19: the link of a port whose power has gone. -/
def LinkRec.powerLeft (l : LinkRec) : LinkRec :=
  if l.state = .down ∨ l.state = .testing then { l with helloDeadline := none }
  else if l.state = .up then (LinkRec.enterDown .powerOff l).noWindow else LinkRec.enterDown .powerOff l

theorem linkPowerLeft_link (s : State) (p : Port) : ((s.linkPowerLeft p).port p).link = (s.port p).link.powerLeft := by
  unfold State.linkPowerLeft LinkRec.powerLeft
  dsimp only
  split
  · exact State.updLink_port_link s p _ |>.trans (by simp)
  · rw [leftFrom_port rfl, depart_link]

/-- R19: a link that was not UP leaves the rest of the port's record. -/
theorem linkPowerLeft_port (h : (s.port p).link.state ≠ .up) :
    (s.linkPowerLeft p).port p = { s.port p with link := (s.port p).link.powerLeft } := by
  unfold State.linkPowerLeft LinkRec.powerLeft
  dsimp only
  split
  · exact State.updPort_port_self s p _
  · rw [leftFrom_of_ne h]
    exact State.updPort_port_self s p _

theorem linkPowerLeft_quiet (h : (s.port p).link.state = .up) : ((s.linkPowerLeft p).port p).quiet := by
  unfold State.linkPowerLeft
  dsimp only
  rw [if_neg (by simp [h]), leftFrom_port rfl, if_pos h]
  exact announceLeft_quiet _ p

theorem powerLeft_state {l : LinkRec} (h : l.state ≠ .testing) : l.powerLeft.state = .down := by
  unfold LinkRec.powerLeft
  split
  · rename_i hd
    exact hd.resolve_right h
  · split <;> rfl

theorem powerLeft_helloDeadline (l : LinkRec) : l.powerLeft.helloDeadline = none := by
  unfold LinkRec.powerLeft
  split
  · rfl
  · split <;> rfl

theorem powerLeft_lastCause {l : LinkRec} (hd : l.state ≠ .down) (ht : l.state ≠ .testing) :
    l.powerLeft.lastCause = some .powerOff := by
  unfold LinkRec.powerLeft
  rw [if_neg (by simp [hd, ht])]
  split <;> rfl

/-- What is left of a port, in a state `t`, after its power part has become `w` and its link has followed; the traffic of the other
ports is that of `s`. -/
structure PoweredOff (s t : State) (p : Port) (w : PowerRec) : Prop where
  traffic : SameTraffic s t p
  power : (t.port p).power = w
  link : (t.port p).link = (s.port p).link.powerLeft
  marks : (t.port p).marks = (s.port p).marks
  record : (s.port p).link.state ≠ .up → t.port p = { s.port p with power := w, link := (s.port p).link.powerLeft }
  quiet : (s.port p).link.state = .up → (t.port p).quiet

theorem PoweredOff.of_linkPowerLeft {v : State} {w : PowerRec} (htr : SameTraffic s v p)
    (hport : v.port p = { s.port p with power := w }) : PoweredOff s (v.linkPowerLeft p) p w where
  traffic := htr.trans (linkPowerLeft_only v p).traffic
  power := by rw [(linkPowerLeft_only v p).2.1, hport]
  link := by rw [linkPowerLeft_link, hport]
  marks := by rw [(linkPowerLeft_only v p).2.2.1, hport]
  record h := by rw [linkPowerLeft_port (by rw [hport]; exact h), hport]
  quiet h := linkPowerLeft_quiet (by rw [hport]; exact h)

/-- What follows without touching the port keeps what is left of it. -/
theorem PoweredOff.trans {w : PowerRec} (h : PoweredOff s t p w) (htr : SameTraffic t u p) (hport : u.port p = t.port p) :
    PoweredOff s u p w where
  traffic := h.traffic.trans htr
  power := hport ▸ h.power
  link := hport ▸ h.link
  marks := hport ▸ h.marks
  record hup := hport ▸ h.record hup
  quiet hup := hport ▸ h.quiet hup

theorem updPower_traffic (s : State) (p : Port) (f : PowerRec → PowerRec) : SameTraffic s (s.updPower p f) p := by
  refine (updPort_sameBut s p _).outside.traffic ?_ ?_ ?_ <;> rw [State.updPort_port_self]

/-- R37: leaving the energized states, on a state that differs in the port's power part and elsewhere no traffic. -/
theorem leaveEnergized_off {v : State} {w : PowerRec} (htr : SameTraffic s v p) (hport : v.port p = { s.port p with power := w })
    (b : PowerState) : PoweredOff s (v.leaveEnergized p b) p (PowerRec.deenergize s.now w) := by
  have hnow : v.now = s.now := htr.2.2.2.2.1
  have hself : (v.updPower p (PowerRec.deenergize v.now)).port p = { s.port p with power := PowerRec.deenergize s.now w } := by
    rw [State.updPower, State.updPort_port_self, hport, hnow]
  unfold State.leaveEnergized
  dsimp only
  split
  · exact .of_linkPowerLeft (htr.trans (updPower_traffic v p _)) hself
  · exact .of_linkPowerLeft (htr.trans (updPower_traffic v p _)) hself

/-- R37: of the manager only the last inrush end changes, and of the engine nothing. -/
theorem leaveEnergized_mgr (s : State) (p : Port) (b : PowerState) :
    (s.leaveEnergized p b).mgr = { s.mgr with lastInrushEnd := (s.leaveEnergized p b).mgr.lastInrushEnd } ∧
    (s.leaveEnergized p b).engine = s.engine := by
  unfold State.leaveEnergized
  dsimp only
  split
  all_goals
    obtain ⟨-, -, -, hmgr, hengine, -⟩ := (linkPowerLeft_only _ p).1
    rw [hmgr, hengine]
    exact ⟨rfl, rfl⟩

/-! ## The sweep queue (R49, R52) -/

theorem enterAcquiring_traffic (s : State) (e : SweepEntry) (p : Port) : SameTraffic s (s.enterAcquiring e) p := by
  have key : ∀ r : Port, (s.port r).sameTraffic ((s.enterAcquiring e).port r) := fun r => by
    by_cases h : r = e.port
    · subst h
      rw [enterAcquiring_port_self]
      exact ⟨rfl, rfl, rfl, rfl, rfl, rfl, rfl, rfl⟩
    · rw [enterAcquiring_port_of_ne s e h]
      exact sameTraffic_refl _
  obtain ⟨-, -, -, -, -, hlog, hprofile, hsubs⟩ := key p
  exact ⟨fun r _ => key r, hprofile, hlog, hsubs, rfl, rfl, rfl, rfl, rfl⟩

/-- R52: an engine that takes an entry leaves every port's traffic. -/
theorem takeEntry_traffic (s : State) (p : Port) : SameTraffic s s.takeEntry p := by
  obtain ⟨h, -⟩ | ⟨e, rest, -, -, ⟨-, h⟩ | ⟨-, h⟩⟩ := takeEntry_cases s <;> rw [h]
  · exact .refl s p
  · exact .refl s p
  · exact enterAcquiring_traffic (s.updEngine _) e p

/-- R52: a port de-energized less than 100 ms ago is not acquired yet. -/
theorem takeEntry_port (h : s.now < (s.port p).power.deenergized + ms 100) : s.takeEntry.port p = s.port p := by
  obtain ⟨k, -⟩ | ⟨e, rest, -, -, ⟨-, k⟩ | ⟨hle, k⟩⟩ := takeEntry_cases s <;> rw [k]
  · rfl
  · have hne : p ≠ e.port := by
      rintro rfl
      exact absurd hle (Nat.not_le.mpr h)
    exact enterAcquiring_port_of_ne (s.updEngine _) e hne

theorem sweepAppend_traffic (s : State) (p : Port) (c : SweepCause) (m : Option Master) (n : Option Nat) :
    SameTraffic s (s.sweepAppend p c m n) p := by
  unfold State.sweepAppend
  dsimp only
  split
  · exact .refl s p
  · refine .trans (t := (s.updMarks p fun m => { m with sweepPending := true }).updEngine _) ?_ (takeEntry_traffic _ p)
    have hself := State.updPort_port_self s p fun r => { r with marks := { r.marks with sweepPending := true } }
    exact (updPort_sameBut s p _).outside.traffic (by rw [hself]) (by rw [hself]) (by rw [hself])

/-- R49: the mark of a port, just de-energized, whose sweep is queued. -/
theorem sweepAppend_port (ht : (s.port p).marks.testing = false) (h : s.now < (s.port p).power.deenergized + ms 100)
    (c : SweepCause) (m : Option Master) (n : Option Nat) :
    (s.sweepAppend p c m n).port p = { s.port p with marks := { (s.port p).marks with sweepPending := true } } := by
  unfold State.sweepAppend
  dsimp only
  split
  · rename_i hm
    have hpending : (s.port p).marks.sweepPending = true := by simpa [ht] using hm
    rw [← hpending]
  · rw [takeEntry_port (by simpa using h), State.updEngine_port, State.updMarks, State.updPort_port_self]

theorem takeEntry_mgr (s : State) : s.takeEntry.mgr = s.mgr := by
  obtain ⟨k, -⟩ | ⟨e, rest, -, -, ⟨-, k⟩ | ⟨hle, k⟩⟩ := takeEntry_cases s <;> rw [k] <;> rfl

theorem sweepAppend_mgr (s : State) (p : Port) (c : SweepCause) (m : Option Master) (n : Option Nat) :
    (s.sweepAppend p c m n).mgr = s.mgr := by
  unfold State.sweepAppend
  dsimp only
  split
  · rfl
  · exact takeEntry_mgr _

/-! ## Switching off (R31) -/

theorem enterOff_traffic (s : State) (p : Port) (c : OffCause) : SameTraffic s (s.enterOff p c) p := by
  have hself := enterOff_port_self s p c
  exact ⟨fun q hq => by rw [enterOff_port_of_ne s c hq]; exact sameTraffic_refl _, by rw [hself], by rw [hself], by rw [hself],
    rfl, rfl, rfl, rfl, rfl⟩

/-- R31, R37: an energized port that is switched off, the head tested after it or not. -/
theorem switchOff_spec (h : (s.port p).power.state.energized = true) (c : OffCause) :
    PoweredOff s (s.switchOff p c) p
      (PowerRec.deenergize s.now { (s.port p).power with allotment := none, state := .off, lastOff := some c }) ∧
    ∃ d, (s.switchOff p c).mgr = { s.mgr with
      committed := s.mgr.committed - (s.port p).power.allotment.getD 0
      startQueue := s.mgr.startQueue.filter (fun q => !(q == p)), lastInrushEnd := d } := by
  have hcommitted := energized_committed h
  have hoff := leaveEnergized_off (enterOff_traffic s p c) (enterOff_port_self s p c) (s.port p).power.state
  obtain ⟨hmgr, -⟩ := leaveEnergized_mgr (s.enterOff p c) p (s.port p).power.state
  obtain ⟨b, he⟩ : ∃ b, s.switchOff p c = ((s.enterOff p c).leaveEnergized p (s.port p).power.state).powerEvent false b := by
    unfold State.switchOff
    simp only [h, hcommitted, Bool.not_true, Bool.false_eq_true, if_false, if_true]
    exact ⟨_, rfl⟩
  generalize (s.enterOff p c).leaveEnergized p (s.port p).power.state = v at hoff hmgr he
  have hsame := powerEvent_same v false b
  rw [he]
  obtain ⟨kport, -, -, kmgr, -⟩ := id hsame
  exact ⟨hoff.trans (hsame.traffic p) (kport p), _, by rw [kmgr, hmgr, enterOff_mgr]⟩

theorem switchOffBy_spec (h : (s.port p).power.state.energized = true) (c : OffCause) :
    PoweredOff s (s.switchOffBy p c) p
      (PowerRec.deenergize s.now { (s.port p).power with allotment := none, state := .off, lastOff := some c }) ∧
    (s.switchOffBy p c).mgr.committed = s.mgr.committed - (s.port p).power.allotment.getD 0 := by
  obtain ⟨hoff, d, hmgr⟩ := switchOff_spec h c
  have he : s.switchOffBy p c = (s.switchOff p c).testHead := if_pos h
  rw [he]
  refine ⟨hoff.trans (testHead_traffic _ p) (testHead_port_of_not_mem _ ?_), ?_⟩
  · rw [hmgr]; simp
  · rw [testHead_mgr, hmgr]

end Sys2Proof.Machine

end


section
/-! PROOFS. Links that are lost, with and without auto-sweep, and HELLO (R6 to R8, R10, R18). -/

namespace Sys2Proof.Machine

variable {s t u : State} {p q : Port} {why : LinkCause}

/-! ## Entry into LOST (R18) -/

/-- R12, R18: the link lost, before the notice and the sweep. -/
def State.lost (s : State) (p : Port) (why : LinkCause) : State :=
  if (s.port p).link.state = .up then (s.updLink p (LinkRec.enterLost why)).announceLeft p
  else s.updLink p (LinkRec.enterLost why)

theorem lost_only (s : State) (p : Port) (why : LinkCause) : OnlyTraffic s (s.lost p why) p := depart_only

theorem lost_link (s : State) (p : Port) (why : LinkCause) : ((s.lost p why).port p).link =
    if (s.port p).link.state = .up then (LinkRec.enterLost why (s.port p).link).noWindow
    else LinkRec.enterLost why (s.port p).link := depart_link

theorem lost_of_not_up (h : (s.port p).link.state ≠ .up) : s.lost p why = s.updLink p (LinkRec.enterLost why) := if_neg h

theorem lost_quiet (h : (s.port p).link.state = .up) : ((s.lost p why).port p).quiet := by
  unfold State.lost
  rw [if_pos h]
  exact announceLeft_quiet _ p

theorem lost_link_fields (s : State) (p : Port) (why : LinkCause) :
    ((s.lost p why).port p).link.state = .lost ∧ ((s.lost p why).port p).link.lastCause = some why ∧
    ((s.lost p why).port p).link.current = none ∧ ((s.lost p why).port p).link.attempt = none ∧
    ((s.lost p why).port p).link.window = none ∧ ((s.lost p why).port p).link.listen = .r1250 ∧
    ((s.lost p why).port p).link.helloDeadline = none ∧
    ((s.lost p why).port p).link.degraded = (if (s.port p).link.state = .up then false else (s.port p).link.degraded) ∧
    ((s.lost p why).port p).link.changed = (s.port p).link.changed := by
  rw [lost_link]
  split <;> exact ⟨rfl, rfl, rfl, rfl, rfl, rfl, rfl, rfl, rfl⟩

theorem enterLost_eq (s : State) (p : Port) (why : LinkCause) : s.enterLost p why =
    if (s.port p).profile.autoSweep then
      ((((s.lost p why).linkEvent p (s.port p).link.state none).switchOffBy p .linkLost).sweepAppend p .linkLost none none)
    else (s.lost p why).linkEvent p (s.port p).link.state none := by
  have hprofile : (((s.lost p why).linkEvent p (s.port p).link.state none).port p).profile = (s.port p).profile := by
    rw [(linkEvent_same _ p _ _).1, (lost_only s p why).2.2.2.2.1]
  rw [← hprofile]
  rfl

/-- R13, R18: without auto-sweep the link stays LOST and every master is told. -/
theorem enterLost_manual (hsweep : (s.port p).profile.autoSweep = false) (hne : (s.port p).link.state ≠ .lost) :
    s.enterLost p why = (s.lost p why).notifyAll true
      (.linkEvent
        { port := p, previous := (s.port p).link.state, new := .lost, rate := none, cause := some why
          degraded := if (s.port p).link.state = .up then false else (s.port p).link.degraded
          changed := (s.port p).link.changed, windowCount := none }) := by
  obtain ⟨hstate, hcause, -, -, -, -, -, hdegraded, hchanged⟩ := lost_link_fields s p why
  rw [enterLost_eq, hsweep, linkEvent_eq rfl, hstate, hcause, hdegraded, hchanged]
  simp [hne]

/-- R18, R31, R49: with auto-sweep the port is switched off and its sweep is queued. -/
theorem enterLost_swept (hsweep : (s.port p).profile.autoSweep = true) (hon : (s.port p).power.state = .on)
    (hheld : (s.port p).held = false) :
    SameTraffic s (s.enterLost p why) p ∧ ((s.enterLost p why).port p).link.state = .down ∧
    ((s.enterLost p why).port p).link.lastCause = some .powerOff ∧
    ((s.port p).link.state ≠ .up → ((s.enterLost p why).port p).counters = (s.port p).counters) ∧
    ((s.enterLost p why).port p).power.state = .off ∧ ((s.enterLost p why).port p).power.lastOff = some .linkLost ∧
    ((s.enterLost p why).port p).power.deenergized = s.now ∧ ((s.enterLost p why).port p).marks.sweepPending = true := by
  generalize hv : (s.lost p why).linkEvent p (s.port p).link.state none = v
  have honly := lost_only s p why
  have hvp : v.port p = (s.lost p why).port p := by rw [← hv]; exact (linkEvent_same _ p _ _).1 p
  have hvt : SameTraffic s v p := by rw [← hv]; exact honly.traffic.trans ((linkEvent_same _ p _ _).traffic p)
  obtain ⟨hstate, -⟩ := lost_link_fields s p why
  have hpower : (v.port p).power = (s.port p).power := by rw [hvp]; exact honly.2.1
  have hnow : v.now = s.now := hvt.2.2.2.2.1
  obtain ⟨hoff, -⟩ := switchOffBy_spec (s := v) (p := p) (by rw [hpower, hon]; rfl) .linkLost
  have he : s.enterLost p why = (v.switchOffBy p .linkLost).sweepAppend p .linkLost none none := by
    rw [enterLost_eq, hv, if_pos hsweep]
  have htest : ((v.switchOffBy p .linkLost).port p).marks.testing = false := by
    rw [hoff.marks, hvp, honly.2.2.1]
    simpa using (Bool.or_eq_false_iff.1 hheld).2
  have hde : ((v.switchOffBy p .linkLost).port p).power.deenergized = s.now := by rw [hoff.power, hnow]; rfl
  have hlink : ((v.switchOffBy p .linkLost).port p).link = LinkRec.enterDown .powerOff (v.port p).link := by
    rw [hoff.link, hvp]
    unfold LinkRec.powerLeft
    simp [hstate]
  have hsweptNow : (v.switchOffBy p .linkLost).now = s.now := hoff.traffic.2.2.2.2.1.trans hnow
  have hport := sweepAppend_port htest (by rw [hde, hsweptNow]; exact Nat.lt_add_of_pos_right (by decide)) .linkLost none none
  rw [he]
  refine ⟨(hvt.trans hoff.traffic).trans (sweepAppend_traffic _ p _ _ _), ?_, ?_, fun hup => ?_, ?_, ?_, ?_, ?_⟩ <;> rw [hport]
  · simp only [hlink]; rfl
  · simp only [hlink]; rfl
  · have hrecord := hoff.record (by rw [hvp, hstate]; simp)
    rw [hrecord, hvp, lost_of_not_up hup]
    simp
  · simp only [hoff.power]; rfl
  · simp only [hoff.power]; rfl
  · exact hde

/-! ## Failed attempts (R10) -/

theorem failAttempt_lost (ht : (s.port p).link.state = .training ∨ (s.port p).link.state = .retraining)
    (hc : (s.port p).link.current = some .r1250) : s.failAttempt p = s.enterLost p .trainFailed := by
  simp [State.failAttempt, inTraining_of ht, hc, Rate.lower]

theorem failAttempt_lower {r k : Rate} (ht : (s.port p).link.state = .training ∨ (s.port p).link.state = .retraining)
    (hc : (s.port p).link.current = some k) (hr : k.lower = some r) (hroom : (s.port p).waiting.length < 16) :
    s.failAttempt p = s.updPort p (fun x => { x with
      waiting := x.waiting ++ [.rateSet r], link := LinkRec.attemptAt s.now r x.link }) := by
  simp only [State.failAttempt, inTraining_of ht, hc, Option.bind_some, hr, Bool.not_true, Bool.false_eq_true, if_false]
  rw [handDown_of_room (.inl rfl) hroom, State.updLink, updPort_updPort]

/-- Settles O23. -/
theorem linkDeadlinesLeadToLost : Obligations.LinkDeadlinesLeadToLost := by
  intro s p
  refine ⟨fun c why hcase => ?_, fun a r k ha hnow ht hk hr hroom => ?_, fun h => ?_, fun h => ?_, fun h => ?_⟩
  · have hexec : exec c s = .next (s.enterLost p why) ∧ (s.port p).link.state ≠ .lost := by
      obtain ⟨rfl, rfl, hst, d, hd, hle⟩ | ⟨rfl, rfl, hcur, hst, a, ha, hle⟩ | ⟨rfl, rfl, hst, d, hd, hle⟩ := hcase
      · exact ⟨by simp [exec, execHelloTimeout, hst, hd, passed, hle], by simp [hst]⟩
      · refine ⟨?_, by obtain h | h := hst <;> simp [h]⟩
        simp [exec, execAttemptDeadline, ha, passed, hle, failAttempt_lost hst hcur]
      · have hle' : d + ms 50 ≤ s.now := hle
        obtain hst | ⟨hst | hst, a, ha, hh⟩ := hst
        · exact ⟨by simp [exec, execLockLoss, LinkRec.lockLost, hd, hle', hst], by simp [hst]⟩
        · exact ⟨by simp [exec, execLockLoss, LinkRec.lockLost, hd, hle', hst, ha, hh], by simp [hst]⟩
        · exact ⟨by simp [exec, execLockLoss, LinkRec.lockLost, hd, hle', hst, ha, hh], by simp [hst]⟩
    obtain ⟨hexec, hne⟩ := hexec
    refine ⟨fun hsweep => ?_, fun hsweep hon hheld _ _ => ?_⟩
    · obtain ⟨hout, hpower, hmarks, -⟩ := lost_only s p why
      obtain ⟨h1, h2, h3, h4, h5, h6, h7, -⟩ := lost_link_fields s p why
      exact ⟨s.lost p why, by rw [hexec, enterLost_manual hsweep hne], hout, h1, h2, h3, h4, h5, h6, h7, hpower, hmarks,
        lost_quiet⟩
    · obtain ⟨htr, h1, h2, -, h4, h5, h6, h7⟩ := enterLost_swept (why := why) hsweep hon hheld
      exact ⟨_, hexec, htr, h1, h2, h4, h5, h6, h7⟩
  · refine next_updPort (f := fun x => { x with
      waiting := x.waiting ++ [.rateSet r], link := LinkRec.attemptAt s.now r x.link }) ?_ rfl
    simp [exec, execAttemptDeadline, ha, passed, hnow, failAttempt_lower ht hk hr hroom]
  · have hpass : passed s.now (s.port p).link.helloDeadline = false := by
      cases hd : (s.port p).link.helloDeadline with
      | none => rfl
      | some d => simpa [passed] using h d hd
    simp [exec, execHelloTimeout, hpass]
  · have hpass : passed s.now ((s.port p).link.attempt.map Attempt.deadline) = false := by
      cases hd : (s.port p).link.attempt with
      | none => rfl
      | some d => simpa [passed] using h d hd
    simp [exec, execAttemptDeadline, hpass]
  · have hlost : (s.port p).link.lockLost s.now = false := by
      unfold LinkRec.lockLost
      cases hd : (s.port p).link.lastPacket with
      | none => rfl
      | some d =>
        have : ¬ d + ms 50 ≤ s.now := Nat.not_le.mpr (h d hd)
        simp [this]
    simp [exec, execLockLoss, hlost]

/-! ## Check-failed packets (R1) -/

/-- R1: what a check-failed packet leaves before it is judged. -/
theorem hear_countFailed_eq (s : State) (p : Port) : (s.hear p).countFailed p =
    s.updPort p (fun r => { r with link := r.link.heardPacket s.now, counters := { r.counters with
      checkFailed := satInc r.counters.checkFailed } }) := by
  simp only [State.countFailed, State.updCounters, hear_eq, updPort_updPort]

section
variable {rate : Rate} {body : Option (Nat × List Byte)}

theorem exec_checkFailed_other (hrec : s.receives p rate = true)
    (h : (s.port p).link.state = .awaitHello ∨ (s.port p).link.state = .lost) :
    exec (.checkFailedPacket p rate body) s = .next ((s.hear p).countFailed p) := by
  obtain h | h := h <;> simp [exec, execCheckFailedPacket, hrec, h]

theorem exec_checkFailed_up (hrec : s.receives p rate = true) (h : (s.port p).link.state = .up) :
    exec (.checkFailedPacket p rate none) s = .next (((s.hear p).countFailed p).updLink p LinkRec.failInWindow) ∧
    ∀ k payload, exec (.checkFailedPacket p rate (some (k, payload))) s =
      .next ((((s.hear p).countFailed p).updLink p LinkRec.failInWindow).takeLine p k payload true) := by
  constructor
  · simp [exec, execCheckFailedPacket, hrec, h]
  · intro k payload
    simp [exec, execCheckFailedPacket, hrec, h]

theorem exec_checkFailed_training (hrec : s.receives p rate = true)
    (h : (s.port p).link.state = .training ∨ (s.port p).link.state = .retraining) :
    exec (.checkFailedPacket p rate body) s = .next (((s.hear p).countFailed p).failAttempt p) := by
  obtain h | h := h <;> simp [exec, execCheckFailedPacket, hrec, h]

end

/-- Settles O20. -/
theorem checkFailedPacketsCountAndFailAttempts : Obligations.CheckFailedPacketsCountAndFailAttempts := by
  intro s p rate c hrate hc
  generalize hs1 : (s.hear p).countFailed p = s1
  have hport : s1.port p = { s.port p with link := (s.port p).link.heardPacket s.now, counters := c } := by
    rw [← hs1, hear_countFailed_eq, State.updPort_port_self, hc]
    rfl
  have hsame : SameBut s s1 p := by rw [← hs1, hear_countFailed_eq]; exact updPort_sameBut s p _
  have hnow : s1.now = s.now := hsame.2.1
  subst hrate
  refine ⟨fun body hst hnone => ?_, fun w hst hnone hw hcount => ?_, fun body r hst hcur hr hroom => ?_,
    fun body hst hcur => ?_⟩
  · refine ⟨s1, ?_, hsame, ?_⟩
    · rw [exec_checkFailed_other (receives_listen (by obtain h | h := hst <;> rw [h] <;> rfl)) hst, hs1]
    · rw [hport, heardPacket_of_none hnone]
  · obtain ⟨hnone', hline⟩ := exec_checkFailed_up (receives_listen (by rw [hst]; rfl)) hst
    rw [hs1] at hnone'
    simp only [hs1] at hline
    refine ⟨s1.updLink p LinkRec.failInWindow, hnone', hsame.trans (updPort_sameBut s1 p _), ?_, hline⟩
    rw [State.updLink, State.updPort_port_self, hport, heardPacket_of_none hnone]
    simp [LinkRec.failInWindow, hw, satInc_eq, hcount]
  · have htrain : s1.failAttempt p = s1.updPort p (fun x => { x with
        waiting := x.waiting ++ [.rateSet r], link := LinkRec.attemptAt s1.now r x.link }) :=
      failAttempt_lower (by rw [hport]; exact hst) (by rw [hport]; exact hcur) hr (by rw [hport]; exact hroom)
    refine ⟨s1.failAttempt p, ?_, ?_, ?_⟩
    · rw [exec_checkFailed_training (receives_listen (connected_of_training hst)) hst, hs1]
    · rw [htrain]; exact hsame.trans (updPort_sameBut s1 p _)
    · rw [htrain, State.updPort_port_self, hport, hnow]
      rfl
  · have htrain : exec (.checkFailedPacket p (s.port p).link.listen body) s =
        .next (s1.enterLost p .trainFailed) := by
      rw [exec_checkFailed_training (receives_listen (connected_of_training hst)) hst, hs1,
        failAttempt_lost (s := s1) (by rw [hport]; exact hst) (by rw [hport]; exact hcur)]
    have hnotup : (s1.port p).link.state ≠ .up := by rw [hport]; obtain h | h := hst <;> simp [h]
    refine ⟨fun hsweep => ?_, fun hsweep hon hheld _ _ => ?_⟩
    · refine ⟨s1.lost p .trainFailed, ?_, ?_, ?_⟩
      · rw [lost_of_not_up hnotup]; exact hsame.trans (updPort_sameBut s1 p _)
      · rw [lost_of_not_up hnotup, State.updLink, State.updPort_port_self, hport]
        rfl
      · rw [htrain, enterLost_manual (by rw [hport]; exact hsweep) (by rw [hport]; obtain h | h := hst <;> simp [h]),
          if_neg hnotup, hport]
        rfl
    · obtain ⟨htr, h1, h2, h3, h4, h5, h6, h7⟩ := enterLost_swept (s := s1) (p := p) (why := .trainFailed)
        (by rw [hport]; exact hsweep) (by rw [hport]; exact hon) (by rw [hport]; exact hheld)
      refine ⟨_, htrain, SameTraffic.trans (hsame.outside.traffic ?_ ?_ ?_) htr, h1, h2, ?_, h4, h5, h6.trans hnow, h7⟩
      all_goals try rw [hport]
      rw [h3 hnotup, hport]

end Sys2Proof.Machine

end


section
/-! PROOFS. HELLO (R2, R6 to R8). -/

namespace Sys2Proof.Machine

variable {s t u : State} {p q : Port} {h : HelloBody} {i : Identity} {r : Rate}

/-! ## The lens at a departure -/

theorem seqCameraLost_axes (s : State) (p : Port) : ((s.seqCameraLost p).port p).lens.axes = (s.port p).lens.axes := by
  unfold State.seqCameraLost
  split
  · rw [endRun_port]
    dsimp only
    split <;> rfl
  · rfl

/-- R138: every axis of a lens whose link has left UP. -/
theorem announceLeft_axes (s : State) (p : Port) :
    ((s.announceLeft p).port p).lens.axes = (s.port p).lens.axes.map (Option.map AxisRec.linkLeft) := by
  unfold State.announceLeft State.lensLinkLeft
  rw [State.updLens_port_lens, (intakeLinkLeft_beside _ p p).2.2.1, seqCameraLost_axes]
  simp [State.dropDown]

theorem linkLeft_freshAxis (v : Option Nat) : (freshAxis v).map AxisRec.linkLeft = freshAxis v := by cases v <;> rfl

/-! ## Initial training (R8) -/

/-- R8: the link at the start of its initial training. -/
def LinkRec.startTraining (now : Time) (r : Rate) (l : LinkRec) : LinkRec := { LinkRec.attemptAt now r l with state := .training }

theorem startTraining_eq (hr : i.maxRate.min (s.port p).profile.rateLimit = r) : s.startTraining p i =
    ((s.handDown p (.welcome r)).updLink p (LinkRec.startTraining s.now r)).leftFrom p (s.port p).link.state none := by
  rw [← hr]; rfl

theorem startTraining_link (hr : i.maxRate.min (s.port p).profile.rateLimit = r) : ((s.startTraining p i).port p).link =
    if (s.port p).link.state = .up then (LinkRec.startTraining s.now r (s.port p).link).noWindow
    else LinkRec.startTraining s.now r (s.port p).link := by
  rw [startTraining_eq hr, leftFrom_port (by rw [handDown_link]), depart_link, handDown_link]

/-- R3, R8: from a state other than UP only the port's own record changes. -/
theorem startTraining_port_of_room (hr : i.maxRate.min (s.port p).profile.rateLimit = r) (hup : (s.port p).link.state ≠ .up)
    (hroom : (s.port p).waiting.length < 16) : s.startTraining p i = s.updPort p (fun x => { x with
      waiting := x.waiting ++ [.welcome r], link := LinkRec.startTraining s.now r x.link }) := by
  rw [startTraining_eq hr, leftFrom_of_ne hup, handDown_of_room (.inl rfl) hroom, State.updLink, updPort_updPort]

theorem startTraining_quiet (hup : (s.port p).link.state = .up) : ((s.startTraining p i).port p).quiet := by
  rw [startTraining_eq rfl, leftFrom_port (by rw [handDown_link]), handDown_link, if_pos hup]
  exact announceLeft_quiet _ p

/-- R12, R138: the axes rebuilt by the HELLO are as a departure would leave them. -/
theorem startTraining_axes (hlens : (s.port p).lens.axes = i.speeds.map freshAxis) :
    ((s.startTraining p i).port p).lens.axes = i.speeds.map freshAxis := by
  have hkeep : ((s.handDown p (.welcome (i.maxRate.min (s.port p).profile.rateLimit))).port p).lens.axes =
      i.speeds.map freshAxis := by
    obtain ⟨w, hw, -⟩ := handDown_port s p (.welcome (i.maxRate.min (s.port p).profile.rateLimit))
    rw [hw]
    exact hlens
  rw [startTraining_eq rfl, leftFrom_port (by rw [handDown_link])]
  split
  · rw [announceLeft_axes, State.updLink_port_lens, hkeep]
    simp only [PerAxis.map, linkLeft_freshAxis]
  · rw [State.updLink_port_lens, hkeep]

/-! ## HELLO taken (R6 to R8) -/

/-- R4, R124: what a well-formed HELLO records before its power class is judged. -/
def PortRec.helloRecorded (i : Identity) (r : PortRec) : PortRec :=
  { r with link := LinkRec.recordHello i r.link, lens := { r.lens with axes := i.speeds.map freshAxis } }

theorem takeHello_malformed (hwf : HelloBody.wellFormed h = false) : s.takeHello p h = s.countStray p := by
  simp [State.takeHello, hwf]

theorem takeHello_fits (hwf : HelloBody.wellFormed h = true) (hi : HelloBody.identity h = i)
    (hclass : i.powerClass ≤ (s.port p).power.allotment.getD 0) :
    s.takeHello p h = (s.updPort p (PortRec.helloRecorded i)).startTraining p i := by
  have : (s.port p).power.classOver i = false := decide_eq_false (Nat.not_lt.mpr hclass)
  simp only [State.takeHello, hwf, hi, State.rebuildAxes, State.updLink, State.updLens, updPort_updPort, State.updPort_port_self,
    this, Bool.not_true, Bool.false_eq_true, if_false]
  rfl

theorem takeHello_over (hwf : HelloBody.wellFormed h = true) (hi : HelloBody.identity h = i)
    (hclass : (s.port p).power.allotment.getD 0 < i.powerClass) :
    s.takeHello p h = ((s.updPort p (PortRec.helloRecorded i)).classDown p).switchOffBy p .classOverAllotment := by
  have : (s.port p).power.classOver i = true := decide_eq_true hclass
  simp only [State.takeHello, hwf, hi, State.rebuildAxes, State.updLink, State.updLens, updPort_updPort, State.updPort_port_self,
    this, Bool.not_true, Bool.false_eq_true, if_false, if_true]
  rfl

/-- What an accepted HELLO of rate `r` leaves, in a state `t`. -/
structure HelloAccepted (s t : State) (p : Port) (i : Identity) (r : Rate) : Prop where
  outside : SameOutside s t p
  link : (t.port p).link = if (s.port p).link.state = .up then
      (LinkRec.startTraining s.now r (LinkRec.recordHello i (s.port p).link)).noWindow
    else LinkRec.startTraining s.now r (LinkRec.recordHello i (s.port p).link)
  axes : (t.port p).lens.axes = i.speeds.map freshAxis
  power : (t.port p).power = (s.port p).power
  alone : (s.port p).link.state ≠ .up → (s.port p).waiting.length < 16 → ∃ f, t = s.updPort p f ∧
    (f (s.port p)).waiting = (s.port p).waiting ++ [.welcome r] ∧ (f (s.port p)).seq = (s.port p).seq ∧
    (f (s.port p)).intake = (s.port p).intake
  quiet : (s.port p).link.state = .up → (t.port p).quiet

theorem takeHello_accepted (hwf : HelloBody.wellFormed h = true) (hi : HelloBody.identity h = i)
    (hclass : i.powerClass ≤ (s.port p).power.allotment.getD 0) (hr : i.maxRate.min (s.port p).profile.rateLimit = r) :
    HelloAccepted s (s.takeHello p h) p i r := by
  rw [takeHello_fits hwf hi hclass]
  generalize hv : s.updPort p (PortRec.helloRecorded i) = v
  have hport : v.port p = (s.port p).helloRecorded i := by rw [← hv, State.updPort_port_self]
  have hsame : SameBut s v p := by rw [← hv]; exact updPort_sameBut s p _
  have hrv : i.maxRate.min (v.port p).profile.rateLimit = r := by rw [hport]; exact hr
  have hnow : v.now = s.now := hsame.2.1
  have hstate : (v.port p).link.state = (s.port p).link.state := by rw [hport]; rfl
  have honly := startTraining_only v p i
  refine ⟨hsame.outside.trans honly.1, ?_, startTraining_axes (by rw [hport]; rfl), ?_, fun hup hroom => ?_, fun hup => ?_⟩
  · rw [startTraining_link hrv, hstate, hnow, hport]
    rfl
  · rw [honly.2.1, hport]; rfl
  · rw [startTraining_port_of_room hrv (by rw [hstate]; exact hup) (by rw [hport]; exact hroom), ← hv, updPort_updPort]
    exact ⟨_, rfl, rfl, rfl, rfl⟩
  · exact startTraining_quiet (hstate.trans hup)

/-- The fields of a link that an accepted HELLO has set to training. -/
theorem HelloAccepted.fields (h : HelloAccepted s t p i r) :
    (t.port p).link.state = .training ∧ (t.port p).link.current = some r ∧ (t.port p).link.listen = r ∧
    (t.port p).link.attempt = some { start := s.now, deadline := s.now + 200000, cleanStart := none, heard := false } ∧
    (t.port p).link.identity = some i ∧ (t.port p).link.lastSerial = some i.serial ∧ (t.port p).link.helloDeadline = none ∧
    (t.port p).link.lastCause = (s.port p).link.lastCause ∧
    (t.port p).link.changed = (LinkRec.recordHello i (s.port p).link).changed := by
  rw [h.link]
  split <;> exact ⟨rfl, rfl, rfl, rfl, rfl, rfl, rfl, rfl, rfl⟩

theorem recordHello_changed {l : LinkRec} : (LinkRec.recordHello i l).changed = true ↔
    l.changed = true ∨ ∃ old, l.lastSerial = some old ∧ old ≠ i.serial := by
  unfold LinkRec.recordHello
  cases hl : l.lastSerial <;> simp

theorem freshAxis_eq (v : Option Nat) : freshAxis v = v.map (fun v =>
    { speed := v, position := none, target := none, motion := .idle, deadline := none }) := rfl

/-- R7, R12, R31: a HELLO whose power class is above the committed allotment of an ON port. -/
theorem takeHello_switchesOff (hwf : HelloBody.wellFormed h = true) (hi : HelloBody.identity h = i)
    (hclass : (s.port p).power.allotment.getD 0 < i.powerClass) (hon : (s.port p).power.state = .on) :
    SameTraffic s (s.takeHello p h) p ∧ ((s.takeHello p h).port p).link.state = .down ∧
    ((s.takeHello p h).port p).link.lastCause = some .classOverAllotment ∧
    ((s.takeHello p h).port p).link.identity = some i ∧ ((s.takeHello p h).port p).power.state = .off ∧
    ((s.takeHello p h).port p).power.lastOff = some .classOverAllotment ∧
    ((s.takeHello p h).port p).power.allotment = none ∧ ((s.takeHello p h).port p).power.deenergized = s.now ∧
    ((s.takeHello p h).port p).marks = (s.port p).marks := by
  rw [takeHello_over hwf hi hclass]
  generalize hv : s.updPort p (PortRec.helloRecorded i) = v
  have hport : v.port p = (s.port p).helloRecorded i := by rw [← hv, State.updPort_port_self]
  have hsame : SameBut s v p := by rw [← hv]; exact updPort_sameBut s p _
  have hdown : ((v.classDown p).port p).link =
      if (v.port p).link.state = .up then (LinkRec.enterDown .classOverAllotment (v.port p).link).noWindow
      else LinkRec.enterDown .classOverAllotment (v.port p).link := by
    unfold State.classDown
    dsimp only
    split
    · rename_i hup
      rw [leftFrom_port rfl, depart_link, if_pos hup]
    · rw [(linkEvent_same _ p _ _).1, State.updLink_port_link]
  have honly := classDown_only v p
  generalize v.classDown p = w at hdown honly
  have hwt : SameTraffic s w p :=
    (hsame.outside.traffic (by rw [hport]; rfl) (by rw [hport]; rfl) (by rw [hport]; rfl)).trans honly.traffic
  obtain ⟨-, hpower, hmarks, -⟩ := honly
  rw [hport] at hpower hmarks
  obtain ⟨hoff, -⟩ := switchOffBy_spec (s := w) (p := p) (by rw [hpower]; show (s.port p).power.state.energized = true; rw [hon]; rfl)
    .classOverAllotment
  have hstate : (w.port p).link.state = .down := by rw [hdown]; split <;> rfl
  have hlink : ((w.switchOffBy p .classOverAllotment).port p).link = { (w.port p).link with helloDeadline := none } := by
    rw [hoff.link]; unfold LinkRec.powerLeft; rw [if_pos (.inl hstate)]
  refine ⟨hwt.trans hoff.traffic, ?_, ?_, ?_, ?_, ?_, ?_, ?_, ?_⟩
  · rw [hlink]; exact hstate
  · rw [hlink, hdown]; dsimp only; split <;> rfl
  · rw [hlink, hdown, hport]; dsimp only; split <;> rfl
  · rw [hoff.power]; rfl
  · rw [hoff.power]; rfl
  · rw [hoff.power]; rfl
  · rw [hoff.power]; exact hwt.2.2.2.2.1
  · rw [hoff.marks, hmarks]; rfl

/-- R2: a HELLO that is received. -/
theorem exec_hello_received {rate : Rate} (hrec : s.receives p rate = true) :
    exec (.hello p rate h) s = .next (((s.hear p).countClean p).takeHello p h) := by
  simp [exec, execHello, hrec]

theorem identity_powerClass (h : HelloBody) : (HelloBody.identity h).powerClass = h.powerClass := rfl

/-- Settles O21. -/
theorem helloIsRecordedAndStartsTraining : Obligations.HelloIsRecordedAndStartsTraining := by
  refine ⟨fun s p h hnone hst => ?_, fun s p rate h hwf => ?_, fun s p h a i r hst ha hwf hi hclass hr => ?_⟩
  · have hconn : (s.port p).link.state.connected = true := by obtain h | h | h := hst <;> rw [h] <;> rfl
    have htrain : (s.port p).link.state.inTraining = false := by obtain h | h | h := hst <;> rw [h] <;> rfl
    have hclean : (s.hear p).countClean p = s.hear p := countClean_of_not_training (by simpa [hear_eq] using htrain)
    have hexec := exec_hello_received (h := h) (receives_listen hconn)
    rw [hclean] at hexec
    generalize hv : s.hear p = v at hexec
    have hport : v.port p = { s.port p with link := { (s.port p).link with lastPacket := some s.now } } := by
      rw [← hv, hear_eq, State.updPort_port_self, heardPacket_of_none hnone]
    have hsame : SameBut s v p := by rw [← hv]; exact updPort_sameBut s p _
    have hnow : v.now = s.now := hsame.2.1
    have hstate : (v.port p).link.state = (s.port p).link.state := by rw [hport]
    refine ⟨fun hwf => ?_, fun i r hwf hi hclass hr => ?_, fun hwf hclass hon => ?_⟩
    · refine ⟨v.countStray p, hexec.trans (by rw [takeHello_malformed hwf]), hsame.trans (updPort_sameBut v p _), ?_⟩
      rw [State.countStray, State.updCounters, State.updPort_port_self, hport]
      rfl
    · have hacc := takeHello_accepted (s := v) (p := p) (r := r) hwf hi.symm (by rw [hport]; exact hclass) (by rw [hport]; exact hr.symm)
      obtain ⟨h1, h2, h3, h4, h5, h6, h7, h8, h9⟩ := hacc.fields
      refine ⟨_, hexec, hsame.outside.trans hacc.outside, h1, h2, h3, by rw [h4, hnow], h5, h6, h7, by rw [h8, hport], ?_, ?_, ?_,
        fun hup hroom => ?_, fun hup => hacc.quiet (hstate.trans hup)⟩
      · rw [h9, recordHello_changed, hport]
      · intro x
        rw [hacc.axes, PerAxis.get_map, freshAxis_eq]
      · rw [hacc.power, hport]
      · obtain ⟨f, hf, hw, -⟩ := hacc.alone (by rw [hstate]; exact hup) (by rw [hport]; exact hroom)
        obtain ⟨-, -, -, -, -, hstore, -, -, hmasters, -⟩ := hsame
        refine ⟨?_, by rw [hf]; exact hstore, by rw [hf]; exact hmasters⟩
        rw [hf, State.updPort_port_self, hw, hport, hr]
    · obtain ⟨htr, h1, h2, h3, h4, h5, h6, h7, h8⟩ := takeHello_switchesOff (s := v) (p := p) hwf rfl
        (by rw [hport]; exact hclass) (by rw [hport]; exact hon)
      refine ⟨_, hexec, SameTraffic.trans (hsame.outside.traffic ?_ ?_ ?_) htr, h1, h2, h3, h4, h5, h6, h7.trans hnow, ?_⟩
      · rw [hport]
      · rw [hport]
      · rw [hport]
      · rw [h8, hport]
  · cases hrec : s.receives p rate with
    | true => rw [exec_hello_received hrec, exec_malformedPacket_received hrec, takeHello_malformed hwf]
    | false => simp [exec, execHello, execMalformedPacket, hrec]
  · have hexec := exec_hello_received (h := h) (receives_listen (connected_of_training hst))
    have hheard : (s.hear p).port p = { s.port p with link :=
        { (s.port p).link with lastPacket := some s.now, attempt := some { a with heard := true } } } := by
      rw [hear_eq, State.updPort_port_self, heardPacket_of_some ha]
    have htrain : ((s.hear p).port p).link.state.inTraining = true := by rw [hheard]; exact inTraining_of hst
    have hattempt : ((s.hear p).port p).link.attempt = some { a with heard := true } := by rw [hheard]
    obtain ⟨v, hv, hout, l, hport, hhello, hwithin, hdone⟩ : ∃ v, (s.hear p).countClean p = v ∧ SameOutside s v p ∧
        ∃ l, v.port p = { s.port p with link := l } ∧ l.helloDeadline = (s.port p).link.helloDeadline ∧
        ((∀ c, a.cleanStart = some c → s.now < c + 10000) → l.state ≠ .up ∧ v.store = s.store ∧ v.masters = s.masters) ∧
        (∀ c, a.cleanStart = some c → c + 10000 ≤ s.now → l.state = .up) := by
      have hsame : SameBut s (s.hear p) p := updPort_sameBut s p _
      have hnotup : (s.port p).link.state ≠ .up := by obtain h | h := hst <;> simp [h]
      refine ⟨_, rfl, hsame.outside.trans (countClean_only _ p).1, ?_⟩
      cases hc : a.cleanStart with
      | none =>
        rw [countClean_starts htrain hattempt hc, State.updLink, State.updPort_port_self, hheard]
        exact ⟨_, rfl, rfl, fun _ => ⟨hnotup, rfl, rfl⟩, nofun⟩
      | some c =>
        by_cases hle : c + 10000 ≤ s.now
        · rw [countClean_done htrain hattempt hc hle, (linkEvent_same _ p _ _).1, State.updLink, State.updPort_port_self, hheard]
          exact ⟨_, rfl, rfl, fun h => absurd (h c rfl) (Nat.not_lt.mpr hle), fun _ _ _ => rfl⟩
        · rw [countClean_within hattempt hc (Nat.lt_of_not_le hle), hheard]
          exact ⟨_, rfl, rfl, fun _ => ⟨hnotup, rfl, rfl⟩, fun c' h h' => absurd (Option.some.inj h ▸ h') hle⟩
    rw [hv] at hexec
    have hnow : v.now = s.now := hout.2.1
    have hacc := takeHello_accepted (s := v) (p := p) (r := r) hwf hi.symm (by rw [hport]; exact hclass) (by rw [hport]; exact hr.symm)
    obtain ⟨h1, h2, h3, h4, h5, h6, h7, -, -⟩ := hacc.fields
    refine ⟨_, hexec, hout.trans hacc.outside, h1, h2, h3, by rw [h4, hnow], h5, h6, h7, by rw [hacc.power, hport],
      fun hc hroom => ?_, fun c hc hle => hacc.quiet (by rw [hport]; exact hdone c hc hle)⟩
    obtain ⟨hnotup, hstore, hmasters⟩ := hwithin hc
    obtain ⟨f, hf, hw, hseq, hin⟩ := hacc.alone (by rw [hport]; exact hnotup) (by rw [hport]; exact hroom)
    rw [hf, State.updPort_port_self, hw, hseq, hin, hport]
    exact ⟨rfl, rfl, rfl, hstore, hmasters⟩

end Sys2Proof.Machine

end


section
/-! PROOFS. Current samples, trips and the start queue (R32 to R39). -/

namespace Sys2Proof.Machine

variable {s t u : State} {p q : Port} {w : PowerRec} {mA v a : Nat}

/-! ## Samples (R34, R35) -/

theorem takeSample_other (hi : (s.port p).power.state ≠ .inrush) (ho : (s.port p).power.state ≠ .on) :
    s.takeSample p mA = s.updPower p (fun w => { w with sample := some (min mA 5000) }) := by
  unfold State.takeSample sampleOf
  dsimp only
  split
  · rename_i h; exact absurd h hi
  · rename_i h; exact absurd h ho
  · rfl

/-- R34: a sample in INRUSH. -/
theorem takeSample_inrush (h : (s.port p).power.state = .inrush) (hv : min mA 5000 = v) :
    s.takeSample p mA = (s.updPower p (fun w => { w with sample := some v })).judgeInrush p v := by
  subst hv
  simp only [State.takeSample, h]
  rfl

/-- R35: a sample in ON. -/
theorem takeSample_on (h : (s.port p).power.state = .on) (hv : min mA 5000 = v) :
    s.takeSample p mA = (s.updPower p (fun w => { w with sample := some v })).judgeOn p v := by
  subst hv
  simp only [State.takeSample, h]
  rfl

theorem judgeInrush_within (ha : (s.port p).power.allotment = some a) (hhard : v ≤ 2500) (hover : v ≤ 3 * a) :
    s.judgeInrush p v = s.updPower p (fun w => { w with peak := some (max (w.peak.getD 0) v) }) := by
  have hhard' : ¬ Config.hardLimit < v := Nat.not_lt.mpr hhard
  simp [State.judgeInrush, ha, hhard', Nat.not_lt.mpr hover]

/-- R35: a sample in ON that ends neither run by a trip. -/
theorem judgeOn_within {run : Nat} (ha : (s.port p).power.allotment = some a) (hhard : v ≤ 2500)
    (hover : run = (if a * 5 / 4 < v then (s.port p).power.overloadRun + 1 else 0)) (hlt : run < 20) :
    s.judgeOn p v =
      if 500 ≤ (s.port p).power.underAfter v then
        (s.updPower p (fun w => { w with overloadRun := run, underRun := (s.port p).power.underAfter v })).undercurrentRule p
      else s.updPower p (fun w => { w with overloadRun := run, underRun := (s.port p).power.underAfter v }) := by
  have hhard' : ¬ Config.hardLimit < v := Nat.not_lt.mpr hhard
  have hover' : (if steadyLimit ((s.port p).power.allotment.getD 0) < v then (s.port p).power.overloadRun + 1 else 0) = run := by
    rw [ha, hover]; rfl
  have hlt' : ¬ Config.overloadSamples ≤ run := Nat.not_le.mpr hlt
  unfold State.judgeOn
  dsimp only
  rw [if_neg hhard', hover', if_neg hlt']
  rfl

theorem updPower_updPower (s : State) (p : Port) (f g : PowerRec → PowerRec) :
    (s.updPower p f).updPower p g = s.updPower p (fun w => g (f w)) := updPort_updPort s p _ _

@[simp] theorem updPower_power (s : State) (p : Port) (f : PowerRec → PowerRec) :
    ((s.updPower p f).port p).power = f (s.port p).power := by rw [State.updPower, State.updPort_port_self]

theorem updPower_port (s : State) (p : Port) (f : PowerRec → PowerRec) :
    (s.updPower p f).port p = { s.port p with power := f (s.port p).power } := State.updPort_port_self s p _

/-! ## The undercurrent rule (R39) and trips (R36) -/

/-- R39: without auto-sweep the port stays ON and the masters are told. -/
theorem undercurrentRule_manual (h : (s.port p).profile.autoSweep = false) : ∃ ev, s.undercurrentRule p =
    (s.updPower p (fun w => { w with openSuspect := true, underRun := 0 })).powerEvent false ev ∧ ev.port = some p ∧
    ev.cause = some .undercurrent ∧ ev.openSuspect = some true ∧ ev.committed = s.mgr.committed := by
  refine ⟨_, if_neg (by simp [h]), rfl, rfl, rfl, rfl⟩

/-- R37, R49: a port that has left the energized states, on a state that differs from `s` in its power part, and whose sweep
may be queued after the head has been tested. -/
structure Swept (s t : State) (p : Port) (w : PowerRec) (swept : Prop) : Prop where
  traffic : SameTraffic s t p
  power : (t.port p).power = w
  link : (t.port p).link = (s.port p).link.powerLeft
  quiet : (s.port p).link.state = .up → (t.port p).quiet
  lockout : (t.port p).marks.lockout = (s.port p).marks.lockout
  pending : (t.port p).marks.sweepPending = true ↔ (s.port p).marks.sweepPending = true ∨ swept

theorem PoweredOff.swept (h : PoweredOff s t p w) : Swept s t p w False :=
  ⟨h.traffic, h.power, h.link, h.quiet, by rw [h.marks], by rw [h.marks, or_false]⟩

theorem PoweredOff.sweptAppend (h : PoweredOff s t p w) (ht : (s.port p).marks.testing = false)
    (hde : s.now < w.deenergized + ms 100) (c : SweepCause) (m : Option Master) (n : Option Nat) :
    Swept s (t.sweepAppend p c m n) p w True := by
  have hport := sweepAppend_port (s := t) (p := p) (by rw [h.marks]; exact ht)
    (by rw [h.power, h.traffic.2.2.2.2.1]; exact hde) c m n
  refine ⟨h.traffic.trans (sweepAppend_traffic t p c m n), ?_, ?_, fun hup => ?_, ?_, ?_⟩ <;> rw [hport]
  · exact h.power
  · exact h.link
  · exact h.quiet hup
  · simp only [h.marks]
  · simp

theorem Swept.notified (h : Swept s t p w swept) (hsame : SameButMasters t u) : Swept s u p w swept := by
  obtain ⟨h1, h2, h3, h4, h5, h6⟩ := h
  have hport := hsame.1 p
  exact ⟨h1.trans (hsame.traffic p), hport ▸ h2, hport ▸ h3, hport ▸ h4, hport ▸ h5, hport ▸ h6⟩

theorem now_lt_deenergized (s : State) (w : PowerRec) : s.now < (PowerRec.deenergize s.now w).deenergized + ms 100 :=
  Nat.lt_add_of_pos_right (by decide)

/-- R36, R38: what a trip does. -/
theorem trip_spec (ht : (s.port p).marks.testing = false) (hq : p ∉ s.mgr.startQueue) (why : TripCause) (sample : Nat) :
    Swept s (s.trip p why sample) p
      (PowerRec.deenergize s.now { (s.port p).power with allotment := none, state := .tripped, lastTrip := some why })
      (why = .short ∧ (s.port p).profile.autoSweep = true) ∧
    (s.trip p why sample).mgr.committed = s.mgr.committed - (s.port p).power.allotment.getD 0 := by
  generalize hv : (s.releaseAllotment p).updPower p (fun w => { w with state := .tripped, lastTrip := some why }) = v
  have hport : v.port p = { s.port p with power :=
      { (s.port p).power with allotment := none, state := .tripped, lastTrip := some why } } := by
    rw [← hv, updPower_port, releaseAllotment_port_self]
  have htr : SameTraffic s v p := by
    rw [← hv]
    exact SameTraffic.trans (t := s.releaseAllotment p) (updPower_traffic _ p _) (updPower_traffic _ p _)
  have hmgr : v.mgr = { s.mgr with committed := s.mgr.committed - (s.port p).power.allotment.getD 0 } := by rw [← hv]; rfl
  have hoff := leaveEnergized_off htr hport (s.port p).power.state
  obtain ⟨kmgr, -⟩ := leaveEnergized_mgr v p (s.port p).power.state
  generalize hx : (v.leaveEnergized p (s.port p).power.state).testHead = x
  have hxoff := hoff.trans (testHead_traffic _ p) (testHead_port_of_not_mem _ (by rw [kmgr, hmgr]; exact hq))
  rw [hx] at hxoff
  have hxmgr : x.mgr.committed = s.mgr.committed - (s.port p).power.allotment.getD 0 := by
    rw [← hx, testHead_mgr, kmgr, hmgr]
  have he : ∃ ev, s.trip p why sample =
      (if (decide (why = .short) && (s.port p).profile.autoSweep) = true then x.sweepAppend p .shortTrip none none
        else x).powerEvent true ev := by
    rw [← hx, ← hv]
    exact ⟨_, rfl⟩
  obtain ⟨ev, he⟩ := he
  rw [he]
  by_cases hs : why = .short ∧ (s.port p).profile.autoSweep = true
  · have hs' : (decide (why = .short) && (s.port p).profile.autoSweep) = true := by simpa using hs
    rw [if_pos hs']
    have hsw := (hxoff.sweptAppend ht (now_lt_deenergized s _) .shortTrip none none).notified (powerEvent_same _ true ev)
    refine ⟨⟨hsw.traffic, hsw.power, hsw.link, hsw.quiet, hsw.lockout, ?_⟩, ?_⟩
    · rw [hsw.pending]; simp [hs]
    · rw [(powerEvent_same _ true ev).2.2.2.1, sweepAppend_mgr, hxmgr]
  · have hs' : ¬ (decide (why = .short) && (s.port p).profile.autoSweep) = true := by simpa using hs
    rw [if_neg hs']
    have hsw := hxoff.swept.notified (powerEvent_same x true ev)
    refine ⟨⟨hsw.traffic, hsw.power, hsw.link, hsw.quiet, hsw.lockout, ?_⟩, ?_⟩
    · rw [hsw.pending]; simp [hs]
    · rw [(powerEvent_same _ true ev).2.2.2.1, hxmgr]

/-- R37, R39, R49: with auto-sweep the port is switched off and its sweep is queued. -/
theorem undercurrentRule_swept (h : (s.port p).profile.autoSweep = true) (ht : (s.port p).marks.testing = false) :
    Swept s (s.undercurrentRule p) p (PowerRec.deenergize s.now { (s.port p).power with
      openSuspect := true, underRun := 0, allotment := none, state := .off, lastOff := some .undercurrent }) True ∧
    (s.undercurrentRule p).mgr.committed = s.mgr.committed - (s.port p).power.allotment.getD 0 := by
  generalize hv : (s.updPower p (fun w => { w with openSuspect := true, underRun := 0 })).enterOff p .undercurrent = v
  have hport : v.port p = { s.port p with power := { (s.port p).power with
      openSuspect := true, underRun := 0, allotment := none, state := .off, lastOff := some .undercurrent } } := by
    rw [← hv, enterOff_port_self, updPower_port]
  have htr : SameTraffic s v p := by rw [← hv]; exact (updPower_traffic s p _).trans (enterOff_traffic _ p _)
  have hmgr : v.mgr = { s.mgr with
      committed := s.mgr.committed - (s.port p).power.allotment.getD 0
      startQueue := s.mgr.startQueue.filter (fun q => !(q == p)) } := by rw [← hv, enterOff_mgr, updPower_power]; rfl
  have hoff := leaveEnergized_off htr hport .on
  obtain ⟨kmgr, -⟩ := leaveEnergized_mgr v p .on
  have he : ∃ ev, s.undercurrentRule p =
      (((v.leaveEnergized p .on).testHead).sweepAppend p .undercurrent none none).powerEvent false ev := by
    rw [← hv]
    exact ⟨_, if_pos h⟩
  obtain ⟨ev, he⟩ := he
  have hxoff := hoff.trans (testHead_traffic _ p) (testHead_port_of_not_mem _ (by rw [kmgr, hmgr]; simp))
  rw [he]
  refine ⟨(hxoff.sweptAppend ht (now_lt_deenergized s _) .undercurrent none none).notified (powerEvent_same _ false ev), ?_⟩
  rw [(powerEvent_same _ false ev).2.2.2.1, sweepAppend_mgr, testHead_mgr, kmgr, hmgr]

/-! ## The obligations about samples -/

theorem exec_currentSample (p : Port) (mA : Nat) (s : State) : exec (.currentSample p mA) s = .next (s.takeSample p mA) := rfl

theorem exec_overload (h : (s.port p).power.completesOverload (min mA 5000) = true) :
    exec (.overload p mA) s = .next (s.takeSample p mA) := congrArg Host.Outcome.next (if_pos h)

theorem exec_undercurrent (h : (s.port p).power.completesUnder (min mA 5000) = true) :
    exec (.undercurrent p mA) s = .next (s.takeSample p mA) := congrArg Host.Outcome.next (if_pos h)

/-- Settles O25. -/
theorem currentSamplesAreJudged : Obligations.CurrentSamplesAreJudged := by
  refine ⟨fun s p mA v hv => ⟨fun hi ho => ?_, fun a hst ha hhard hover => ?_, fun a ov under hst ha hhard hov hlt hunder hlt' => ?_⟩,
    fun s p mA a c hc hmA hon ha h12 hopen hrun => ?_⟩
  · refine next_updPort (f := fun r => { r with power := { r.power with sample := some v } }) ?_ rfl
    rw [exec_currentSample, takeSample_other hi ho, hv]
    rfl
  · refine next_updPort (f := fun r => { r with power := { r.power with
      sample := some v, peak := some (max (r.power.peak.getD 0) v) } }) ?_ rfl
    rw [exec_currentSample, takeSample_inrush hst hv.symm, judgeInrush_within (a := a) (by simpa using ha) hhard hover,
      updPower_updPower]
    rfl
  · have hafter : ((s.updPower p (fun w => { w with sample := some v })).port p).power.underAfter v = under := by
      rw [updPower_power, hunder]; rfl
    refine next_updPort (f := fun r => { r with power := { r.power with
      sample := some v, overloadRun := ov, underRun := under } }) ?_ rfl
    rw [exec_currentSample, takeSample_on hst hv.symm,
      judgeOn_within (a := a) (run := ov) (by simpa using ha) hhard (by simpa using hov) hlt, hafter,
      if_neg (Nat.not_le.mpr hlt'), updPower_updPower]
    rfl
  · have hv : min mA 5000 = mA := by omega
    generalize hu : (s.updPower p (fun w => { w with sample := some mA })).updPower p (fun w => { w with
      overloadRun := 0, underRun := (s.port p).power.underRun + 1 }) = u
    have hexec : exec c s = .next (u.undercurrentRule p) := by
      have hafter : ((s.updPower p (fun w => { w with sample := some mA })).port p).power.underAfter mA =
          (s.port p).power.underRun + 1 := by
        rw [updPower_power]
        have : mA < Config.underLevel := hmA
        simp [PowerRec.underAfter, hopen, this]
      have htake : s.takeSample p mA = u.undercurrentRule p := by
        rw [takeSample_on hon hv, judgeOn_within (a := a) (run := 0) (by simpa using ha) (by omega)
          (by rw [if_neg (by omega)]) (by omega), hafter, if_pos (by omega), hu]
      rw [← htake]
      obtain rfl | rfl := hc
      · rfl
      · refine exec_undercurrent ?_
        have h1 : mA < Config.underLevel := hmA
        have h2 : Config.underSamples ≤ (s.port p).power.underRun + 1 := Nat.succ_le_succ hrun
        simp [PowerRec.completesUnder, hv, hon, hopen, h1, h2]
    have hport : u.port p = { s.port p with power := { (s.port p).power with
        sample := some mA, overloadRun := 0, underRun := (s.port p).power.underRun + 1 } } := by
      rw [← hu, updPower_updPower, updPower_port]
    have hsame : SameBut s u p := by rw [← hu, updPower_updPower]; exact updPort_sameBut s p _
    obtain ⟨-, hnow, -, hmgr, -⟩ := id hsame
    refine ⟨fun hsweep => ?_, fun hsweep htest hmark => ?_⟩
    · obtain ⟨ev, he, h1, h2, h3, h4⟩ := undercurrentRule_manual (s := u) (p := p) (by rw [hport]; exact hsweep)
      refine ⟨_, ev, hsame.trans (updPort_sameBut u p _), ?_, by rw [hexec, he]; rfl, h1, h2, h3, by rw [h4, hmgr]⟩
      rw [State.updPort_port_self, hport]
    · obtain ⟨hsw, hsum⟩ := undercurrentRule_swept (s := u) (p := p) (by rw [hport]; exact hsweep) (by rw [hport]; exact hmark)
      have htr : SameTraffic s u p := hsame.outside.traffic (by rw [hport]) (by rw [hport]) (by rw [hport])
      have hlink : ((u.undercurrentRule p).port p).link = (s.port p).link.powerLeft := by rw [hsw.link, hport]
      refine ⟨_, hexec, htr.trans hsw.traffic, ?_, ?_, ?_, ?_, ?_, ?_, ?_, ?_, fun hd => ?_, ?_, ?_⟩
      · rw [hsw.power]; rfl
      · rw [hsw.power]; rfl
      · rw [hsw.power]; rfl
      · rw [hsw.power]; exact hnow
      · rw [hsw.power]; rfl
      · rw [hsum, hmgr, hport]; dsimp only; rw [ha]; rfl
      · rw [hlink]; exact powerLeft_state htest
      · rw [hlink]; exact powerLeft_helloDeadline _
      · rw [hlink]; exact powerLeft_lastCause hd htest
      · rw [hsw.pending]; exact .inr trivial
      · rw [hsw.lockout, hport]

/-- R34 to R36: the sample that trips a port is taken into its power part before it trips. -/
theorem trip_of_limits {c : Instr} {why : TripCause} (hv : v = min mA 5000) (ha : (s.port p).power.allotment = some a)
    (hc : (c = .currentSample p mA ∧ why = .short ∧
        ((s.port p).power.state = .inrush ∨ (s.port p).power.state = .on) ∧ 2500 < v) ∨
      (c = .currentSample p mA ∧ why = .inrushOver ∧ (s.port p).power.state = .inrush ∧ v ≤ 2500 ∧ 3 * a < v) ∨
      ((c = .currentSample p mA ∨ c = .overload p mA) ∧ why = .overload ∧ (s.port p).power.state = .on ∧ v ≤ 2500 ∧
        a * 5 / 4 < v ∧ 19 ≤ (s.port p).power.overloadRun)) :
    ∃ k : PowerRec → Option Nat, exec c s = .next ((s.updPower p (fun w => { w with sample := some v, peak := k w })).trip p why v) := by
  have hinrush : (s.port p).power.state = .inrush → s.takeSample p mA = _ := fun h => takeSample_inrush h hv.symm
  have hon : (s.port p).power.state = .on → s.takeSample p mA = _ := fun h => takeSample_on h hv.symm
  obtain ⟨rfl, rfl, hst | hst, hhard⟩ | ⟨rfl, rfl, hst, hhard, hover⟩ | ⟨hc, rfl, hst, hhard, hover, hrun⟩ := hc
  · refine ⟨fun w => some (max (w.peak.getD 0) v), ?_⟩
    have hhard' : Config.hardLimit < v := hhard
    rw [exec_currentSample, hinrush hst]
    simp only [State.judgeInrush, hhard', if_true, updPower_updPower]
  · refine ⟨fun w => w.peak, ?_⟩
    have hhard' : Config.hardLimit < v := hhard
    rw [exec_currentSample, hon hst]
    simp only [State.judgeOn, hhard', if_true]
  · refine ⟨fun w => some (max (w.peak.getD 0) v), ?_⟩
    have hhard' : ¬ Config.hardLimit < v := Nat.not_lt.mpr hhard
    rw [exec_currentSample, hinrush hst]
    simp only [State.judgeInrush, hhard', if_false, updPower_updPower, updPower_power, ha, Option.getD_some, hover, if_true]
  · refine ⟨fun w => w.peak, ?_⟩
    have hhard' : ¬ Config.hardLimit < v := Nat.not_lt.mpr hhard
    have hover' : steadyLimit a < v := hover
    have hrun' : Config.overloadSamples ≤ (s.port p).power.overloadRun + 1 := Nat.succ_le_succ hrun
    have htake : exec c s = .next (s.takeSample p mA) := by
      obtain rfl | rfl := hc
      · rfl
      · refine exec_overload ?_
        simp [PowerRec.completesOverload, ← hv, hst, Nat.not_lt.mp hhard', ha, hover', hrun']
    rw [htake, hon hst]
    simp only [State.judgeOn, hhard', if_false, updPower_power, ha, Option.getD_some, hover', if_true, hrun']

/-- Settles O26. -/
theorem portsTripOnTheirLimits : Obligations.PortsTripOnTheirLimits := by
  intro s p mA v a c why hv ha htest hmark hq hc
  obtain ⟨k, hexec⟩ := trip_of_limits hv ha hc
  generalize hu : s.updPower p (fun w => { w with sample := some v, peak := k w }) = u at hexec
  have hport : u.port p = { s.port p with power := { (s.port p).power with
      sample := some v, peak := k (s.port p).power } } := by rw [← hu, updPower_port]
  have htr : SameTraffic s u p := by rw [← hu]; exact updPower_traffic s p _
  have hmgr : u.mgr = s.mgr := by rw [← hu]; rfl
  have hnow : u.now = s.now := htr.2.2.2.2.1
  obtain ⟨hsw, hsum⟩ := trip_spec (s := u) (p := p) (by rw [hport]; exact hmark) (by rw [hmgr]; exact hq) why v
  have hpower := hsw.power
  rw [hport] at hpower
  have hlink : ((u.trip p why v).port p).link = (s.port p).link.powerLeft := by rw [hsw.link, hport]
  refine ⟨_, hexec, htr.trans hsw.traffic, ?_, ?_, ?_, ?_, ?_, ?_, ?_, ?_, ?_, ?_, ?_, ?_, ?_, fun hd => ?_, fun hup => ?_, ?_, ?_⟩
  · rw [hpower]; rfl
  · rw [hpower]; rfl
  · rw [hpower]; rfl
  · rw [hpower]; rfl
  · rw [hpower]; rfl
  · rw [hpower]; exact hnow
  · rw [hpower]; rfl
  · rw [hpower]; rfl
  · rw [hpower]; rfl
  · rw [hpower]; rfl
  · rw [hsum, hmgr, hport]; dsimp only; rw [ha]; rfl
  · rw [hlink]; exact powerLeft_state htest
  · rw [hlink]; exact powerLeft_helloDeadline _
  · rw [hlink]; exact powerLeft_lastCause hd htest
  · exact hsw.quiet (by rw [hport]; exact hup)
  · rw [hsw.lockout, hport]
  · rw [hsw.pending, hport]

/-! ## The start queue (R32 to R34) -/

theorem noInrush_iff (s : State) : s.noInrush = true ↔ ∀ q : Port, (s.port q).power.state ≠ .inrush := by
  simp only [State.noInrush, List.all_eq_true, decide_eq_true_eq]
  exact ⟨fun h q => h q (mem_allPorts q), fun h q _ => h q⟩

theorem gapPassed_iff (s : State) :
    s.gapPassed = true ↔ ∀ d, s.mgr.lastInrushEnd = some d → d + s.mgr.stagger * 1000 ≤ s.now := by
  unfold State.gapPassed
  cases s.mgr.lastInrushEnd with
  | none => simp
  | some d => simp only [Option.some.injEq, forall_eq']; exact decide_eq_true_iff

theorem testHead_starts {rest : List Port} (hq : s.mgr.startQueue = p :: rest)
    (hi : ∀ q : Port, (s.port q).power.state ≠ .inrush)
    (hg : ∀ d, s.mgr.lastInrushEnd = some d → d + s.mgr.stagger * 1000 ≤ s.now) : s.testHead = s.startPort p := by
  simp [State.testHead, hq, (noInrush_iff s).2 hi, (gapPassed_iff s).2 hg]

theorem testHead_waits (h : s.mgr.startQueue = [] ∨ (∃ q : Port, (s.port q).power.state = .inrush) ∨
    ∃ d, s.mgr.lastInrushEnd = some d ∧ s.now < d + s.mgr.stagger * 1000) : s.testHead = s := by
  obtain k | ⟨p, rest, hq, hi, hg, -⟩ := testHead_cases s
  · exact k
  · obtain h | ⟨q, h⟩ | ⟨d, hd, h⟩ := h
    · rw [h] at hq; cases hq
    · exact absurd h ((noInrush_iff s).1 hi q)
    · exact absurd h (Nat.not_lt.mpr ((gapPassed_iff s).1 hg d hd))

theorem testHead_store_engine (s : State) : s.testHead.store = s.store ∧ s.testHead.engine = s.engine := by
  obtain k | ⟨p, rest, -, -, -, k⟩ := testHead_cases s <;> rw [k] <;> exact ⟨rfl, rfl⟩

/-- Settles O27. -/
theorem startQueueStartsPortByPort : Obligations.StartQueueStartsPortByPort := by
  refine ⟨fun s p b d hst hin hq => ?_, fun s c => ⟨fun p rest hq hi hc => ?_, fun hc h => ?_⟩⟩
  · have hexec : exec (.inrushEnd p) s = .next (if d ≤ s.now then s.finishInrush p else s) := by
      simp [exec, execInrushEnd, hst, hin, passed]
    refine ⟨fun hnow => by rw [hexec, if_neg (Nat.not_le.mpr hnow)], fun hnow => ?_⟩
    rw [if_pos hnow] at hexec
    generalize hv : ((s.updPower p PowerRec.enterOn).updMgr (fun g => { g with lastInrushEnd := some s.now })).updLink p
      LinkRec.enterAwait = v
    obtain ⟨ev, hf⟩ : ∃ ev, s.finishInrush p = (v.powerEvent false ev).testHead := by rw [← hv]; exact ⟨_, rfl⟩
    have hport : v.port p = { s.port p with
        power := { (s.port p).power with state := .on, overloadRun := 0, underRun := 0, inrush := none }
        link := { (s.port p).link with state := .awaitHello, listen := .r1250, lastPacket := none } } := by
      rw [← hv, State.updLink, State.updPort_port_self, State.updMgr_port, updPower_port]
      rfl
    have hother : ∀ q : Port, q ≠ p → v.port q = s.port q := fun q hqp => by rw [← hv]; simp [Ne.symm hqp]
    have hmgr : v.mgr = { s.mgr with lastInrushEnd := some s.now } := by rw [← hv]; rfl
    have htr : SameTraffic s v p := by
      refine ⟨fun q hqp => by rw [hother q hqp]; exact sameTraffic_refl _, by rw [hport], by rw [hport], by rw [hport], ?_, ?_,
        ?_, ?_, ?_⟩ <;> rw [← hv] <;> rfl
    have hse : v.store = s.store ∧ v.engine = s.engine ∧ v.now = s.now := by rw [← hv]; exact ⟨rfl, rfl, rfl⟩
    have hsame := powerEvent_same v false ev
    generalize hx : v.powerEvent false ev = x at hf hsame
    have hxtr : SameTraffic v x p := hsame.traffic p
    obtain ⟨xport, xnow, -, xmgr, xengine, xstore, -⟩ := hsame
    rw [hmgr] at xmgr
    obtain ⟨hstore, hengine, hnow'⟩ := hse
    have hxq : p ∉ x.mgr.startQueue := by rw [xmgr]; exact hq
    refine ⟨x.testHead, by rw [hexec, hf], (htr.trans hxtr).trans (testHead_traffic x p), ?_, ?_, ?_, ?_, ?_, fun hstag => ?_,
      fun h rest hstag hqueue hi => ?_⟩
    · rw [testHead_port_of_not_mem x hxq, xport, hport]
    · rw [testHead_mgr, xmgr]
    · rw [testHead_mgr, xmgr]
    · rw [(testHead_store_engine x).1, xstore, hstore]
    · rw [(testHead_store_engine x).2, xengine, hengine]
    · have hwait : x.testHead = x := by
        refine testHead_waits (.inr (.inr ⟨s.now, by rw [xmgr], ?_⟩))
        rw [xnow, hnow', xmgr]
        exact Nat.lt_add_of_pos_right (Nat.mul_pos (Nat.pos_of_ne_zero hstag) (by decide))
      rw [hwait, xmgr]
      exact ⟨rfl, fun q hqp => by rw [xport, hother q hqp]⟩
    · have hstart : x.testHead = x.startPort h := by
        refine testHead_starts (rest := rest) (by rw [xmgr]; exact hqueue) (fun q => ?_) fun d hd => ?_
        · by_cases hqp : q = p
          · rw [hqp, xport, hport]; simp
          · rw [xport, hother q hqp]; exact hi q hqp
        · rw [xmgr] at hd ⊢
          cases hd
          rw [xnow, hnow']
          simp only [hstag, Nat.zero_mul, Nat.add_zero]
          exact Nat.le_refl _
      rw [hstart, startPort_port_self]
      rfl
  · have hexec : exec c s = .next (s.startPort p) := by
      obtain ⟨rfl, hg⟩ | ⟨rfl, d, hd, hle⟩ := hc
      · exact congrArg Host.Outcome.next (testHead_starts hq hi hg)
      · have hg : ∀ d, s.mgr.lastInrushEnd = some d → d + s.mgr.stagger * 1000 ≤ s.now := by
          rw [hd]
          rintro _ ⟨⟩
          exact hle
        simp [exec, execStaggerGapEnd, hd, (gapPassed_iff s).2 hg, testHead_starts hq hi hg]
    refine ⟨_, hexec, ⟨fun q hqp => startPort_port_of_ne s hqp, rfl, rfl, rfl, rfl, rfl, rfl, rfl, rfl, rfl⟩, ?_, ?_⟩
    · show { s.mgr with startQueue := s.mgr.startQueue.filter (fun q => !(q == p)) } = _
      rw [hq]
      simp
    · rw [startPort_port_self]
      rfl
  · have hwait := testHead_waits h
    obtain rfl | rfl := hc
    · exact congrArg Host.Outcome.next hwait
    · refine congrArg Host.Outcome.next ?_
      split
      · exact hwait
      · rfl

end Sys2Proof.Machine

end


section
/-! PROOFS. Admissions and the two supply states, PORT_POWER and CLEAR_PORT_FAULT (R26 to R30, R40 to R44). -/

namespace Sys2Proof.Machine

variable {s t u : State} {p q : Port} {l : List Port}

/-! ## Admissions one after another (R26 to R29) -/

/-- R26: a port's record once it is QUEUED with its live allotment. -/
def PortRec.queued (r : PortRec) : PortRec :=
  { r with power := { r.power with state := .queued, allotment := some r.profile.allotment } }

/-- The ports of `l`, all OFF in `s`, have been admitted in this order, and nothing else has changed. -/
structure Admitted (s u : State) (l : List Port) : Prop where
  nodup : l.Nodup
  off : ∀ q ∈ l, (s.port q).power.state = .off
  ports : ∀ q, u.port q = if q ∈ l then (s.port q).queued else s.port q
  mgr : u.mgr = { s.mgr with
    committed := s.mgr.committed + (l.map (fun q => (s.port q).profile.allotment)).sum, startQueue := s.mgr.startQueue ++ l }
  same : u = { s with ports := u.ports, mgr := u.mgr }

theorem Admitted.nil (s : State) : Admitted s s [] := ⟨.nil, nofun, fun _ => rfl, by simp, rfl⟩

/-- Whether an admission of a port fails for nothing but the budget. -/
def PortRec.admissible (r : PortRec) : Prop := r.marks.lockout = false ∧ r.held = false ∧ r.power.state = .off

theorem Admitted.budget (h : Admitted s u l) : u.effectiveBudget = s.effectiveBudget :=
  effectiveBudget_congr (by rw [h.same]) (by rw [h.mgr])

theorem Admitted.port_of_mem (h : Admitted s u l) (hq : q ∈ l) : u.port q = (s.port q).queued := by rw [h.ports, if_pos hq]

theorem Admitted.port_of_not_mem (h : Admitted s u l) (hq : q ∉ l) : u.port q = s.port q := by rw [h.ports, if_neg hq]

/-- R27: the outcome of an admission that only the budget can refuse. -/
theorem admissionOutcome_admissible (h : (s.port p).admissible) (hsup : s.mgr.supply = .normal) :
    s.admissionOutcome p =
      if s.effectiveBudget < s.mgr.committed + (s.port p).profile.allotment then .overBudget else .done := by
  obtain ⟨hlock, hheld, hoff⟩ := h
  have hheld' : ((s.port p).marks.sweepPending || (s.port p).marks.testing) = false := hheld
  simp [State.admissionOutcome, hlock, hheld', hoff, hsup, PowerState.committed]

/-- R26: another port admitted. -/
theorem Admitted.join (h : Admitted s u l) (hadm : (s.port q).admissible) (hsup : s.mgr.supply = .normal) (hq : q ∉ l)
    (hb : s.mgr.committed + (l.map (fun q => (s.port q).profile.allotment)).sum + (s.port q).profile.allotment ≤
      s.effectiveBudget) : u.admissionOutcome q = .done ∧ Admitted s (u.admitPort q) (l ++ [q]) := by
  have hport := h.port_of_not_mem hq
  have hdone : u.admissionOutcome q = .done := by
    rw [admissionOutcome_admissible (hport ▸ hadm) (by rw [h.mgr]; exact hsup), h.budget, hport, h.mgr, if_neg]
    exact Nat.not_lt.mpr hb
  have hcommit : u.admitPort q = u.commitPort q := if_pos ⟨hdone, by rw [hport]; exact hadm.2.2⟩
  rw [hcommit]
  refine ⟨hdone, ?_, fun x hx => ?_, fun x => ?_, ?_, ?_⟩
  · exact List.nodup_append.2 ⟨h.nodup, List.pairwise_singleton _ q, by rintro a ha b hb rfl; rw [List.mem_singleton] at hb; exact hq (hb ▸ ha)⟩
  · obtain hx | hx := List.mem_append.1 hx
    · exact h.off x hx
    · rw [List.mem_singleton] at hx; rw [hx]; exact hadm.2.2
  · by_cases hxq : x = q
    · subst hxq
      rw [commitPort_port_self, hport, if_pos (by simp)]
      rfl
    · rw [commitPort_port_of_ne u hxq, h.ports]
      simp [hxq]
  · rw [commitPort_mgr, hport, h.mgr]
    simp [Nat.add_assoc]
  · show State.commitPort u q = _
    conv => lhs; rw [h.same]
    rfl

/-- R27: a port admitted already is DONE and joins no second time. -/
theorem Admitted.again (h : Admitted s u l) (hadm : (s.port q).admissible) (hsup : s.mgr.supply = .normal) (hq : q ∈ l) :
    u.admissionOutcome q = .done ∧ u.admitPort q = u := by
  have hport := h.port_of_mem hq
  obtain ⟨hlock, hheld, -⟩ := hadm
  have hheld' : ((u.port q).marks.sweepPending || (u.port q).marks.testing) = false := by rw [hport]; exact hheld
  have hlock' : (u.port q).marks.lockout = false := by rw [hport]; exact hlock
  have hst : (u.port q).power.state = .queued := by rw [hport]; rfl
  have hsup' : u.mgr.supply = .normal := by rw [h.mgr]; exact hsup
  constructor
  · simp [State.admissionOutcome, hlock', hheld', hst, hsup', PowerState.committed]
  · simp [State.admitPort, hst]

/-- R27: a port that the budget refuses. -/
theorem Admitted.refused (h : Admitted s u l) (hadm : (s.port q).admissible) (hsup : s.mgr.supply = .normal) (hq : q ∉ l)
    (hb : s.effectiveBudget <
      s.mgr.committed + (l.map (fun q => (s.port q).profile.allotment)).sum + (s.port q).profile.allotment) :
    u.admissionOutcome q = .overBudget ∧ u.admitPort q = u := by
  have hport := h.port_of_not_mem hq
  have hover : u.admissionOutcome q = .overBudget := by
    rw [admissionOutcome_admissible (hport ▸ hadm) (by rw [h.mgr]; exact hsup), h.budget, hport, h.mgr, if_pos hb]
  exact ⟨hover, if_neg fun hc => by rw [hover] at hc; exact absurd hc.1 (by decide)⟩

/-- R32: no port is in INRUSH where none was. -/
theorem Admitted.noInrush (h : Admitted s u l) (hi : ∀ q : Port, (s.port q).power.state ≠ .inrush) (q : Port) :
    (u.port q).power.state ≠ .inrush := by
  rw [h.ports]
  split
  · simp [PortRec.queued]
  · exact hi q

/-- R32: where the head may not start, nothing starts. -/
theorem Admitted.waits (h : Admitted s u l) (hw : s.mgr.startQueue ≠ [] ∨ (∃ q : Port, (s.port q).power.state = .inrush) ∨
    ∃ d, s.mgr.lastInrushEnd = some d ∧ s.now < d + s.mgr.stagger * 1000) : u.testJoined s.mgr.startQueue = u := by
  unfold State.testJoined
  split
  · rename_i hempty
    refine testHead_waits (.inr ?_)
    obtain hw | ⟨q, hq⟩ | ⟨d, hd, hlt⟩ := hw
    · exact absurd (List.isEmpty_iff.1 hempty) hw
    · refine .inl ⟨q, ?_⟩
      rw [h.port_of_not_mem fun hm => by rw [h.off q hm] at hq; cases hq]
      exact hq
    · refine .inr ⟨d, by rw [h.mgr]; exact hd, ?_⟩
      rw [h.mgr, h.same]
      exact hlt
  · rfl

/-- R32: where the queue was empty and the head may start, it does. -/
theorem Admitted.starts {rest : List Port} (h : Admitted s u (p :: rest)) (hq : s.mgr.startQueue = [])
    (hi : ∀ q : Port, (s.port q).power.state ≠ .inrush)
    (hg : ∀ d, s.mgr.lastInrushEnd = some d → d + s.mgr.stagger * 1000 ≤ s.now) :
    u.testJoined s.mgr.startQueue = u.startPort p := by
  unfold State.testJoined
  rw [hq]
  refine testHead_starts (rest := rest) (by rw [h.mgr, hq]; rfl) (h.noInrush hi) fun d hd => ?_
  rw [h.mgr] at hd ⊢
  rw [h.same]
  exact hg d hd

/-- R26: admitting one port changes its record and the manager alone. -/
theorem Admitted.sameBut (h : Admitted s u [p]) : SameBut { s with mgr := u.mgr } u p := by
  refine ⟨fun q hq => h.port_of_not_mem (by simpa using hq), ?_, ?_, rfl, ?_, ?_, ?_, ?_, ?_, ?_⟩ <;> rw [h.same]

/-- R26, R32, R33: the head of the admitted ports started. -/
theorem Admitted.started_sameBut (h : Admitted s u [p]) :
    SameBut { s with mgr := (u.startPort p).mgr } (u.startPort p) p := by
  refine ⟨fun q hq => (startPort_port_of_ne u hq).trans (h.port_of_not_mem (by simpa using hq)), ?_, ?_, rfl, ?_, ?_, ?_, ?_, ?_, ?_⟩
  all_goals
    rw [h.same]
    rfl

theorem Admitted.started_mgr {rest : List Port} (h : Admitted s u (p :: rest)) (hq : s.mgr.startQueue = []) :
    (u.startPort p).mgr = { s.mgr with
      committed := s.mgr.committed + ((p :: rest).map (fun q => (s.port q).profile.allotment)).sum, startQueue := rest } := by
  show { u.mgr with startQueue := u.mgr.startQueue.filter (fun q => !(q == p)) } = _
  have hp : p ∉ rest := (List.nodup_cons.1 h.nodup).1
  have hrest : rest.filter (fun q => !(q == p)) = rest :=
    List.filter_eq_self.2 fun q hqr => by simpa using fun e : q = p => hp (e ▸ hqr)
  rw [h.mgr, hq]
  simp [hrest]

theorem Admitted.started_port (h : Admitted s u l) (hp : p ∈ l) : (u.startPort p).port p = { s.port p with
    power := { (s.port p).power with
      state := .inrush, allotment := some (s.port p).profile.allotment
      inrush := some (s.now, s.now + (s.port p).profile.inrushWindow * 1000), peak := some 0, overloadRun := 0, underRun := 0 }
    link := { (s.port p).link with helloDeadline := some (s.now + (s.port p).profile.helloTimeout * 1000) } } := by
  have hnow : u.now = s.now := by rw [h.same]
  rw [startPort_port_self, h.port_of_mem hp, hnow]
  rfl

/-! ## PORT_POWER (R27, R28) -/

section
variable {m : Master} {e : RequestEntry} {n k : Nat} {ports : List Nat}

theorem portOf_eq_none (h : 7 < n) : portOf n = none := dif_neg (Nat.not_lt.mpr h)

theorem portList_eq_none : ∀ {ports : List Nat}, (∃ n ∈ ports, 7 < n) → portList ports = none
  | [], h => by obtain ⟨n, hn, -⟩ := h; cases hn
  | k :: ports, ⟨n, hn, hgt⟩ => by
    unfold portList
    obtain rfl | hn := List.mem_cons.1 hn
    · rw [portOf_eq_none hgt]
    · rw [portList_eq_none ⟨n, hn, hgt⟩]
      cases portOf k <;> rfl

theorem portList_singleton (hp : portOf n = some p) : portList [n] = some [p] := by simp [portList, hp]

theorem portList_pair (hp : portOf n = some p) (hq : portOf k = some q) : portList [n, k] = some [p, q] := by
  simp [portList, hp, hq]

theorem portListFits_of (h1 : 1 ≤ ports.length) (h8 : ports.length ≤ 8) : portListFits ports = true := by
  simp [portListFits, within, h1, h8]

theorem exec_portPowerOn (h : Reaches s m .portPower e) (hf : portListFits ports = true) (hl : portList ports = some l) :
    exec (.portPowerOn m ports) s =
      .next ((((s.taken m).admitList l).2.testJoined (s.taken m).mgr.startQueue).reply m e
        { result := .done, body := .entryResults ((s.taken m).admitList l).1 }) := by
  refine congrArg Host.Outcome.next ((takeRequest_of_reaches_fits h hf).trans ?_)
  rw [hl]

theorem exec_portPowerOff (h : Reaches s m .portPower e) (hf : portListFits ports = true) (hl : portList ports = some l) :
    exec (.portPowerOff m ports) s =
      .next ((if l.any (fun p => (s.port p).power.state.energized) then (l.foldl State.offEntry (s.taken m)).testHead
        else l.foldl State.offEntry (s.taken m)).reply m e
        { result := .done, body := .entryResults (l.map (fun _ => Result.done)) }) := by
  refine congrArg Host.Outcome.next ((takeRequest_of_reaches_fits h hf).trans ?_)
  rw [hl]
  rfl

theorem exec_portPower_badRange (h : Reaches s m .portPower e) (hf : portListFits ports = true) (hl : portList ports = none) :
    exec (.portPowerOn m ports) s = .next (s.answered m e { result := .badRange }) ∧
    exec (.portPowerOff m ports) s = .next (s.answered m e { result := .badRange }) := by
  constructor
  all_goals
    refine congrArg Host.Outcome.next ((takeRequest_of_reaches_fits h hf).trans ?_)
    rw [hl]
    rfl

theorem admitList_singleton (s : State) (p : Port) : s.admitList [p] = ([s.admissionOutcome p], s.admitPort p) := rfl

theorem admitList_pair (s : State) (p q : Port) : s.admitList [p, q] =
    ([s.admissionOutcome p, (s.admitPort p).admissionOutcome q], (s.admitPort p).admitPort q) := rfl

/-- R27: the rows of the admission table, but for an admission that is made. -/
theorem admission_refused {r : Result}
    (h : ((s.port p).marks.lockout = true ∧ r = .portLockedOut) ∨
      ((s.port p).marks.lockout = false ∧ (s.port p).held = true ∧ r = .portTesting) ∨
      ((s.port p).marks.lockout = false ∧ (s.port p).held = false ∧ (s.port p).power.state = .tripped ∧ r = .portTripped) ∨
      ((s.port p).marks.lockout = false ∧ (s.port p).held = false ∧ (s.port p).power.state ≠ .tripped ∧
        s.mgr.supply = .low ∧ r = .supplyLow) ∨
      ((s.port p).marks.lockout = false ∧ (s.port p).held = false ∧ s.mgr.supply = .normal ∧
        (s.port p).power.state.committed = true ∧ r = .done) ∨
      ((s.port p).marks.lockout = false ∧ (s.port p).held = false ∧ s.mgr.supply = .normal ∧
        (s.port p).power.state = .off ∧ s.effectiveBudget < s.mgr.committed + (s.port p).profile.allotment ∧
        r = .overBudget)) : s.admissionOutcome p = r ∧ s.admitPort p = s := by
  have hother : r ≠ .done → s.admissionOutcome p = r → s.admissionOutcome p = r ∧ s.admitPort p = s := fun hne ho =>
    ⟨ho, if_neg fun hc => hne (ho ▸ hc.1)⟩
  have hmarks : ((s.port p).marks.sweepPending || (s.port p).marks.testing) = (s.port p).held := rfl
  obtain ⟨h1, rfl⟩ | ⟨h1, h2, rfl⟩ | ⟨h1, h2, h3, rfl⟩ | ⟨h1, h2, h3, h4, rfl⟩ | ⟨h1, h2, h3, h4, rfl⟩ | ⟨h1, h2, h3, h4, h5, rfl⟩ := h
  · exact hother (by decide) (by simp [State.admissionOutcome, h1])
  · exact hother (by decide) (by simp only [State.admissionOutcome, hmarks, h1, h2]; rfl)
  · exact hother (by decide) (by simp only [State.admissionOutcome, hmarks, h1, h2, h3]; rfl)
  · exact hother (by decide) (by simp only [State.admissionOutcome, hmarks, h1, h2, h3, h4]; rfl)
  · have hne : (s.port p).power.state ≠ .tripped := fun h => by rw [h] at h4; cases h4
    have hoff : (s.port p).power.state ≠ .off := fun h => by rw [h] at h4; cases h4
    exact ⟨by simp only [State.admissionOutcome, hmarks, h1, h2, h3, h4, hne]; rfl, if_neg fun hc => hoff hc.2⟩
  · refine hother (by decide) ?_
    rw [admissionOutcome_admissible ⟨h1, h2, h4⟩ h3, if_pos h5]

theorem testJoined_self (s : State) : s.testJoined s.mgr.startQueue = s := by
  unfold State.testJoined
  split
  · rename_i h
    exact testHead_waits (.inl (List.isEmpty_iff.1 h))
  · rfl

theorem taken_effectiveBudget (s : State) (m : Master) : (s.taken m).effectiveBudget = s.effectiveBudget := rfl

/-- The outcome of two entries of one list, of which the first is admitted. -/
theorem admitList_two {a b : Nat} (hsup : s.mgr.supply = .normal) (hadm : ∀ x, (x = p ∨ x = q) → (s.port x).admissible)
    (ha : a = (s.port p).profile.allotment) (hb : b = (s.port q).profile.allotment)
    (hbud : s.mgr.committed + a ≤ s.effectiveBudget) :
    (p ≠ q → s.mgr.committed + a + b ≤ s.effectiveBudget →
      (s.admitList [p, q]).1 = [.done, .done] ∧ Admitted s (s.admitList [p, q]).2 [p, q]) ∧
    ((p = q ∨ s.effectiveBudget < s.mgr.committed + a + b) →
      (s.admitList [p, q]).1 = [.done, if p = q then .done else .overBudget] ∧ Admitted s (s.admitList [p, q]).2 [p]) := by
  obtain ⟨hdone, h1⟩ := (Admitted.nil s).join (hadm p (.inl rfl)) hsup (by simp) (by simpa [← ha] using hbud)
  rw [List.nil_append] at h1
  rw [admitList_pair, hdone]
  refine ⟨fun hne hboth => ?_, fun h => ?_⟩
  · obtain ⟨hdone2, h2⟩ := h1.join (hadm q (.inr rfl)) hsup (by simpa using Ne.symm hne) (by simpa [← ha, ← hb] using hboth)
    rw [hdone2]
    exact ⟨rfl, h2⟩
  · by_cases hpq : p = q
    · obtain ⟨hdone2, hsame⟩ := h1.again (hadm q (.inr rfl)) hsup (by simp [hpq])
      rw [hdone2, hsame, if_pos hpq]
      exact ⟨rfl, h1⟩
    · obtain ⟨hover, hsame⟩ := h1.refused (hadm q (.inr rfl)) hsup (by simpa using Ne.symm hpq)
        (by simpa [← ha, ← hb] using h.resolve_left hpq)
      rw [hover, hsame, if_neg hpq]
      exact ⟨rfl, h1⟩

/-- Settles O29. -/
theorem portPowerOnAdmitsPorts : Obligations.PortPowerOnAdmitsPorts := by
  intro s m e hreach
  refine ⟨fun ports h1 h8 hbad => ?_, fun n p r hp hrow => ?_, fun n p hp hlock hheld hsup hoff hbud => ?_,
    fun n k p q a b hp hq hsup hadm ha hb hbud => ?_⟩
  · exact exec_portPower_badRange hreach (portListFits_of h1 h8) (portList_eq_none hbad)
  · obtain ⟨ho, hs⟩ := admission_refused (s := s.taken m) hrow
    rw [exec_portPowerOn hreach rfl (portList_singleton hp), admitList_singleton, ho, hs]
    exact congrArg (fun u => Host.Outcome.next (State.reply u m e _)) (testJoined_self (s.taken m))
  · obtain ⟨ho, h1⟩ := (Admitted.nil (s.taken m)).join (q := p) ⟨hlock, hheld, hoff⟩ hsup (by simp)
      (by simpa [taken_effectiveBudget] using hbud)
    have hexec := exec_portPowerOn hreach rfl (portList_singleton hp)
    rw [admitList_singleton, ho] at hexec
    dsimp only at hexec
    rw [List.nil_append] at h1
    refine ⟨fun hw => ?_, fun hq hi hg => ?_⟩
    · refine ⟨_, hexec, ?_⟩
      rw [h1.waits hw]
      exact ⟨h1.sameBut, by rw [h1.mgr]; simp, h1.port_of_mem (by simp)⟩
    · refine ⟨_, hexec, ?_⟩
      rw [h1.starts hq hi hg]
      refine ⟨h1.started_sameBut, ?_, h1.started_port (by simp)⟩
      rw [h1.started_mgr hq]
      simp [hq]
  · obtain ⟨hboth, hone⟩ := admitList_two (s := s.taken m) hsup hadm ha hb hbud
    have hexec := exec_portPowerOn hreach (show portListFits [n, k] = true from rfl) (portList_pair hp hq)
    refine ⟨fun hw => ⟨fun hne hle => ?_, fun h => ?_⟩, fun hq hi hg => ⟨fun hne hle => ?_, fun h => ?_⟩⟩
    · obtain ⟨hres, h2⟩ := hboth hne hle
      rw [hres] at hexec
      refine ⟨_, hexec, ?_⟩
      rw [h2.waits hw]
      refine ⟨h2.same, ?_, fun x hx => h2.port_of_mem (by simpa using hx), fun x hxp hxq => h2.port_of_not_mem (by simp [hxp, hxq])⟩
      rw [h2.mgr]
      simp [ha, hb, Nat.add_assoc]
    · obtain ⟨hres, h1⟩ := hone h
      rw [hres] at hexec
      refine ⟨_, hexec, ?_⟩
      rw [h1.waits hw]
      refine ⟨h1.sameBut, ?_, (h1.port_of_mem (by simp)).trans (by rw [ha]; rfl)⟩
      rw [h1.mgr]
      simp [ha]
    · obtain ⟨hres, h2⟩ := hboth hne hle
      rw [hres] at hexec
      refine ⟨_, hexec, ?_⟩
      rw [h2.starts hq hi hg]
      refine ⟨?_, ?_, ?_, fun x hxp hxq => ?_⟩
      · rw [h2.started_mgr hq]
        simp [ha, hb, Nat.add_assoc]
      · rw [h2.started_port (by simp)]
      · rw [startPort_port_of_ne _ (Ne.symm hne), h2.port_of_mem (by simp)]
        rfl
      · rw [startPort_port_of_ne _ hxp, h2.port_of_not_mem (by simp [hxp, hxq])]
        rfl
    · obtain ⟨hres, h1⟩ := hone h
      rw [hres] at hexec
      refine ⟨_, hexec, ?_⟩
      rw [h1.starts hq hi hg]
      refine ⟨h1.started_sameBut, ?_, ?_, ?_⟩
      · rw [h1.started_mgr hq]
        simp [ha, hq]
      · rw [h1.started_port (by simp)]
      · rw [h1.started_port (by simp), ha]
        rfl

/-! ## PORT_POWER OFF (R30) and CLEAR_PORT_FAULT (R40) -/

/-- R30: an entry of an off list for a port that is not committed. -/
theorem offEntry_uncommitted (h : (s.port p).power.state.committed = false) : s.offEntry p =
    if s.mgr.supply = .low then s.updMgr (fun g => { g with restoreSet := g.restoreSet.filter (fun q => !(q == p)) }) else s := by
  have : s.switchOff p .request = s := by simp [State.switchOff, h]
  unfold State.offEntry
  rw [this]

theorem offEntry_normal (h : (s.switchOff p .request).mgr.supply = .normal) : s.offEntry p = s.switchOff p .request := by
  unfold State.offEntry
  dsimp only
  rw [if_neg (by rw [h]; decide)]

/-- R30: a list of ports that are not committed, under a supply that is NORMAL and under one that is LOW. -/
theorem foldl_offEntry_normal (hsup : s.mgr.supply = .normal) : ∀ l : List Port,
    (∀ q ∈ l, (s.port q).power.state.committed = false) → l.foldl State.offEntry s = s
  | [], _ => rfl
  | p :: l, h => by
    rw [List.foldl_cons, offEntry_uncommitted (h p List.mem_cons_self), if_neg (by rw [hsup]; decide)]
    exact foldl_offEntry_normal hsup l fun q hq => h q (List.mem_cons_of_mem p hq)

theorem foldl_offEntry_low : ∀ (l : List Port) (s : State), s.mgr.supply = .low →
    (∀ q ∈ l, (s.port q).power.state.committed = false) →
    l.foldl State.offEntry s = s.updMgr (fun g => { g with restoreSet := g.restoreSet.filter (fun q => !(l.contains q)) })
  | [], s, _, _ => by
    have hall : s.mgr.restoreSet.filter (fun _ => true) = s.mgr.restoreSet := List.filter_eq_self.2 fun _ _ => rfl
    simp [State.updMgr, hall]
  | p :: l, s, hsup, h => by
    rw [List.foldl_cons, offEntry_uncommitted (h p List.mem_cons_self), if_pos hsup]
    refine (foldl_offEntry_low l
      (s.updMgr fun g => { g with restoreSet := g.restoreSet.filter (fun q => !(q == p)) }) hsup
      fun q hq => h q (List.mem_cons_of_mem p hq)).trans ?_
    have hand : ∀ q : Port, (!(l.contains q) && !(q == p)) = !((p :: l).contains q) := fun q => by
      rw [List.contains_cons, Bool.not_or, Bool.and_comm]
    simp only [State.updMgr, List.filter_filter, hand]

theorem portList_of_uncommitted : ∀ {ports : List Nat},
    (∀ k ∈ ports, ∃ q, portOf k = some q ∧ (s.port q).power.state.committed = false) →
    ∃ l, portList ports = some l ∧ l.map Fin.val = ports ∧ ∀ q ∈ l, (s.port q).power.state.committed = false
  | [], _ => ⟨[], rfl, rfl, nofun⟩
  | k :: ports, h => by
    obtain ⟨q, hq, hoff⟩ := h k List.mem_cons_self
    obtain ⟨l, hl, hval, hall⟩ := portList_of_uncommitted fun k hk => h k (List.mem_cons_of_mem _ hk)
    refine ⟨q :: l, by simp [portList, hq, hl], ?_, fun x hx => ?_⟩
    · rw [List.map_cons, hval, portOf_eq_some.1 hq]
    · obtain rfl | hx := List.mem_cons.1 hx
      · exact hoff
      · exact hall x hx

theorem not_energized_of_uncommitted {w : PowerState} (h : w.committed = false) : w.energized = false := by
  cases w <;> first | rfl | cases h

/-- R30: the notice of a QUEUED port that is switched off. -/
theorem switchOff_queued (h : (s.port p).power.state = .queued) (c : OffCause) :
    s.switchOff p c = (s.enterOff p c).powerEvent false
      { port := some p, change := some (.queued, .off), cause := some (.off c), sample := none, refusal := none
        sweepQueued := none, openSuspect := none, restoreSet := none, notRestored := none
        committed := s.mgr.committed - (s.port p).power.allotment.getD 0 } := by
  have hev : (s.enterOff p c).powerChange p .queued (some (.off c)) =
      { port := some p, change := some (.queued, .off), cause := some (.off c), sample := none, refusal := none
        sweepQueued := none, openSuspect := none, restoreSet := none, notRestored := none
        committed := s.mgr.committed - (s.port p).power.allotment.getD 0 } := by
    unfold State.powerChange
    rw [enterOff_port_self, enterOff_mgr]
    rfl
  rw [← hev]
  simp [State.switchOff, h, PowerState.committed, PowerState.energized]

/-- R40: what clears the latch of a TRIPPED port. -/
theorem clearFault_tripped (h : (s.port p).power.state = .tripped) : s.clearFault p =
    (((s.updPower p (fun w => { w with state := .off, lastOff := some .cleared })).updMarks p
      (fun k => { k with lockout := false })).powerEvent false
      { port := some p, change := some (.tripped, .off), cause := some (.off .cleared), sample := none, refusal := none
        sweepQueued := none, openSuspect := none, restoreSet := none, notRestored := none, committed := s.mgr.committed }) := by
  have hev : (s.updPower p (fun w => { w with state := .off, lastOff := some .cleared })).powerChange p .tripped
      (some (.off .cleared)) =
      { port := some p, change := some (.tripped, .off), cause := some (.off .cleared), sample := none, refusal := none
        sweepQueued := none, openSuspect := none, restoreSet := none, notRestored := none, committed := s.mgr.committed } := by
    unfold State.powerChange
    rw [updPower_power]
    rfl
  unfold State.clearFault
  dsimp only
  rw [if_pos h, hev]
  rfl

/-- Settles O30. -/
theorem portPowerOffAndFaultsClear : Obligations.PortPowerOffAndFaultsClear := by
  intro s m e n p hp
  refine ⟨fun hreach hsup => ?_, fun ports hreach h1 h8 hall => ?_, fun hreach => ?_⟩
  · have hexec := exec_portPowerOff hreach rfl (portList_singleton hp)
    refine ⟨fun hoff => ?_, fun hst => ?_, fun hst htest => ?_⟩
    · rw [hexec]
      rw [foldl_offEntry_normal (s := s.taken m) hsup [p] (by simpa using hoff)]
      simp only [List.any_cons, List.any_nil, not_energized_of_uncommitted hoff, Bool.or_false, Bool.false_eq_true, if_false]
      rfl
    · have hfold : [p].foldl State.offEntry (s.taken m) = (s.taken m).switchOff p .request := by
        refine offEntry_normal ?_
        rw [switchOff_queued (s := s.taken m) hst]
        exact hsup
      rw [hfold, switchOff_queued (s := s.taken m) hst] at hexec
      refine ⟨(s.taken m).enterOff p .request, ⟨fun q hq => enterOff_port_of_ne _ _ hq, rfl, rfl, rfl, rfl, rfl, rfl, rfl, rfl, rfl⟩,
        rfl, enterOff_port_self _ p _, ?_⟩
      rw [hexec]
      simp only [List.any_cons, List.any_nil, hst]
      rfl
    · have hen : (s.port p).power.state.energized = true := by obtain h | h := hst <;> rw [h] <;> rfl
      obtain ⟨-, d, hmgr⟩ := switchOff_spec (s := s.taken m) (p := p) hen .request
      have hfold : [p].foldl State.offEntry (s.taken m) = (s.taken m).switchOff p .request :=
        offEntry_normal (by rw [hmgr]; exact hsup)
      have hby : (s.taken m).switchOffBy p .request = ((s.taken m).switchOff p .request).testHead := if_pos hen
      obtain ⟨hoff, hsum⟩ := switchOffBy_spec (s := s.taken m) (p := p) hen .request
      rw [hfold] at hexec
      simp only [List.any_cons, List.any_nil, hen, Bool.or_false, if_true] at hexec
      rw [← hby] at hexec
      refine ⟨_, hexec, ((taken_same s m).traffic p).trans hoff.traffic, ?_, ?_, ?_, ?_, hsum, ?_, ?_, hoff.marks, hoff.quiet⟩
      · rw [hoff.power]; rfl
      · rw [hoff.power]; rfl
      · rw [hoff.power]; rfl
      · rw [hoff.power]; rfl
      · rw [hoff.link]; exact powerLeft_state htest
      · rw [hoff.link]; exact powerLeft_helloDeadline _
  · obtain ⟨l, hl, hval, hoff⟩ := portList_of_uncommitted hall
    have hexec := exec_portPowerOff hreach (portListFits_of h1 h8) hl
    have hany : l.any (fun p => (s.port p).power.state.energized) = false := by
      rw [List.any_eq_false]
      exact fun q hq => by rw [not_energized_of_uncommitted (hoff q hq)]; exact Bool.false_ne_true
    have hres : l.map (fun _ => Result.done) = ports.map (fun _ => Result.done) := by rw [← hval, List.map_map]; rfl
    rw [hany, hres] at hexec
    simp only [Bool.false_eq_true, if_false] at hexec
    refine ⟨fun hsup => ?_, fun hsup => ?_⟩
    · rw [hexec, foldl_offEntry_normal (s := s.taken m) hsup l hoff]
      rfl
    · refine ⟨_, hexec, ?_⟩
      have hcontains : ∀ q : Port, l.contains q = ports.contains q.val := fun q => by
        rw [← hval, Bool.eq_iff_iff]
        simp only [List.contains_iff_mem, List.mem_map]
        exact ⟨fun h => ⟨q, h, rfl⟩, fun ⟨x, hx, hxq⟩ => Fin.ext hxq ▸ hx⟩
      rw [foldl_offEntry_low l (s.taken m) hsup hoff]
      simp only [hcontains]
      rfl
  · have hexec : exec (.clearPortFault .C n) s = .next (((s.taken .C).clearFault p).reply .C e { result := .done }) :=
      congrArg Host.Outcome.next (takeRequest_onPort hreach hp rfl)
    refine ⟨fun hst => ?_, fun hst => ?_⟩
    · refine ⟨_, hexec, ?_⟩
      have hclear : (s.taken .C).clearFault p = (s.taken .C).updMarks p (fun k => { k with lockout := false }) := by
        simp [State.clearFault, hst]
      rw [hclear]
      exact ⟨updPort_sameBut _ p _, State.updPort_port_self _ p _⟩
    · refine ⟨((s.taken .C).updPower p (fun w => { w with state := .off, lastOff := some .cleared })).updMarks p
        (fun k => { k with lockout := false }), (updPort_sameBut _ p _).trans (updPort_sameBut _ p _), ?_, ?_⟩
      · rw [State.updMarks, State.updPort_port_self, updPower_port]
        rfl
      · rw [hexec, clearFault_tripped (s := s.taken .C) hst]
        rfl

end

/-! ## The supply enters LOW (R42) -/

/-- R42: a port that was not energized keeps its record while the energized ones leave. -/
theorem foldl_supplyLeave_port {b : State} (hen : (b.port q).power.state.energized = false) : ∀ (l : List Port) (t : State),
    (l.foldl b.supplyLeave t).port q = t.port q
  | [], _ => rfl
  | p :: l, t => by
    rw [List.foldl_cons, foldl_supplyLeave_port hen l]
    unfold State.supplyLeave
    split
    · rename_i h
      exact leaveEnergized_port_of_ne fun hqp => by rw [← hqp, hen] at h; cases h
    · rfl

/-- R37, R42: an energized port leaves once. -/
theorem foldl_supplyLeave_energized {b : State} (hen : (b.port q).power.state.energized = true) : ∀ (l : List Port) (t : State),
    l.Nodup → q ∈ l → ∃ v : State, v.port q = t.port q ∧ v.now = t.now ∧
      (l.foldl b.supplyLeave t).port q = (v.leaveEnergized q (b.port q).power.state).port q
  | [], _, _, hq => (List.not_mem_nil hq).elim
  | p :: l, t, hn, hq => by
    obtain ⟨hp, hl⟩ := List.nodup_cons.1 hn
    rw [List.foldl_cons]
    by_cases hqp : q = p
    · subst hqp
      refine ⟨t, rfl, rfl, ?_⟩
      have hkeep : ∀ (l : List Port) (u : State), q ∉ l → (l.foldl b.supplyLeave u).port q = u.port q := by
        intro l
        induction l with
        | nil => exact fun _ _ => rfl
        | cons x l ih =>
          intro u hx
          rw [List.foldl_cons, ih _ fun h => hx (List.mem_cons_of_mem x h)]
          unfold State.supplyLeave
          split
          · exact leaveEnergized_port_of_ne fun h => hx (h ▸ List.mem_cons_self)
          · rfl
      rw [hkeep l _ hp]
      exact congrArg (fun u => State.port u q) (if_pos hen)
    · obtain ⟨v, hv, hnow, he⟩ := foldl_supplyLeave_energized hen l (b.supplyLeave t p) hl ((List.mem_cons.1 hq).resolve_left hqp)
      refine ⟨v, ?_, ?_, he⟩
      · rw [hv]
        unfold State.supplyLeave
        split
        · exact leaveEnergized_port_of_ne hqp
        · rfl
      · rw [hnow]
        unfold State.supplyLeave
        split
        · exact (leaveEnergized_off (.refl t p) (w := (t.port p).power) rfl _).traffic.2.2.2.2.1
        · rfl

/-- Nothing has changed but port records, the store, the masters and the last inrush end. -/
def OnlyPortsLeft (s t : State) : Prop :=
  t.now = s.now ∧ t.engine = s.engine ∧ t.presets = s.presets ∧ t.lines = s.lines ∧
  t.mgr = { s.mgr with lastInrushEnd := t.mgr.lastInrushEnd }

theorem foldl_supplyLeave_onlyPorts (b t : State) (l : List Port) : OnlyPortsLeft t (l.foldl b.supplyLeave t) := by
  refine foldl_closed (P := OnlyPortsLeft t) (fun u p hu => ?_) ⟨rfl, rfl, rfl, rfl, rfl⟩
  refine when_closed hu fun hu => ?_
  obtain ⟨hnow, hengine, hpresets, hlines, hmgr⟩ := hu
  obtain ⟨-, -, -, -, know, -, kpresets, klines, -⟩ := (leaveEnergized_off (.refl u p) (w := (u.port p).power) rfl
    (b.port p).power.state).traffic
  obtain ⟨kmgr, kengine⟩ := leaveEnergized_mgr u p (b.port p).power.state
  exact ⟨know.trans hnow, kengine.trans hengine, kpresets.trans hpresets, klines.trans hlines, by rw [kmgr, hmgr]⟩

/-- Nothing has changed but port records, the store and the masters. -/
def SameOff (s t : State) : Prop :=
  t.now = s.now ∧ t.engine = s.engine ∧ t.presets = s.presets ∧ t.lines = s.lines ∧ t.mgr = s.mgr

/-- R42: the state after the supply has switched its ports off, before the energized ones leave. -/
theorem supplyLow_eq (s : State) : ∃ (v : State) (ev : PowerEvent),
    s.supplyLow = (allPorts.foldl s.supplyLeave v).powerEvent true ev ∧
    (∀ q, v.port q = { s.port q with power := (s.port q).power.supplyOff }) ∧
    v.now = s.now ∧ v.engine = s.engine ∧ v.presets = s.presets ∧ v.lines = s.lines ∧
    v.mgr = { s.mgr with
      supply := .low, restoreSet := allPorts.filter (fun p => (s.port p).power.state.committed), startQueue := [], committed := 0 } := by
  have hsame : ∀ l : List Port, SameOff s (l.foldl (fun t p => t.updPower p PowerRec.supplyOff) s) := fun l =>
    foldl_closed (P := SameOff s) (fun _ _ h => h) ⟨rfl, rfl, rfl, rfl, rfl⟩
  obtain ⟨hnow, hengine, hpresets, hlines, hmgr⟩ := hsame allPorts
  unfold State.supplyLow
  extract_lets set s1 s2 s3
  have h3 : s3 = allPorts.foldl s.supplyLeave s2 := rfl
  rw [h3]
  refine ⟨s2, _, rfl, fun q => ?_, hnow, hengine, hpresets, hlines, by rw [State.updMgr_mgr, hmgr]⟩
  rw [State.updMgr_port, foldl_updPower_port _ _ _ _ (by decide), if_pos (mem_allPorts q)]

/-! ## The supply enters NORMAL (R43, R44) -/

/-- A sum over different elements of a list is no more than the sum over the list. -/
theorem sum_map_le_of_subset {α : Type} [DecidableEq α] {f : α → Nat} : ∀ {l k : List α}, l.Nodup → l ⊆ k →
    (l.map f).sum ≤ (k.map f).sum
  | [], _, _, _ => Nat.zero_le _
  | a :: l, k, hn, hsub => by
    obtain ⟨ha, hn⟩ := List.nodup_cons.1 hn
    have hperm : k.Perm (a :: k.erase a) := List.perm_cons_erase (hsub List.mem_cons_self)
    have hrest : (l.map f).sum ≤ ((k.erase a).map f).sum := sum_map_le_of_subset hn fun b hb => by
      have hba : b ≠ a := fun hba => ha (hba ▸ hb)
      exact (List.mem_erase_of_ne hba).2 (hsub (List.mem_cons_of_mem a hb))
    rw [(hperm.map f).sum_nat, List.map_cons, List.map_cons, List.sum_cons, List.sum_cons]
    exact Nat.add_le_add_left hrest _

theorem sum_le_allPorts {f : Port → Nat} (hl : l.Nodup) : (l.map f).sum ≤ (allPorts.map f).sum :=
  sum_map_le_of_subset hl fun q _ => mem_allPorts q

/-- R29: admissions for which the budget has room for every port. -/
theorem foldl_autoAdmit {o : AdmitOrigin} (hsup : s.mgr.supply = .normal)
    (hbud : s.mgr.committed + (allPorts.map (fun q => (s.port q).profile.allotment)).sum ≤ s.effectiveBudget) :
    ∀ (ps l : List Port) (u : State), (∀ q ∈ ps, (s.port q).admissible) → Admitted s u l →
    ∃ k, Admitted s (ps.foldl (State.autoAdmit o) u) k ∧ ∀ q, q ∈ k ↔ q ∈ l ∨ q ∈ ps
  | [], l, _, _, h => ⟨l, h, by simp⟩
  | p :: ps, l, u, hadm, h => by
    have hp := hadm p List.mem_cons_self
    have hps : ∀ q ∈ ps, (s.port q).admissible := fun q hq => hadm q (List.mem_cons_of_mem p hq)
    rw [List.foldl_cons]
    by_cases hmem : p ∈ l
    · obtain ⟨hdone, hsame⟩ := h.again hp hsup hmem
      have hauto : State.autoAdmit o u p = u := by rw [State.autoAdmit, if_pos hdone, hsame]
      rw [hauto]
      obtain ⟨k, hk, hmk⟩ := foldl_autoAdmit hsup hbud ps l u hps h
      refine ⟨k, hk, fun q => ?_⟩
      rw [hmk, List.mem_cons]
      exact ⟨fun hq => hq.imp_right .inr, fun hq => hq.elim .inl fun hq => hq.elim (fun e => .inl (e ▸ hmem)) .inr⟩
    · have hn : (l ++ [p]).Nodup := List.nodup_append.2 ⟨h.nodup, List.pairwise_singleton _ p, by
        rintro a ha b hb rfl
        rw [List.mem_singleton] at hb
        exact hmem (hb ▸ ha)⟩
      have hle := sum_le_allPorts (f := fun q => (s.port q).profile.allotment) hn
      rw [List.map_append, List.sum_append] at hle
      obtain ⟨hdone, h1⟩ := h.join hp hsup hmem (by
        simp only [List.map_cons, List.map_nil, List.sum_cons, List.sum_nil] at hle
        omega)
      have hauto : State.autoAdmit o u p = u.admitPort p := if_pos hdone
      rw [hauto]
      obtain ⟨k, hk, hmk⟩ := foldl_autoAdmit hsup hbud ps (l ++ [p]) _ hps h1
      refine ⟨k, hk, fun q => ?_⟩
      rw [hmk, List.mem_append, List.mem_singleton, List.mem_cons, or_assoc]

/-- A change of the manager beside its committed sum and its start queue, before or after admissions. -/
theorem Admitted.updMgr (h : Admitted s u l) {f : PowerMgr → PowerMgr}
    (hf : ∀ g c k, f { g with committed := c, startQueue := k } = { f g with committed := c, startQueue := k }) :
    Admitted (s.updMgr f) (u.updMgr f) l := by
  have hkeep : f s.mgr = { f s.mgr with committed := s.mgr.committed, startQueue := s.mgr.startQueue } := hf s.mgr _ _
  have hc : (f s.mgr).committed = s.mgr.committed := by rw [hkeep]
  have hq : (f s.mgr).startQueue = s.mgr.startQueue := by rw [hkeep]
  refine ⟨h.nodup, h.off, h.ports, ?_, ?_⟩
  · rw [State.updMgr_mgr, State.updMgr_mgr, h.mgr, hf, hc, hq]
    rfl
  · show { u with mgr := f u.mgr } = _
    conv => lhs; rw [h.same]
    rfl

/-- R32: what a test of the head leaves of the admitted ports and of the others, where the queue was empty before. -/
theorem Admitted.testJoined (h : Admitted s u l) :
    (∀ q, q ∉ l → (u.testJoined s.mgr.startQueue).port q = s.port q) ∧
    (∀ q ∈ l, ((u.testJoined s.mgr.startQueue).port q).power.allotment = some (s.port q).profile.allotment ∧
      (((u.testJoined s.mgr.startQueue).port q).power.state = .queued ∨
        ((u.testJoined s.mgr.startQueue).port q).power.state = .inrush) ∧
      (s.port q).sameTraffic ((u.testJoined s.mgr.startQueue).port q) ∧
      ((u.testJoined s.mgr.startQueue).port q).marks = (s.port q).marks ∧
      ((u.testJoined s.mgr.startQueue).port q).link.state = (s.port q).link.state) := by
  have hqueued : ∀ q ∈ l, (u.port q).power.allotment = some (s.port q).profile.allotment ∧
      ((u.port q).power.state = .queued ∨ (u.port q).power.state = .inrush) ∧ (s.port q).sameTraffic (u.port q) ∧
      (u.port q).marks = (s.port q).marks ∧ (u.port q).link.state = (s.port q).link.state := fun q hq => by
    rw [h.port_of_mem hq]
    exact ⟨rfl, .inl rfl, ⟨rfl, rfl, rfl, rfl, rfl, rfl, rfl, rfl⟩, rfl, rfl⟩
  have hnotin : ∀ q, q ∉ l → u.port q = s.port q := fun q hq => h.port_of_not_mem hq
  unfold State.testJoined
  split
  · rename_i hempty
    obtain k | ⟨p, rest, hp, -, -, k⟩ := testHead_cases u <;> rw [k]
    · exact ⟨hnotin, hqueued⟩
    · have hpl : p ∈ l := by
        rw [h.mgr, List.isEmpty_iff.1 hempty] at hp
        have hp' : l = p :: rest := hp
        rw [hp']
        exact List.mem_cons_self
      refine ⟨fun q hq => ?_, fun q hq => ?_⟩
      · rw [startPort_port_of_ne u fun e : q = p => hq (e ▸ hpl)]
        exact hnotin q hq
      · by_cases hqp : q = p
        · subst hqp
          rw [h.started_port hpl]
          exact ⟨rfl, .inr rfl, ⟨rfl, rfl, rfl, rfl, rfl, rfl, rfl, rfl⟩, rfl, rfl⟩
        · rw [startPort_port_of_ne u hqp]
          exact hqueued q hq
  · exact ⟨hnotin, hqueued⟩

theorem supplyOff_uncommitted {w : PowerRec} (h : w.state.committed = false) : w.supplyOff = w := if_neg (by simp [h])

theorem supplyOff_committed {w : PowerRec} (h : w.state.committed = true) :
    w.supplyOff = { w with state := .off, lastOff := some .supply, allotment := none } := if_pos h

/-- R42. -/
theorem supplyLow_spec (s : State) :
    s.supplyLow.mgr = { s.mgr with
      supply := .low, restoreSet := allPorts.filter (fun p => (s.port p).power.state.committed), startQueue := [], committed := 0
      lastInrushEnd := s.supplyLow.mgr.lastInrushEnd } ∧
    s.supplyLow.now = s.now ∧ s.supplyLow.engine = s.engine ∧ s.supplyLow.presets = s.presets ∧ s.supplyLow.lines = s.lines ∧
    ∀ p : Port,
      ((s.port p).power.state.energized = false →
        s.supplyLow.port p = { s.port p with power := (s.port p).power.supplyOff }) ∧
      ((s.port p).power.state.energized = true →
        ∃ v : State, v.now = s.now ∧ v.port p = { s.port p with power :=
          { (s.port p).power with state := .off, lastOff := some .supply, allotment := none } } ∧
          s.supplyLow.port p = (v.leaveEnergized p (s.port p).power.state).port p) := by
  obtain ⟨v, ev, he, hport, hnow, hengine, hpresets, hlines, hmgr⟩ := supplyLow_eq s
  obtain ⟨know, kengine, kpresets, klines, kmgr⟩ := foldl_supplyLeave_onlyPorts s v allPorts
  obtain ⟨eport, enow, -, emgr, eengine, -, epresets, elines, -⟩ := powerEvent_same (allPorts.foldl s.supplyLeave v) true ev
  rw [he]
  refine ⟨by rw [emgr, kmgr, hmgr], by rw [enow, know, hnow], by rw [eengine, kengine, hengine],
    by rw [epresets, kpresets, hpresets], by rw [elines, klines, hlines], fun p => ⟨fun hen => ?_, fun hen => ?_⟩⟩
  · rw [eport, foldl_supplyLeave_port hen, hport]
  · obtain ⟨x, hx, hxnow, hxe⟩ := foldl_supplyLeave_energized hen allPorts v (by decide) (mem_allPorts p)
    refine ⟨x, hxnow.trans hnow, ?_, by rw [eport, hxe]⟩
    rw [hx, hport, supplyOff_committed (energized_committed hen)]

/-- R43, R44: what the supply's return admits. -/
theorem supplyNormal_spec {back : Port → Prop} (hback : ∀ p, back p ↔ (p ∈ s.mgr.restoreSet ∧ (s.port p).profile.autoRestore = true) ∨
      (s.mgr.startUpPending = true ∧ (s.port p).profile.powerAtStart = true))
    (hadm : ∀ p, back p → (s.port p).admissible)
    (hbud : s.mgr.committed + (allPorts.map (fun p => (s.port p).profile.allotment)).sum ≤ s.effectiveBudget) :
    ∃ (b u : State) (l : List Port), s.supplyNormal = u.testJoined s.mgr.startQueue ∧ Admitted b u l ∧ (∀ q, q ∈ l ↔ back q) ∧
      (∀ q, b.port q = s.port q) ∧ b.now = s.now ∧ b.store = s.store ∧ b.engine = s.engine ∧ b.presets = s.presets ∧
      b.lines = s.lines ∧ b.mgr = { s.mgr with supply := .normal, restoreSet := [], startUpPending := false } := by
  unfold State.supplyNormal
  extract_lets set ports s1 _ s2 s3 s4
  obtain ⟨hport, hnow, -, hmgr, hengine, hstore, hpresets, hlines, -⟩ : SameButMasters s1 s2 := powerEvent_same s1 false _
  have hbud2 : s2.mgr.committed + (allPorts.map (fun q => (s2.port q).profile.allotment)).sum ≤ s2.effectiveBudget := by
    rw [effectiveBudget_congr (s := s) (t := s2) hpresets (by rw [hmgr]; rfl), hmgr]
    simp only [hport]
    exact hbud
  have hsup2 : s2.mgr.supply = .normal := by rw [hmgr]; rfl
  have hmem : ∀ q, q ∈ ports ↔ q ∈ s.mgr.restoreSet ∧ (s.port q).profile.autoRestore = true := fun q => List.mem_filter
  obtain ⟨k, hk, hkm⟩ := foldl_autoAdmit (o := .restore) hsup2 hbud2 ports [] s2
    (fun q hq => (hport q).symm ▸ hadm q ((hback q).2 (.inl ((hmem q).1 hq)))) (.nil s2)
  have h3 : Admitted (s2.updMgr fun g => { g with restoreSet := [] }) s3 k := hk.updMgr fun _ _ _ => rfl
  by_cases hpend : s.mgr.startUpPending = true
  · have h4 : s4 = ((allPorts.filter (fun p => (s.port p).profile.powerAtStart)).foldl (State.autoAdmit .start) s3).updMgr
        (fun g => { g with startUpPending := false }) := if_pos hpend
    obtain ⟨l, hl, hlm⟩ := foldl_autoAdmit (s := s2.updMgr fun g => { g with restoreSet := [] }) (o := .start) hsup2 hbud2
      (allPorts.filter (fun p => (s.port p).profile.powerAtStart)) k s3
      (fun q hq => (hport q).symm ▸ hadm q ((hback q).2 (.inr ⟨hpend, (List.mem_filter.1 hq).2⟩))) h3
    refine ⟨(s2.updMgr fun g => { g with restoreSet := [] }).updMgr fun g => { g with startUpPending := false }, s4, l, rfl, ?_,
      fun q => ?_, hport, hnow, hstore, hengine, hpresets, hlines, ?_⟩
    · rw [h4]
      exact hl.updMgr fun _ _ _ => rfl
    · rw [hlm, hkm, hback, hmem, List.mem_filter]
      simp [hpend, mem_allPorts]
    · rw [State.updMgr_mgr, State.updMgr_mgr, hmgr]
      rfl
  · have hfalse : s.mgr.startUpPending = false := Bool.eq_false_iff.2 hpend
    have h4 : s4 = s3 := if_neg hpend
    refine ⟨s2.updMgr fun g => { g with restoreSet := [] }, s4, k, rfl, h4 ▸ h3, fun q => ?_, hport, hnow, hstore, hengine,
      hpresets, hlines, ?_⟩
    · rw [hkm, hback, hmem]
      simp [hfalse]
    · rw [State.updMgr_mgr, hmgr, ← hfalse]
      rfl

theorem energized_of {w : PowerState} (h : w = .inrush ∨ w = .on) : w.energized = true := by obtain rfl | rfl := h <;> rfl

/-- Settles O28. -/
theorem supplyStatesSwitchPorts : Obligations.SupplyStatesSwitchPorts := by
  refine ⟨fun s high forUs hsup => ⟨fun h => ?_, fun hhigh hfor htest => ?_⟩, fun s low forUs back hsup => ⟨fun h => ?_,
    fun hlow hfor hnow hback hadm hbud => ?_⟩⟩
  · refine congrArg Host.Outcome.next (if_neg ?_)
    rintro ⟨-, h1, h2⟩
    have : 5000 ≤ forUs := h2
    omega
  · have hexec : exec (.supplyStateLow high forUs) s = .next s.supplyLow := congrArg Host.Outcome.next (if_pos ⟨hsup, hhigh, hfor⟩)
    obtain ⟨hmgr, hnow, hengine, hpresets, hlines, hports⟩ := supplyLow_spec s
    have hoff : ∀ p : Port, ((s.port p).power.state = .off ∨ (s.port p).power.state = .tripped) →
        s.supplyLow.port p = s.port p := fun p h => by
      have hc : (s.port p).power.state.committed = false := by obtain h | h := h <;> rw [h] <;> rfl
      rw [(hports p).1 (not_energized_of_uncommitted hc), supplyOff_uncommitted hc]
    refine ⟨_, hexec, by rw [hmgr], by rw [hmgr], by rw [hmgr], by rw [hmgr], by rw [hmgr], by rw [hmgr], by rw [hmgr], hnow,
      hengine, hpresets, hlines, fun hsweep p hheld => hoff p (hsweep.1 p (by rw [hheld]; rfl)), fun p => ⟨hoff p, fun hq => ?_,
      fun hen => ?_⟩⟩
    · rw [(hports p).1 (by rw [hq]; rfl), supplyOff_committed (by rw [hq]; rfl)]
    · obtain ⟨v, hv, hport, he⟩ := (hports p).2 (energized_of hen)
      have hleft := leaveEnergized_off (.refl v p) (w := (v.port p).power) rfl (s.port p).power.state
      have hlink : (s.supplyLow.port p).link = (s.port p).link.powerLeft := by rw [he, hleft.link, hport]
      have hpower := hleft.power
      rw [hport, hv, ← he] at hpower
      refine ⟨by rw [hpower]; rfl, by rw [hpower]; rfl, by rw [hpower]; rfl, by rw [hpower]; rfl, by rw [hpower]; rfl,
        by rw [hpower]; rfl, by rw [hpower]; rfl, by rw [hlink]; exact powerLeft_state (htest p hen),
        by rw [hlink]; exact powerLeft_helloDeadline _, ?_, ?_, fun hup => ?_⟩
      · rw [he, hleft.marks, hport]
      · rw [he, hleft.traffic.2.1, hport]
      · rw [he]; exact hleft.quiet (by rw [hport]; exact hup)
  · refine congrArg Host.Outcome.next (if_neg ?_)
    rintro ⟨-, h1, h2, h3⟩
    obtain h | h | h := h
    · exact absurd h1 (Nat.not_le.mpr h)
    · exact absurd h2 (Nat.not_le.mpr h)
    · exact absurd h3 (Nat.not_le.mpr h)
  · have hexec : exec (.supplyStateNormal low forUs) s = .next s.supplyNormal :=
      congrArg Host.Outcome.next (if_pos ⟨hsup, hlow, hfor, hnow⟩)
    obtain ⟨b, u, l, he, hacc, hmem, hport, hn, hst, heng, hpre, hli, hmgr⟩ := supplyNormal_spec hback
      (fun p hp => ⟨(hadm p hp).2.2, (hadm p hp).2.1, (hadm p hp).1⟩) hbud
    have hbq : s.mgr.startQueue = b.mgr.startQueue := by rw [hmgr]
    rw [hbq] at he
    obtain ⟨hnot, hin⟩ := hacc.testJoined
    have hsame : SameTraffic u (u.testJoined b.mgr.startQueue) 0 ∧
        (u.testJoined b.mgr.startQueue).store = u.store ∧ (u.testJoined b.mgr.startQueue).engine = u.engine ∧
        (u.testJoined b.mgr.startQueue).mgr =
          { u.mgr with startQueue := (u.testJoined b.mgr.startQueue).mgr.startQueue } := by
      unfold State.testJoined
      split
      · exact ⟨testHead_traffic u 0, (testHead_store_engine u).1, (testHead_store_engine u).2, testHead_mgr u⟩
      · exact ⟨.refl u 0, rfl, rfl, rfl⟩
    rw [he] at hexec
    obtain ⟨⟨-, -, -, -, know, -, kpre, kli, -⟩, kst, keng, kmgr⟩ := hsame
    refine ⟨_, hexec, ?_, ?_, ?_, ?_, ?_, ?_, ?_, ?_, fun p hp => ?_, fun p hp => ?_⟩
    · rw [kmgr, hacc.mgr, hmgr]
    · rw [kmgr, hacc.mgr, hmgr]
    · rw [kmgr, hacc.mgr, hmgr]
    · rw [know, hacc.same]; exact hn
    · rw [kst, hacc.same]; exact hst
    · rw [keng, hacc.same]; exact heng
    · rw [kpre, hacc.same]; exact hpre
    · rw [kli, hacc.same]; exact hli
    · rw [hnot p fun h => hp ((hmem p).1 h), hport]
    · rw [← hport p]
      exact hin p ((hmem p).2 hp)

end Sys2Proof.Machine

end


section
/-! PROOFS. The break finder: the distance computation, the queue of sweeps and the end of a sweep (chapter 3). -/

namespace Sys2Proof.Machine

variable {s t u : State} {p q : Port}

/-! ## Averages and the launch level (R56, R57) -/

/-- R56: a sum divided by N, rounded down. -/
theorem average_bounds {n x : Int} (hn : 0 < n) : n * (x / n) ≤ x ∧ x < n * (x / n + 1) ∧
    (-2048 * n ≤ x → x ≤ 2047 * n → -2048 ≤ x / n ∧ x / n ≤ 2047) := by
  refine ⟨Int.mul_ediv_self_le (Int.ne_of_gt hn), ?_, fun hlo hhi => ⟨(Int.le_ediv_iff_mul_le hn).2 hlo, ?_⟩⟩
  · have := Int.lt_mul_ediv_self_add (x := x) hn
    rwa [Int.mul_add, Int.mul_one]
  · exact Int.le_trans (Int.ediv_le_ediv hn hhi) (Int.le_of_eq (Int.mul_ediv_cancel _ (Int.ne_of_gt hn)))

/-- R57: the samples whose sum gives the launch level. -/
theorem launch_samples {trace : List Int} (h : trace.length = 1024) :
    (trace.drop 4).take 8 = (List.range 8).map (fun j => trace.getD (4 + j) 0) := by
  refine List.ext_getElem (by simp [h]) fun i h1 h2 => ?_
  have hi : i < 8 := by simpa using h2
  have hlt : 4 + i < trace.length := by omega
  simp [List.getD_eq_getElem?_getD, hlt]

/-! ## Crossings (R59 to R61) -/

/-- R59: the deviation before the one found; where that is not the first one searched, it is below the threshold. -/
theorem sweepSearch_before {q : SweepParams} {trace : List Int} {i : Nat} {before d : Int} (hlen : trace.length = 1024)
    (hblind : 12 ≤ q.blind) (hblind' : q.blind ≤ 255) (h : sweepSearch q trace = some (i, before, d)) :
    before = trace.getD (i - 1) 0 - launchLevel trace ∧ q.blind ≤ i ∧ i ≤ 1023 ∧
    crossThreshold (launchLevel trace) q.threshold ≤ d.natAbs ∧
    (i ≠ q.blind → before.natAbs < crossThreshold (launchLevel trace) q.threshold) := by
  obtain ⟨n, hn, ht, hfirst, hx⟩ := firstCrossing_eq_some.mp h
  have hslen := searchedDeviations_length q trace
  simp only [Prod.mk.injEq] at hx
  obtain ⟨rfl, rfl, rfl⟩ := hx
  refine ⟨?_, Nat.le_add_right _ _, by omega, ht, fun hne => ?_⟩
  · cases n with
    | zero =>
      have hlt : q.blind - 1 < trace.length := by omega
      simp [List.getD_eq_getElem?_getD, hlt]
    | succ n =>
      rw [List.getD_cons_succ, searchedDeviations_getD (by omega)]
      rfl
  · cases n with
    | zero => exact absurd rfl hne
    | succ n => exact hfirst n (Nat.lt_succ_self n)

/-- A product is above 0 where its factors have the same sign. -/
theorem int_mul_pos_iff (a b : Int) : 0 < a * b ↔ (0 < a ∧ 0 < b) ∨ (a < 0 ∧ b < 0) := by
  refine ⟨fun h => ?_, fun h => h.elim (fun ⟨ha, hb⟩ => Int.mul_pos ha hb) fun ⟨ha, hb⟩ => Int.mul_pos_of_neg_of_neg ha hb⟩
  rcases Int.lt_trichotomy a 0 with ha | rfl | ha
  · rcases Int.lt_trichotomy b 0 with hb | rfl | hb
    · exact .inr ⟨ha, hb⟩
    · exact absurd h (by simp)
    · exact absurd h (Int.not_lt.2 (Int.le_of_lt (Int.mul_neg_of_neg_of_pos ha hb)))
  · exact absurd h (by simp)
  · rcases Int.lt_trichotomy b 0 with hb | rfl | hb
    · exact absurd h (Int.not_lt.2 (Int.le_of_lt (Int.mul_neg_of_pos_of_neg ha hb)))
    · exact absurd h (by simp)
    · exact .inl ⟨ha, hb⟩

theorem predecessor_eq (before d : Int) :
    predecessor before d = if (0 < before ∧ 0 < d) ∨ (before < 0 ∧ d < 0) then before.natAbs else 0 := by
  unfold predecessor
  simp only [int_mul_pos_iff]

theorem crossFraction_le (t : Nat) (before d : Int) : crossFraction t before d ≤ 15 := by
  unfold crossFraction
  dsimp only
  split
  · exact Nat.zero_le _
  · exact Nat.min_le_left _ _

/-- R61: the bounds of a position, and of the distance it gives. -/
theorem crossPosition_bounds {i f : Nat} (h12 : 12 ≤ i) (h : i ≤ 1023) (hf : f ≤ 15) :
    176 ≤ crossPosition i f ∧ crossPosition i f ≤ 16367 := by
  unfold crossPosition
  omega

theorem rawDistance_le {x v : Nat} (hx : x ≤ 16367) (hv : v ≤ 990) : rawDistance x v ≤ 75896 := by
  have hmul : x * v * 4684 ≤ 16367 * 990 * 4684 := Nat.mul_le_mul_right _ (Nat.mul_le_mul hx hv)
  have hdiv : x * v * 4684 / 1000000 ≤ 16367 * 990 * 4684 / 1000000 := Nat.div_le_div_right hmul
  exact hdiv

/-- Settles O35. -/
theorem breakDistancesAreBounded : Obligations.BreakDistancesAreBounded := by
  refine ⟨fun n sums hn => ⟨List.length_map _, fun i x a hi hx ha => ?_⟩, by decide,
    fun now cause q trace r hlen hb hb' hv hr => ?_⟩
  · have hquot : a = x / (n : Int) := by
      rw [ha, hx]
      simp [averagedTrace, List.getD_eq_getElem?_getD, hi]
    rw [hquot]
    exact average_bounds (Int.natCast_pos.2 hn)
  · subst hr
    refine ⟨?_, ?_, ?_, breakRecord_position_isSome now cause q trace, fun sum hsum => ?_, fun i t m f before d hi ht hbefore hd hm hf => ?_,
      fun hlow => ?_⟩
    · obtain ⟨-, h⟩ | ⟨-, h⟩ | ⟨i, before, d, hs, h⟩ := breakRecord_cases now cause q trace <;> rw [h]
      · exact Nat.zero_le _
      · exact Nat.zero_le _
      · obtain ⟨-, hle, hle', -⟩ := sweepSearch_before hlen hb hb' hs
        obtain ⟨-, hpos⟩ := crossPosition_bounds (Nat.le_trans hb hle) hle' (crossFraction_le _ before d)
        exact Nat.le_trans (Nat.sub_le _ _) (rawDistance_le hpos hv)
    · obtain ⟨-, h⟩ | ⟨-, h⟩ | ⟨i, before, d, hs, h⟩ := breakRecord_cases now cause q trace <;> rw [h]
      · nofun
      · nofun
      · rintro x ⟨⟩
        obtain ⟨-, hle, hle', -⟩ := sweepSearch_before hlen hb hb' hs
        exact crossPosition_bounds (Nat.le_trans hb hle) hle' (crossFraction_le _ before d)
    · obtain ⟨-, h⟩ | ⟨-, h⟩ | ⟨i, before, d, hs, h⟩ := breakRecord_cases now cause q trace <;> rw [h]
      · nofun
      · nofun
      · rintro x ⟨⟩
        rfl
    · rw [breakRecord_launch]
      have hlaunch : launchLevel trace = sum / 8 := by rw [launchLevel, launch_samples hlen, hsum]
      exact ⟨rfl, by omega, by omega⟩
    · rw [breakRecord_launch] at hbefore hd
      obtain ⟨-, h⟩ | ⟨-, h⟩ | ⟨k, b, x, hs, h⟩ := breakRecord_cases now cause q trace <;> rw [h] at hi ht ⊢
      · cases hi
      · cases hi
      · obtain rfl : k = i := Option.some.inj hi
        obtain rfl : crossThreshold (launchLevel trace) q.threshold = t := Option.some.inj ht
        obtain ⟨hbk, hle, -, hreach, hbelow⟩ := sweepSearch_before hlen hb hb' hs
        obtain rfl : b = before := hbk.trans hbefore.symm
        obtain rfl : x = d := (sweepSearch_deviation hs).trans hd.symm
        rw [← predecessor_eq] at hm
        have h8 : 8 ≤ crossThreshold (launchLevel trace) q.threshold := Nat.le_max_left _ _
        refine ⟨fun h0 => by rw [h0] at hreach; exact absurd (Nat.le_trans h8 hreach) (by decide), hreach, fun htm => ?_, ?_⟩
        · refine Decidable.byContradiction fun hne => ?_
          have hpred : m ≤ b.natAbs := by
            rw [hm, predecessor]
            split
            · exact Nat.le_refl _
            · exact Nat.zero_le _
          exact absurd (Nat.le_trans htm hpred) (Nat.not_le.mpr (hbelow hne))
        · rw [hf, hm]
          rfl
    · rw [breakRecord_of_low_launch now cause hlow]
      exact ⟨rfl, rfl, rfl, rfl, rfl, rfl⟩

/-! ## The engine (R49, R52, R53) -/

theorem takeEntry_idle_empty (h : s.engine.queue = []) : s.takeEntry = s := by
  obtain ⟨k, -⟩ | ⟨e, rest, -, hq, -⟩ := takeEntry_cases s
  · exact k
  · rw [h] at hq; cases hq

theorem takeEntry_busy (h : s.engine.state ≠ .idle) : s.takeEntry = s := by
  obtain ⟨k, -⟩ | ⟨e, rest, hi, -⟩ := takeEntry_cases s
  · exact k
  · exact absurd hi h

section
variable {e : SweepEntry} {rest : List SweepEntry}

/-- R52: an entry taken whose port still discharges. -/
theorem takeEntry_waits (hi : s.engine.state = .idle) (hq : s.engine.queue = e :: rest)
    (h : s.now < (s.port e.port).power.deenergized + 100000) : s.takeEntry = s.updEngine (fun g => { g with
      queue := rest, current := some e, state := .dischargeWait
      dischargeEnd := some ((s.port e.port).power.deenergized + 100000) }) := by
  obtain ⟨-, k | k⟩ | ⟨x, l, -, hx, ⟨-, k⟩ | ⟨hle, -⟩⟩ := takeEntry_cases s
  · exact absurd hi k
  · rw [hq] at k; cases k
  · rw [hq] at hx
    cases hx
    exact k
  · rw [hq] at hx
    cases hx
    exact absurd h (Nat.not_lt.mpr hle)

/-- R52, R53: an entry taken whose port has discharged. -/
theorem takeEntry_acquires (hi : s.engine.state = .idle) (hq : s.engine.queue = e :: rest)
    (h : (s.port e.port).power.deenergized + 100000 ≤ s.now) : s.takeEntry = (s.updEngine (fun g => { g with
      queue := rest, current := some e, state := .dischargeWait
      dischargeEnd := some ((s.port e.port).power.deenergized + 100000) })).enterAcquiring e := by
  obtain ⟨-, k | k⟩ | ⟨x, l, -, hx, ⟨hlt, -⟩ | ⟨-, k⟩⟩ := takeEntry_cases s
  · exact absurd hi k
  · rw [hq] at k; cases k
  · rw [hq] at hx
    cases hx
    exact absurd hlt (Nat.not_lt.mpr h)
  · rw [hq] at hx
    cases hx
    exact k

/-- R53: what entry into ACQUIRING changes beside the engine is the port's marks and its link. -/
theorem enterAcquiring_sameBut (s : State) (e : SweepEntry) :
    SameBut { s with engine := (s.enterAcquiring e).engine } (s.enterAcquiring e) e.port :=
  ⟨fun _ hq => enterAcquiring_port_of_ne s e hq, rfl, rfl, rfl, rfl, rfl, rfl, rfl, rfl, rfl⟩

/-- R53: the engine in ACQUIRING. -/
theorem enterAcquiring_engine (s : State) (e : SweepEntry) : (s.enterAcquiring e).engine = { s.engine with
    state := .acquiring, params := some (sweepParams e.averaging (s.port e.port).profile), buffer := List.replicate 1024 0
    repetitions := 0
    acquisitionEnd := some (s.now + (sweepParams e.averaging (s.port e.port).profile).averaging * 2000) } := by
  have hms : ms ((sweepParams e.averaging (s.port e.port).profile).averaging * 2) =
      (sweepParams e.averaging (s.port e.port).profile).averaging * 2000 := Nat.mul_assoc _ 2 1000
  rw [← hms]
  rfl

end

/-- R49: an append that is made. -/
theorem sweepAppend_eq (h : (s.port p).held = false) (c : SweepCause) (m : Option Master) (n : Option Nat) :
    s.sweepAppend p c m n = ((s.updMarks p (fun m => { m with sweepPending := true })).updEngine
      (fun g => { g with queue := g.queue ++ [⟨p, c, m, n⟩] })).takeEntry := by
  have h' : ((s.port p).marks.sweepPending || (s.port p).marks.testing) = false := h
  simp only [State.sweepAppend, h', Bool.false_eq_true, if_false]

/-! ## SWEEP, DISCHARGE_END and ACQUISITION_REPETITION (R50, R53, R56) -/

theorem addSamples_length : ∀ (sums : List Int) (samples : List (BitVec 12)), (addSamples sums samples).length = sums.length
  | [], _ => rfl
  | _ :: _, [] => rfl
  | _ :: sums, _ :: samples => congrArg (· + 1) (addSamples_length sums samples)

/-- R56: the sums grow by the samples, index by index. -/
theorem addSamples_getD : ∀ (sums : List Int) (samples : List (BitVec 12)) (i : Nat), i < sums.length → i < samples.length →
    (addSamples sums samples).getD i 0 = sums.getD i 0 + (samples.getD i 0).toInt
  | [], _, _, h, _ => absurd h (Nat.not_lt_zero _)
  | _ :: _, [], _, _, h => absurd h (Nat.not_lt_zero _)
  | _ :: _, _ :: _, 0, _, _ => rfl
  | _ :: sums, _ :: samples, i + 1, h, h' => by
    simpa [addSamples] using addSamples_getD sums samples i (Nat.lt_of_succ_lt_succ h) (Nat.lt_of_succ_lt_succ h')

section
variable {m : Master} {e : RequestEntry} {n : Nat} {v : Option Nat}

/-- R50: the answer of a SWEEP that appends nothing. -/
theorem exec_sweep_refused {r : Result} (hr : Reaches s m .sweep e)
    (h : (7 < n ∧ r = .badRange) ∨ (portOf n = some p ∧ (s.port p).power.state.committed = true ∧ r = .portPowered) ∨
      (portOf n = some p ∧ (s.port p).power.state.committed = false ∧ (s.port p).held = true ∧ r = .done)) :
    exec (.sweep m n v) s = .next (s.answered m e
      { result := r, clamped := v.elim [] (fun x => clampEntry 1 x (reduceAveraging x)) }) := by
  simp only [exec_sweep, execSweep, takeRequest_of_reaches hr]
  obtain ⟨hn, rfl⟩ | ⟨hp, hc, rfl⟩ | ⟨hp, hc, hh, rfl⟩ := h
  · rw [portOf_eq_none hn]
    cases v <;> rfl
  · simp only [hp, taken_port, hc, if_true]
    cases v <;> rfl
  · have hs : (s.port p).sweepable = false := by rw [show (s.port p).sweepable = !(s.port p).held from rfl, hh]; rfl
    simp only [hp, taken_port, hc, hs, Bool.not_false, Bool.false_eq_true, if_false, if_true]
    cases v <;> rfl

end

/-- Settles O31. -/
theorem sweepsAreQueuedAndAcquired : Obligations.SweepsAreQueuedAndAcquired := by
  refine ⟨fun s m e n av clamps hr hclamps => ?_, fun s e hcur => ⟨fun d hst hd => ⟨fun hnow => ?_, fun hnow => ?_⟩,
    fun d q samples hst hq hd hrep hbuf hlen => ⟨fun hnow => ?_, fun hnow => ?_⟩⟩⟩
  · have hcl : clamps = av.elim [] (fun x => clampEntry 1 x (reduceAveraging x)) := hclamps
    refine ⟨fun hn => by rw [hcl]; exact exec_sweep_refused (p := 0) hr (.inl ⟨hn, rfl⟩), fun p entry hp hentry => ⟨fun hc => ?_,
      fun hc hh => ?_, fun hc hh => ?_⟩⟩
    · rw [hcl]
      exact exec_sweep_refused hr (.inr (.inl ⟨hp, hc, rfl⟩))
    · rw [hcl]
      exact exec_sweep_refused hr (.inr (.inr ⟨hp, hc, hh, rfl⟩))
    · have hexec := exec_sweep_of_idle hp hr hc hh av
      rw [← hcl, sweepAppend_eq (s := s.taken m) hh, ← hentry] at hexec
      generalize hv : ((s.taken m).updMarks p (fun m => { m with sweepPending := true })).updEngine
        (fun g => { g with queue := g.queue ++ [entry] }) = w at hexec
      have hport : w.port p = { s.port p with marks := { (s.port p).marks with sweepPending := true } } := by
        rw [← hv, State.updEngine_port, State.updMarks, State.updPort_port_self]
        rfl
      have hsame : SameBut { s.taken m with engine := w.engine } w p := by
        rw [← hv]
        refine ⟨fun q hq => ?_, rfl, rfl, rfl, rfl, rfl, rfl, rfl, rfl, rfl⟩
        rw [State.updEngine_port, State.updMarks, State.updPort_port_of_ne _ _ (Ne.symm hq)]
        rfl
      have hengine : w.engine = { s.engine with queue := s.engine.queue ++ [entry] } := by rw [← hv]; rfl
      have hep : entry.port = p := by rw [hentry]
      have hwnow : w.now = s.now := hsame.2.1
      have hde : (w.port entry.port).power.deenergized = (s.port p).power.deenergized := by rw [hep, hport]
      refine ⟨fun hbusy => ?_, fun hidle hempty hnow => ?_, fun hidle hempty hnow => ?_⟩
      · rw [takeEntry_busy (by rw [hengine]; exact hbusy)] at hexec
        exact ⟨w, hexec, hsame, hengine, hport⟩
      · rw [takeEntry_waits (e := entry) (rest := []) (by rw [hengine]; exact hidle) (by rw [hengine, hempty]; rfl)
          (by rw [hde, hwnow]; exact hnow), hde] at hexec
        refine ⟨_, hexec, ⟨hsame.1, hsame.2.1, hsame.2.2.1, hsame.2.2.2.1, rfl, hsame.2.2.2.2.2⟩, ?_, hport⟩
        rw [State.updEngine_engine, hengine, ← hempty]
      · rw [takeEntry_acquires (e := entry) (rest := []) (by rw [hengine]; exact hidle) (by rw [hengine, hempty]; rfl)
          (by rw [hde, hwnow]; exact hnow)] at hexec
        refine ⟨_, hexec, ⟨fun q hq => ?_, hsame.2.1, hsame.2.2.1, hsame.2.2.2.1, rfl, hsame.2.2.2.2.2⟩, rfl, rfl, rfl, rfl, ?_⟩
        · rw [enterAcquiring_port_of_ne _ _ (by rw [hep]; exact hq), State.updEngine_port]
          exact hsame.1 q hq
        · have h := enterAcquiring_port_self (w.updEngine (fun g => { g with
            queue := [], current := some entry, state := .dischargeWait
            dischargeEnd := some ((w.port entry.port).power.deenergized + 100000) })) entry
          rw [State.updEngine_port, hep, hport] at h
          rw [hep, hport]
          exact h
  · have hpass : passed s.now s.engine.dischargeEnd = false := by simpa [passed, hd] using hnow
    simp [exec, execDischargeEnd, hst, hcur, hpass]
  · have hpass : passed s.now s.engine.dischargeEnd = true := by simpa [passed, hd] using hnow
    refine ⟨s.enterAcquiring e, sweepParams e.averaging (s.port e.port).profile, ?_, enterAcquiring_sameBut s e,
      enterAcquiring_port_self s e, rfl, enterAcquiring_engine s e⟩
    simp [exec, execDischargeEnd, hst, hcur, hpass]
  · refine congrArg Host.Outcome.next (if_neg ?_)
    have hms : ms (2 * (q.averaging - (s.engine.repetitions + 1))) = (q.averaging - (s.engine.repetitions + 1)) * 2000 := by
      rw [Nat.mul_comm 2]
      exact Nat.mul_assoc _ 2 1000
    have hnot : ¬ d ≤ s.now + (q.averaging - (s.engine.repetitions + 1)) * 2000 := Nat.not_le.mpr hnow
    simp [BreakEngine.repetitionDue, hst, hq, hd, hms, hnot]
  · have hms : ms (2 * (q.averaging - (s.engine.repetitions + 1))) = (q.averaging - (s.engine.repetitions + 1)) * 2000 := by
      rw [Nat.mul_comm 2]
      exact Nat.mul_assoc _ 2 1000
    have hdue : s.engine.repetitionDue s.now = true := by
      simp [BreakEngine.repetitionDue, hst, hq, hd, hms, hnow, hrep]
    refine ⟨_, congrArg Host.Outcome.next (if_pos hdue), rfl, rfl, ?_, fun i hi => ?_⟩
    · exact (addSamples_length _ _).trans hbuf
    · exact addSamples_getD _ _ i (by rw [hbuf]; exact hi) (by rw [hlen]; exact hi)

/-! ## The end of a sweep (R65, R66, R68) -/

theorem locksOut_eq (k : BreakKind) : k.locksOut = decide (k = .short ∨ k = .open ∨ k = .cameraShort) := by
  cases k <;> rfl

theorem takeEntry_masters (s : State) : s.takeEntry.masters = s.masters ∧
    s.takeEntry = { s with ports := s.takeEntry.ports, engine := s.takeEntry.engine } := by
  obtain ⟨k, -⟩ | ⟨e, rest, -, -, ⟨-, k⟩ | ⟨-, k⟩⟩ := takeEntry_cases s <;> rw [k] <;> exact ⟨rfl, rfl⟩

/-- R65, R66: the port's record at the end of its sweep. -/
def PortRec.sweepEnded (r : BreakRecord) (u : PortRec) : PortRec :=
  { u with
    breakLog := (if 4 ≤ u.breakLog.length then u.breakLog.drop 1 else u.breakLog) ++ [r]
    link := { u.link with state := .down, lastCause := some .sweepEnd }
    marks := { u.marks with testing := false, lockout := u.marks.lockout || r.kind.locksOut } }

/-- R66: the end of a sweep, its record joined and its notice sent. -/
theorem endSweep_eq {e : SweepEntry} {q : SweepParams} {r : BreakRecord}
    (hr : r = breakRecord s.now e.cause q (averagedTrace q.averaging s.engine.buffer)) {restore : Bool}
    (hrestore : restore = s.restores e r.kind.locksOut) {v : State}
    (hv : v = (s.updPort e.port (PortRec.sweepEnded r)).notifyAll r.kind.locksOut
      (.sweepDone e.port e.requester r ((s.port e.port).marks.lockout || r.kind.locksOut) restore)) :
    s.endSweep e q =
      ((if restore = true then (v.autoAdmit .sweepRestore e.port).testJoined v.mgr.startQueue else v).updEngine
        BreakEngine.toIdle).takeEntry := by
  unfold State.endSweep
  extract_lets r' locks s1 s2 restore' s3 s4
  have hs2 : s2 = s.updPort e.port (PortRec.sweepEnded r) := by
    simp only [s2, s1, State.updLink, State.updMarks, updPort_updPort, hr]
    rfl
  have hlocks : locks = r.kind.locksOut := congrArg (fun x => x.kind.locksOut) hr.symm
  have hport : s2.port e.port = (s.port e.port).sweepEnded r := by rw [hs2, State.updPort_port_self]
  have hres : restore' = restore := by
    show s2.restores e locks = restore
    rw [hlocks, hrestore]
    unfold State.restores
    rw [hport]
    rfl
  have hs3 : s3 = v := by
    show s2.notifyAll locks (.sweepDone e.port e.requester r' (s2.port e.port).marks.lockout restore') = v
    rw [hres, hport, hlocks, hs2, hv, show r' = r from hr.symm]
    rfl
  simp only [s4, hres, hs3]

/-- R52, R66: what the engine goes on with, the sweep ended. -/
theorem toIdle_takeEntry_cases {v : State} {g : BreakEngine} (hg : v.engine.toIdle = g) :
    (v.engine.queue = [] → (v.updEngine BreakEngine.toIdle).takeEntry = v.updEngine (fun _ => g)) ∧
    (∀ e2 rest, v.engine.queue = e2 :: rest → v.now < (v.port e2.port).power.deenergized + 100000 →
      (v.updEngine BreakEngine.toIdle).takeEntry = v.updEngine (fun _ => { g with
        queue := rest, state := .dischargeWait, current := some e2
        dischargeEnd := some ((v.port e2.port).power.deenergized + 100000) })) ∧
    (∀ e2 rest, v.engine.queue = e2 :: rest → (v.port e2.port).power.deenergized + 100000 ≤ v.now →
      (v.updEngine BreakEngine.toIdle).takeEntry = (v.updEngine (fun _ => { g with
        queue := rest, state := .dischargeWait, current := some e2
        dischargeEnd := some ((v.port e2.port).power.deenergized + 100000) })).enterAcquiring e2) := by
  subst hg
  refine ⟨fun h => takeEntry_idle_empty h, fun e2 rest hq hnow => ?_, fun e2 rest hq hnow => ?_⟩
  · exact takeEntry_waits (s := v.updEngine BreakEngine.toIdle) rfl hq hnow
  · exact takeEntry_acquires (s := v.updEngine BreakEngine.toIdle) rfl hq hnow

/-- Settles O32. -/
theorem sweepEndsAreRecorded : Obligations.SweepEndsAreRecorded := by
  intro s e q d hst hcur hpar hend
  refine ⟨fun h => ?_, fun r locks u g hrep hnow hr hlocks hu hg => ?_⟩
  · have hnot : ¬ (s.engine.repetitions = q.averaging ∧ passed s.now s.engine.acquisitionEnd = true) := by
      rintro ⟨h1, h2⟩
      rw [hend] at h2
      have h2' : d ≤ s.now := of_decide_eq_true h2
      exact h.elim (fun h => h h1) fun h => absurd h2' (Nat.not_le.mpr h)
    simp only [exec, execAcquisitionEnd, hst, hcur, hpar, hnot, if_false]
  · have hexec : exec .acquisitionEnd s = .next (s.endSweep e q) := by
      have hpass : passed s.now s.engine.acquisitionEnd = true := by rw [hend]; exact decide_eq_true hnow
      simp only [exec, execAcquisitionEnd, hst, hcur, hpar, hrep, hpass, and_self, if_true]
    rw [← locksOut_eq] at hlocks
    have hu' : u = (s.port e.port).sweepEnded r := by rw [hu, hlocks]; rfl
    refine ⟨fun hnone => ?_, fun sent hreq hlk hauto hsup hqueue hlock hpend hoff hsent => ?_⟩
    · have hrestore : false = s.restores e r.kind.locksOut := by
        rw [← hlocks]
        unfold State.restores
        obtain h | h | h | h := hnone <;> simp [h]
      rw [endSweep_eq hr hrestore rfl, if_neg Bool.false_ne_true] at hexec
      have hlockout : u.marks.lockout = ((s.port e.port).marks.lockout || r.kind.locksOut) := by rw [hu']; rfl
      rw [← hlocks] at hexec hlockout
      rw [← hlockout] at hexec
      generalize hv : (s.updPort e.port (PortRec.sweepEnded r)).notifyAll locks
        (.sweepDone e.port e.requester r u.marks.lockout false) = v at hexec
      have hmasters : v.masters = (s.notifyAll locks (.sweepDone e.port e.requester r u.marks.lockout false)).masters := by
        rw [← hv]; rfl
      have hvs : v = { s with ports := v.ports, masters := v.masters } := by rw [← hv]; rfl
      have hvp : v.port e.port = u := by
        rw [← hv, (notifyAll_same _ _ _).1, State.updPort_port_self, hu']
      have hvo : ∀ x : Port, x ≠ e.port → v.port x = s.port x := fun x hx => by
        rw [← hv, (notifyAll_same _ _ _).1, State.updPort_port_of_ne _ _ (Ne.symm hx)]
      have hveng : v.engine = s.engine := by rw [hvs]
      have hvnow : v.now = s.now := by rw [hvs]
      obtain ⟨hempty, hwait, hacq⟩ := toIdle_takeEntry_cases (v := v) (g := g) (by rw [hveng, hg]; rfl)
      obtain ⟨hm, hsame⟩ := takeEntry_masters (v.updEngine BreakEngine.toIdle)
      refine ⟨_, hexec, ?_, hm.trans hmasters, fun hq => ?_, fun e2 rest discharge hq hne hdis => ?_⟩
      · generalize (v.updEngine BreakEngine.toIdle).takeEntry = x at hm hsame
        refine hsame.trans ?_
        rw [hm]
        conv => lhs; rw [hvs]
        rfl
      · rw [hempty (by rw [hveng]; exact hq)]
        exact ⟨rfl, hvp, hvo⟩
      · have hde : (v.port e2.port).power.deenergized + 100000 = discharge := by rw [hvo _ hne, hdis]
        by_cases hlt : s.now < discharge
        · rw [hwait e2 rest (by rw [hveng]; exact hq) (by rw [hde, hvnow]; exact hlt), hde]
          exact ⟨hvp, fun x hx _ => hvo x hx, fun _ => ⟨hvo _ hne, rfl⟩, fun q2 hle => absurd hlt (Nat.not_lt.mpr hle)⟩
        · have hle : discharge ≤ s.now := Nat.not_lt.mp hlt
          rw [hacq e2 rest (by rw [hveng]; exact hq) (by rw [hde, hvnow]; exact hle), hde]
          refine ⟨?_, fun x hx hx2 => ?_, fun h => absurd h hlt, fun q2 _ hq2 => ⟨?_, ?_⟩⟩
          · rw [enterAcquiring_port_of_ne _ _ (Ne.symm hne)]
            exact hvp
          · rw [enterAcquiring_port_of_ne _ _ hx2]
            exact hvo x hx
          · rw [enterAcquiring_port_self, State.updEngine_port, hvo _ hne]
          · rw [enterAcquiring_engine, State.updEngine_port, hvo _ hne, State.updEngine_now, hvnow, hq2]
            rfl
    · have hrestore : true = s.restores e r.kind.locksOut := by
        rw [← hlocks]
        unfold State.restores
        simp [hreq, hauto, hlk, hsup]
      rw [endSweep_eq hr hrestore rfl, if_pos rfl, ← hlocks, hlk, hlock] at hexec
      generalize hv : (s.updPort e.port (PortRec.sweepEnded r)).notifyAll false
        (.sweepDone e.port e.requester r (false || false) true) = v at hexec
      have hmasters : v.masters = sent.masters := by rw [← hv, hsent]; rfl
      have hvs : v = { s with ports := v.ports, masters := v.masters } := by rw [← hv]; rfl
      have hvp : v.port e.port = u := by
        rw [← hv, (notifyAll_same _ _ _).1, State.updPort_port_self, hu']
      have hvo : ∀ x : Port, x ≠ e.port → v.port x = s.port x := fun x hx => by
        rw [← hv, (notifyAll_same _ _ _).1, State.updPort_port_of_ne _ _ (Ne.symm hx)]
      have hveng : v.engine = s.engine := by rw [hvs]
      have hvmgr : v.mgr = s.mgr := by rw [hvs]
      have hvbud : v.effectiveBudget = s.effectiveBudget := effectiveBudget_congr (by rw [hvs]) (by rw [hvmgr])
      have hprof : (v.port e.port).profile = (s.port e.port).profile := by rw [hvp, hu]
      have hadm : (v.port e.port).admissible := by
        rw [hvp, hu, hlk]
        exact ⟨by simp [hlock], by simp [PortRec.held, hpend], hoff⟩
      refine ⟨fun hbud => ?_, fun hover => ?_⟩
      · obtain ⟨hdone, hacc⟩ := (Admitted.nil v).join hadm (by rw [hvmgr]; exact hsup) (by simp)
          (by rw [hvmgr, hvbud, hprof]; simpa using hbud)
        rw [List.nil_append] at hacc
        have hauto' : v.autoAdmit .sweepRestore e.port = v.admitPort e.port := if_pos hdone
        rw [hauto'] at hexec
        obtain ⟨-, hin⟩ := hacc.testJoined
        obtain ⟨hallot, hstate, htr, hmarks, -⟩ := hin e.port (by simp)
        generalize hx : (v.admitPort e.port).testJoined v.mgr.startQueue = x at hexec hallot hstate htr hmarks
        have hxs : x.engine = s.engine ∧ x.masters = v.masters := by
          rw [← hx]
          unfold State.testJoined
          split
          · obtain k | ⟨y, -, -, -, -, k⟩ := testHead_cases (v.admitPort e.port) <;> rw [k]
            · rw [hacc.same]; exact ⟨hveng, rfl⟩
            · show (v.admitPort e.port).engine = s.engine ∧ (v.admitPort e.port).masters = v.masters
              rw [hacc.same]; exact ⟨hveng, rfl⟩
          · rw [hacc.same]; exact ⟨hveng, rfl⟩
        obtain ⟨hempty, -⟩ := toIdle_takeEntry_cases (v := x) (g := g) (by rw [hxs.1, hg]; rfl)
        rw [hempty (by rw [hxs.1]; exact hqueue)] at hexec
        obtain ⟨-, -, -, -, -, hlog, -⟩ := htr
        rw [hvp] at hlog hmarks
        refine ⟨_, hexec, rfl, hxs.2.trans hmasters, by rw [← hprof]; exact hallot, hstate, hlog, ?_, hmarks⟩
        show (x.port e.port).breakLog.getLast? = some r
        rw [hlog, hu]
        simp
      · obtain ⟨hout, -⟩ := (Admitted.nil v).refused hadm (by rw [hvmgr]; exact hsup) (by simp)
          (by rw [hvmgr, hvbud, hprof]; simpa using hover)
        have hauto' : v.autoAdmit .sweepRestore e.port = v.powerEvent false
            { PowerEvent.bare v.mgr.committed with port := some e.port, refusal := some (.sweepRestore, .overBudget) } := by
          unfold State.autoAdmit
          dsimp only
          rw [hout, if_neg (by decide)]
        rw [hauto'] at hexec
        have hjoin : ∀ ev, (v.powerEvent false ev).testJoined v.mgr.startQueue = v.powerEvent false ev := fun ev =>
          testJoined_self (v.powerEvent false ev)
        rw [hjoin] at hexec
        generalize hx : v.powerEvent false _ = x at hexec
        have hxs : x = { v with masters := x.masters } := by rw [← hx]; rfl
        have hxeng : x.engine = s.engine := by rw [hxs, ← hveng]
        obtain ⟨hempty, -⟩ := toIdle_takeEntry_cases (v := x) (g := g) (by rw [hxeng, hg]; rfl)
        rw [hempty (by rw [hxeng]; exact hqueue)] at hexec
        have hxport : ∀ y, x.port y = v.port y := fun y => by rw [hxs]; rfl
        refine ⟨_, hexec, ⟨fun y hy => ?_, ?_, ?_, ?_, rfl, ?_, ?_, ?_, rfl, ?_⟩, ?_, ?_⟩
        · exact (hxport y).trans (hvo y hy)
        · show x.now = s.now
          rw [hxs, hvs]
        · show x.lastReset = s.lastReset
          rw [hxs, hvs]
        · show x.mgr = s.mgr
          rw [hxs, hvs]
        · show x.store = s.store
          rw [hxs, hvs]
        · show x.presets = s.presets
          rw [hxs, hvs]
        · show x.lines = s.lines
          rw [hxs, hvs]
        · show x.pending = s.pending
          rw [hxs, hvs]
        · exact (hxport _).trans hvp
        · show x.masters = _
          rw [← hx, hsent, hvmgr, ← hv]
          rfl

end Sys2Proof.Machine

end


section
/-! PROOFS. Subscriptions, trigger requests and the master ports (5.3, 5.4, 9.4, 9.5, chapter 10). -/

namespace Sys2Proof.Machine

variable {s t u : State} {p q : Port} {m : Master} {e : RequestEntry} {n : Nat}

/-! ## Subscriptions and policies (R102, R107) -/

theorem analysis_master (a : Analysis) : a.master.analysis = some a := by cases a <;> rfl

theorem setSubscription_eq (s : State) (a : Analysis) (p : Port) (v : Bool) : s.setSubscription a.master p v =
    s.updPort p (fun r => { r with subscribers := r.subscribers.set a v }) := by
  unfold State.setSubscription
  rw [analysis_master]

theorem onReader_master {a : Analysis} {act : Analysis → State → Answer × State} (s : State) :
    onReader a.master act s = act a s := by
  unfold onReader
  rw [analysis_master]

theorem takeRequest_onReader {a : Analysis} {k : RequestKind} {act : Analysis → State → Answer × State} {x : Answer} {fits : Bool}
    (h : Reaches s a.master k e) (hf : fits = true) (ha : act a (s.taken a.master) = (x, t)) :
    s.takeRequest a.master k fits (onReader a.master act) = t.reply a.master e x := by
  rw [takeRequest_of_reaches_fits h hf, onReader_master, ha]

theorem policyFits_of {pol : Option Nat} (h : pol = none ∨ pol = some 0 ∨ pol = some 1) : policyFits pol = true := by
  obtain rfl | rfl | rfl := h <;> rfl

/-- Settles O44. -/
theorem subscriptionsAndPoliciesAreSet : Obligations.SubscriptionsAndPoliciesAreSet := by
  refine fun s a e => ⟨fun n p v c k hp hc hr => ?_, fun hr => ⟨fun h pol hpol hh => ?_, fun h pol r hh hpol hrec => ?_⟩⟩
  · have hexec : exec c s = .next (((s.taken a.master).updPort p
        (fun r => { r with subscribers := r.subscribers.set a v })).reply a.master e { result := .done }) := by
      obtain ⟨rfl, rfl, rfl⟩ | ⟨rfl, rfl, rfl⟩ := hc
      all_goals
        refine congrArg Host.Outcome.next (takeRequest_onPort hr hp ?_)
        rw [setSubscription_eq]
    exact ⟨_, hexec, updPort_sameBut _ p _, State.updPort_port_self _ p _⟩
  · refine congrArg Host.Outcome.next (takeRequest_onReader hr (policyFits_of hpol) ?_)
    have hout : optWithin 1 512 (some h) = false := by
      have : ¬ (1 ≤ h ∧ h ≤ 512) := by omega
      simpa [optWithin, within] using fun h1 => Nat.lt_of_not_le fun h2 => this ⟨h1, h2⟩
    rw [hout]
    rfl
  · have hin : optWithin 1 512 h = true := by
      cases h with
      | none => rfl
      | some v =>
        obtain ⟨h1, h2⟩ := hh v rfl
        simp [optWithin, within, h1, h2]
    have hnew : ((((s.taken a.master).updStore (fun st => st.updReader a (fun r =>
        { r with holdLimit := h.getD r.holdLimit, policy := (pol.bind policyOf).getD r.policy }))).store.readers.get a)) = r := by
      rw [State.updStore_store, Store.updReader, PerAnalysis.get_set_self, hrec]
      obtain rfl | rfl | rfl := hpol <;> rfl
    refine ⟨(s.taken a.master).updStore (fun st => st.updReader a (fun r =>
        { r with holdLimit := h.getD r.holdLimit, policy := (pol.bind policyOf).getD r.policy })),
      congrArg Host.Outcome.next (takeRequest_onReader hr (policyFits_of hpol) ?_), ?_⟩
    · simp only [hin, Bool.not_true, Bool.false_eq_true, if_false, hnew]
    · rw [hrec]
      obtain rfl | rfl | rfl := hpol <;> rfl

/-! ## FIRE and SET_TRIGGER_LINE (R184, R185) -/

theorem optWithin_iff {a b : Nat} {x : Option Nat} : optWithin a b x = true ↔ ∀ v, x = some v → a ≤ v ∧ v ≤ b := by
  cases x <;> simp [optWithin, within]

theorem optWithin_eq_false {a b v : Nat} {x : Option Nat} (h : x = some v) (hv : v < a ∨ b < v) : optWithin a b x = false := by
  rw [Bool.eq_false_iff]
  intro hin
  obtain ⟨h1, h2⟩ := optWithin_iff.1 hin v h
  omega

theorem clampTo_eq {a b : Nat} (h : a ≤ b) (v : Nat) : clampTo a b v = max a (min b v) := by
  unfold clampTo
  split
  · omega
  · split <;> omega

theorem clampEntry_eq {a b i v : Nat} (h : a ≤ b) :
    clampEntry i v (clampTo a b v) = if a ≤ v ∧ v ≤ b then [] else [(i, max a (min b v))] := by
  rw [clampTo_eq h]
  unfold clampEntry
  by_cases hv : a ≤ v ∧ v ≤ b
  · rw [if_pos hv, if_pos (by omega)]
  · rw [if_neg hv, if_neg (by omega)]

theorem lineOf_eq_none (h : 3 < n) : lineOf n = none := dif_neg (Nat.not_lt.mpr h)

/-- R184: a TRIGGER handed to a link that is UP and has room. -/
theorem fireUnsequenced_of_room {ex : Option Nat} {o : PendingOrigin} (hup : (s.port p).link.state = .up)
    (hroom : (s.port p).waiting.length < 16) : s.fireUnsequenced p ex o = s.updPort p (fun r => { r with
      waiting := r.waiting ++ [.trigger ex], intake := { r.intake with pendingOrigin := some o } }) := by
  unfold State.fireUnsequenced
  rw [handDown_of_room (.inr hup) hroom, State.updIntake, updPort_updPort]

/-- R185: the settings in force with each field given in its place. -/
theorem replaced_eq (old : LineSettings) (r : RawLine) (hp : polarityFits r.polarity = true) : old.replaced r =
    LineSettings.mk (r.enable.getD old.enable)
      (if r.polarity = some 0 then .rising else if r.polarity = some 1 then .falling else old.polarity)
      (r.debounce.elim old.debounce (fun v => max 1 (min 255 v)))
      (r.holdOff.elim old.holdOff (fun v => min 1000 v)) (r.route.elim old.route (BitVec.ofNat 8)) := by
  have hpol : (r.polarity.bind polarityOf).getD old.polarity =
      if r.polarity = some 0 then .rising else if r.polarity = some 1 then .falling else old.polarity := by
    cases hr : r.polarity with
    | none => rfl
    | some v =>
      rw [hr] at hp
      match v with
      | 0 => rfl
      | 1 => rfl
      | v + 2 => cases hp
  have hclamp : ∀ v, clampTo 0 1000 v = min 1000 v := fun v => by rw [clampTo_eq (Nat.zero_le _), Nat.zero_max]
  unfold LineSettings.replaced
  rw [hpol]
  congr 1
  · cases r.debounce with
    | none => rfl
    | some v => exact clampTo_eq (by decide) v
  · cases r.holdOff with
    | none => rfl
    | some v => exact hclamp v
  · cases r.route <;> rfl

theorem lineClamps_eq (r : RawLine) : lineClamps r =
    r.debounce.elim [] (fun v => if 1 ≤ v ∧ v ≤ 255 then [] else [(3, max 1 (min 255 v))]) ++
    r.holdOff.elim [] (fun v => if v ≤ 1000 then [] else [(4, 1000)]) := by
  unfold lineClamps
  congr 1
  · cases r.debounce with
    | none => rfl
    | some v => exact clampEntry_eq (by decide)
  · cases r.holdOff with
    | none => rfl
    | some v =>
      refine (clampEntry_eq (Nat.zero_le _)).trans ?_
      by_cases h : v ≤ 1000
      · simp [h]
      · have hmin : min 1000 v = 1000 := by omega
        simp [h, hmin]

/-- Settles O55. -/
theorem triggersFireAndLinesAreSet : Obligations.TriggersFireAndLinesAreSet := by
  refine fun s m e => ⟨fun n p ex r hp hr hrow => ?_, fun n p ex hp hr hex hseq hup hin hroom => ?_,
    fun n set hr hpol => ⟨fun hbad => ?_, fun l old new hl hroute hold hnew => ?_⟩⟩
  · refine congrArg Host.Outcome.next (takeRequest_onPort hr hp ?_)
    obtain ⟨⟨v, hv, hbad⟩, rfl⟩ | ⟨hex, hrow⟩ := hrow
    · rw [optWithin_eq_false hv hbad]
      rfl
    · have hin := optWithin_iff.2 hex
      obtain ⟨h1, rfl⟩ | ⟨h1, h2, rfl⟩ | ⟨h1, h2, h3, rfl⟩ := hrow
      · simp only [hin, taken_port, h1, Bool.not_true, Bool.false_eq_true, if_false, if_true]
        rfl
      · simp only [hin, taken_port, h1, h2, ne_eq, not_false_eq_true, Bool.not_true, Bool.false_eq_true, if_false, if_true]
        rfl
      · simp only [hin, taken_port, h1, h2, h3, ne_eq, not_true_eq_false, Bool.not_true, Bool.false_eq_true, if_false, if_true]
        rfl
  · refine ⟨_, congrArg Host.Outcome.next (takeRequest_onPort (t := (s.taken m).updPort p (fun r => { r with
      waiting := r.waiting ++ [.trigger ex], intake := { r.intake with pendingOrigin := some (.softFire m) } })) hr hp ?_),
      updPort_sameBut _ p _, State.updPort_port_self _ p _⟩
    rw [← fireUnsequenced_of_room (s := s.taken m) hup hroom]
    simp only [optWithin_iff.2 hex, taken_port, hseq, hup, hin, ne_eq, not_true_eq_false, Bool.not_true, Bool.false_eq_true, if_false]
  · refine congrArg Host.Outcome.next ((takeRequest_of_reaches_fits hr hpol).trans ?_)
    obtain hn | ⟨v, hv, hgt⟩ := hbad
    · rw [lineOf_eq_none hn]
      rfl
    · rw [optWithin_eq_false hv (.inr hgt)]
      cases lineOf n <;> rfl
  · have hin : optWithin 0 255 set.route = true := optWithin_iff.2 fun v hv => ⟨Nat.zero_le _, hroute v hv⟩
    have hset : ((s.taken .C).updLine l (fun r => { r with settings := r.settings.replaced set })).lines.get l =
        { s.lines.get l with settings := new } := by
      rw [State.updLine_line_self, hnew, hold, ← replaced_eq _ _ hpol]
      rfl
    refine ⟨(s.taken .C).updLine l (fun r => { r with settings := r.settings.replaced set }),
      congrArg Host.Outcome.next ((takeRequest_of_reaches_fits hr hpol).trans ?_), ?_⟩
    · rw [hl]
      simp only [hin, Bool.not_true, Bool.false_eq_true, if_false, hset, lineClamps_eq]
    · rw [hnew, hold, ← replaced_eq _ _ hpol]
      rfl

end Sys2Proof.Machine

end


section
/-! PROOFS. The fabric links, the SPI port, notices and replies (10.1 to 10.5). -/

namespace Sys2Proof.Machine

variable {s t u : State} {p q : Port} {m : Master} {e : RequestEntry} {n : Nat} {r : MasterRec} {l : List Byte}
  {sound fits edge : Bool}

/-- A change of one master's record: what it leaves, and what it makes of the record. -/
theorem next_updMaster {f : MasterRec → MasterRec} {o : Outcome} (h : o = .next (s.updMaster m f)) :
    ∃ t, o = .next t ∧ SameButMasters s t ∧ (∀ x : Master, x ≠ m → t.master x = s.master x) ∧
      t.master m = (f (s.master m)).refreshed m :=
  ⟨_, h, updMaster_same .., fun _ hx => State.updMaster_master_of_ne _ f (Ne.symm hx), State.updMaster_master_self ..⟩

/-! ## Records arriving on a fabric link (R188, R189, R203) -/

theorem parseHeader_eq (h : 8 ≤ l.length) :
    parseHeader l = some ⟨byteAt l 0, byteAt l 1, wordAt l 2, wordAt l 4, byteAt l 6, byteAt l 7⟩ :=
  if_neg (Nat.not_lt.mpr h)

/-- The entry a sound header makes, its mark as a proposition (R192, R203). -/
theorem entry_eq (h : Header) (fields : List Byte) :
    h.entry fields fits = { tag := h.tag, kind := h.kind
                            malformed := decide (h.credit ≠ 0 ∨ h.part ≠ 0 ∨ fieldsMatch h.kind fields fits = false)
                            waiting := true, fields := fields } := by
  have : (h.credit != 0 || h.part != 0 || !fieldsMatch h.kind fields fits) =
      decide (h.credit ≠ 0 ∨ h.part ≠ 0 ∨ fieldsMatch h.kind fields fits = false) := by
    rw [Bool.eq_iff_iff]
    simp [or_assoc]
  simp [Header.entry, this]

theorem enqueue_of_room {x : RequestEntry} (h : r.requests.length < 8) :
    r.enqueue x = { r with requests := r.requests ++ [x] } := if_neg (Nat.not_le.mpr h)

theorem enqueue_of_full {x : RequestEntry} (h : 8 ≤ r.requests.length) : r.enqueue x = r.countProtocol := if_pos h

/-- Counting the credit as due changes that mark alone (R189). -/
theorem noteCredit_eq (r : MasterRec) : r.noteCredit = { r with creditDue := r.noteCredit.creditDue } := by
  unfold MasterRec.noteCredit
  split <;> rfl

theorem fabricRecord_framing
    (h : sound = false ∨ l.length < 8 ∨ 1 < byteAt l 0 ∨ wordAt l 4 ≠ l.length) :
    r.fabricRecord l sound fits = r.countFraming := by
  unfold MasterRec.fabricRecord
  cases sound with
  | false => rfl
  | true =>
    by_cases hshort : l.length < 8
    · simp [parseHeader, hshort]
    · have hbad : 1 < byteAt l 0 ∨ wordAt l 4 ≠ l.length := by simpa [hshort] using h
      simp only [parseHeader_eq (Nat.not_lt.mp hshort), Bool.not_true, Bool.false_eq_true, if_false, if_pos hbad]

theorem fabricRecord_empty (hs : sound = true) (hl : 8 ≤ l.length) (hf : byteAt l 0 = 0) (hw : wordAt l 4 = l.length) :
    r.fabricRecord l sound fits = r := by
  simp [MasterRec.fabricRecord, hs, parseHeader_eq hl, hf, hw]

/-- The entry a REQUEST record's bytes make (R192, R203). -/
def entryOf (l fields : List Byte) (fits : Bool) : RequestEntry :=
  { tag := wordAt l 2, kind := byteAt l 1
    malformed := decide (byteAt l 6 ≠ 0 ∨ byteAt l 7 ≠ 0 ∨ fieldsMatch (byteAt l 1) fields fits = false)
    waiting := true, fields := fields }

theorem fabricRecord_request (hs : sound = true) (hl : 8 ≤ l.length) (hf : byteAt l 0 = 1) (hw : wordAt l 4 = l.length) :
    r.fabricRecord l sound fits = (r.enqueue (entryOf l (l.drop 8) fits)).noteCredit := by
  simp [MasterRec.fabricRecord, hs, parseHeader_eq hl, hf, hw, entry_eq, Header.fieldsOf, entryOf]

/-- A record that arrives leaves the outbound queues alone. -/
theorem fabricRecord_outbound (r : MasterRec) : (r.fabricRecord l sound fits).replies = r.replies ∧
    (r.fabricRecord l sound fits).notices = r.notices ∧ (r.fabricRecord l sound fits).fetchOut = r.fetchOut := by
  have henqueue : ∀ x, (r.enqueue x).replies = r.replies ∧ (r.enqueue x).notices = r.notices ∧
      (r.enqueue x).fetchOut = r.fetchOut := fun x => by
    unfold MasterRec.enqueue
    split <;> exact ⟨rfl, rfl, rfl⟩
  by_cases hbad : sound = false ∨ l.length < 8 ∨ 1 < byteAt l 0 ∨ wordAt l 4 ≠ l.length
  · rw [fabricRecord_framing hbad]
    exact ⟨rfl, rfl, rfl⟩
  · simp only [not_or, Nat.not_lt, ne_eq, Classical.not_not] at hbad
    obtain ⟨hs, hl, hf, hw⟩ := hbad
    have hs : sound = true := by simpa using hs
    by_cases h0 : byteAt l 0 = 0
    · simp [fabricRecord_empty hs hl h0 hw]
    · rw [fabricRecord_request hs hl (by omega) hw, noteCredit_eq]
      exact henqueue _

/-! ## Messages sent on a fabric link (R189, R195, R197) -/

theorem beginNext_requests (r : MasterRec) : r.beginNext.requests = r.requests := by
  unfold MasterRec.beginNext
  split
  · rfl
  · split <;> rfl

theorem beginNext_credit (h : r.creditDue = true) : r.beginNext = r.begins .credit := if_pos h

theorem beginNext_reply {x : ReplyRecord} {rest} (h : r.creditDue = false) (hr : r.replies = x :: rest) :
    r.beginNext = { r with replies := rest }.begins (.reply x true) := by
  simp [MasterRec.beginNext, h, hr]

theorem beginNext_notice {x : Notice} {rest} (h : r.creditDue = false) (hr : r.replies = []) (hn : r.notices = x :: rest) :
    r.beginNext = { r with notices := rest, overrun := false }.begins (.notice x r.overrun) := by
  simp [MasterRec.beginNext, h, hr, hn]

theorem beginNext_fetch {x : FetchMsg} {rest} (h : r.creditDue = false) (hr : r.replies = []) (hn : r.notices = [])
    (hf : r.fetchOut = x :: rest) : r.beginNext = { r with fetchOut := rest }.begins (.fetch x) := by
  simp [MasterRec.beginNext, h, hr, hn, hf]

theorem sent_of_reply {x : Sending} {y : ReplyRecord} (h : r.sending = some x) (hx : x.msg = .reply y true) :
    r.sent = { r with sending := none, requests := r.requests.drop 1 }.noteCredit := by
  simp [MasterRec.sent, h, hx]

theorem sent_of_other {x : Sending} (h : r.sending = some x) (hx : ∀ y, x.msg ≠ .reply y true) :
    r.sent = { r with sending := none }.noteCredit := by
  unfold MasterRec.sent
  rw [h]
  dsimp only
  split
  · rename_i y hy
    exact absurd hy (hx y)
  · rfl

/-- What a message sent whole leaves, whichever it was. -/
theorem sent_outbound {x : Sending} (h : r.sending = some x) :
    r.sent.sending = none ∧ r.sent.replies = r.replies ∧ r.sent.notices = r.notices := by
  by_cases hx : ∃ y, x.msg = .reply y true
  · obtain ⟨y, hy⟩ := hx
    rw [sent_of_reply h hy, noteCredit_eq]
    exact ⟨rfl, rfl, rfl⟩
  · rw [sent_of_other h (not_exists.mp hx), noteCredit_eq]
    exact ⟨rfl, rfl, rfl⟩

/-- Settles O56. -/
theorem fabricLinksCarryRecords : Obligations.FabricLinksCarryRecords := by
  refine fun s a => ⟨fun record sound fits => ⟨fun ha => ?_, fun ha => ?_⟩, fun hbusy => ?_, fun r hr ha hs => ?_, fun x hx => ?_⟩
  · simp [exec, execFabricRecordArrival, ha]
  · obtain ⟨t, hnext, hsame, hothers, hrec⟩ := next_updMaster (s := s) (m := a.master)
      (f := MasterRec.fabricRecord record sound fits) (o := exec (.fabricRecordArrival a record sound fits) s)
      (by simp [exec, execFabricRecordArrival, ha])
    obtain ⟨hreplies, hnotices, hfetch⟩ := fabricRecord_outbound (l := record) (sound := sound) (fits := fits) (s.master a.master)
    refine ⟨t, hnext, hsame, hothers, by rw [hrec]; exact hreplies, by rw [hrec]; exact hnotices, by rw [hrec]; exact hfetch,
      fun hbad => ?_, fun h1 h2 h3 h4 => ?_, fun h1 h2 h3 h4 => ?_⟩
    · rw [hrec, fabricRecord_framing hbad]
      exact ⟨rfl, rfl, fun h => by simp [MasterRec.countFraming, satInc_eq, h]⟩
    · rw [hrec, fabricRecord_request h1 h2 h3 h4, noteCredit_eq]
      refine ⟨?_, fun hroom => ?_, fun hfull => ?_⟩
      · show ((s.master a.master).enqueue _).framingErrors = _
        unfold MasterRec.enqueue
        split <;> rfl
      · rw [enqueue_of_room hroom]
        exact ⟨rfl, rfl⟩
      · rw [enqueue_of_full hfull]
        exact ⟨rfl, fun h => by simp [MasterRec.countProtocol, satInc_eq, h]⟩
    · rw [hrec, fabricRecord_empty h1 h2 h3 h4]
      rfl
  · have : ¬ ((s.master a.master).attached = true ∧ (s.master a.master).sending = none) := by
      rcases hbusy with h | h <;> simp [h]
    exact congrArg Host.Outcome.next (if_neg this)
  · subst hr
    obtain ⟨t, hnext, hsame, hothers, hrec⟩ := next_updMaster (s := s) (m := a.master) (f := MasterRec.beginNext)
      (o := exec (.outboundSendStart a) s) (congrArg Host.Outcome.next (if_pos ⟨ha, hs⟩))
    refine ⟨t, hnext, hsame, hothers, by rw [hrec]; exact beginNext_requests _, fun hc => ?_, fun x rest hc hx => ?_,
      fun x rest hc hr hx => ?_, fun x rest hc hr hn hx => ?_⟩
    · rw [hrec, beginNext_credit hc]
      exact ⟨rfl, rfl, rfl, rfl⟩
    · rw [hrec, beginNext_reply hc hx]
      exact ⟨rfl, rfl, rfl, rfl⟩
    · rw [hrec, beginNext_notice hc hr hx]
      exact ⟨rfl, rfl, rfl, rfl⟩
    · rw [hrec, beginNext_fetch hc hr hn hx]
      exact ⟨rfl, rfl⟩
  · obtain ⟨t, hnext, hsame, hothers, hrec⟩ := next_updMaster (s := s) (m := a.master) (f := MasterRec.sent)
      (o := exec (.outboundSendComplete a) s) (congrArg Host.Outcome.next (if_pos (by simp [hx])))
    obtain ⟨hsending, hreplies, hnotices⟩ := sent_outbound hx
    refine ⟨t, hnext, hsame, hothers, by rw [hrec]; exact hsending, by rw [hrec]; exact hreplies, by rw [hrec]; exact hnotices,
      fun y hy => ?_, fun hy => ?_⟩
    · rw [hrec, sent_of_reply hx hy, noteCredit_eq]
      rfl
    · rw [hrec, sent_of_other hx hy, noteCredit_eq]
      rfl

/-! ## Transactions of the SPI port (R190, R191, R198) -/

/-- R190: a transaction whose bytes hold a whole record of a length the port takes. -/
def wholeRecord (l : List Byte) (edge : Bool) : Prop :=
  8 ≤ l.length ∧ 8 ≤ wordAt l 4 ∧ wordAt l 4 ≤ 256 ∧ edge = true ∧ wordAt l 4 ≤ l.length

theorem spiRecord_framing {x : SpiTxn} (h : ¬ (wholeRecord l edge ∧ byteAt l 0 ≤ 1)) :
    r.spiRecord l edge fits x = r.countFraming := by
  unfold MasterRec.spiRecord
  by_cases hl : l.length < 8
  · simp [parseHeader, hl]
  · rw [parseHeader_eq (Nat.not_lt.mp hl)]
    refine if_pos ?_
    cases edge with
    | false => exact .inr (.inr (.inl rfl))
    | true =>
      simp only [wholeRecord, Config.spiRecordBytes, true_and] at h ⊢
      omega

/-- What a whole record of a known format does: nothing where it is EMPTY, and a REQUEST enters the queue unless that was
full at the fall of select. -/
theorem spiRecord_whole {x : SpiTxn} (h : wholeRecord l edge) (hf : byteAt l 0 ≤ 1) :
    r.spiRecord l edge fits x = if byteAt l 0 = 0 then r else if x.queueFull then r.countProtocol
      else r.enqueue (entryOf l ((l.take (wordAt l 4)).drop 8) fits) := by
  obtain ⟨hl, h8, h256, hedge, hshort⟩ := h
  unfold MasterRec.spiRecord
  rw [parseHeader_eq hl]
  have hok : ¬ (wordAt l 4 < 8 ∨ Config.spiRecordBytes < wordAt l 4 ∨ edge = false ∨ l.length < wordAt l 4 ∨ 1 < byteAt l 0) := by
    simp only [Config.spiRecordBytes, hedge, Bool.true_eq_false, false_or]
    omega
  simp only [if_neg hok, entry_eq]
  rfl

/-- R190, R203: the record of a transaction changes the request queue and the two error counts, in one of four ways. -/
theorem spiRecord_eq {x : SpiTxn} {taken : List RequestEntry} {protocol framing : Nat}
    (h : (¬ (wholeRecord l edge ∧ byteAt l 0 ≤ 1) ∧ taken = r.requests ∧ protocol = r.protocolErrors ∧
        framing = (if r.framingErrors < 4294967295 then r.framingErrors + 1 else r.framingErrors)) ∨
      (wholeRecord l edge ∧ byteAt l 0 = 0 ∧ taken = r.requests ∧ protocol = r.protocolErrors ∧ framing = r.framingErrors) ∨
      (wholeRecord l edge ∧ byteAt l 0 = 1 ∧ x.queueFull = false ∧ r.requests.length < 8 ∧
        taken = r.requests ++ [entryOf l ((l.take (wordAt l 4)).drop 8) fits] ∧
        protocol = r.protocolErrors ∧ framing = r.framingErrors) ∨
      (wholeRecord l edge ∧ byteAt l 0 = 1 ∧ (x.queueFull = true ∨ 8 ≤ r.requests.length) ∧ taken = r.requests ∧
        protocol = (if r.protocolErrors < 4294967295 then r.protocolErrors + 1 else r.protocolErrors) ∧
        framing = r.framingErrors)) :
    r.spiRecord l edge fits x = { r with requests := taken, protocolErrors := protocol, framingErrors := framing } := by
  rcases h with ⟨hbad, rfl, rfl, rfl⟩ | ⟨hw, h0, rfl, rfl, rfl⟩ | ⟨hw, h1, hroom, hl, rfl, rfl, rfl⟩ |
    ⟨hw, h1, hfull, rfl, rfl, rfl⟩
  · rw [spiRecord_framing hbad]
    rfl
  · rw [spiRecord_whole hw (by omega), if_pos h0]
  · rw [spiRecord_whole hw (by omega), if_neg (by omega), hroom, enqueue_of_room hl]
    rfl
  · rw [spiRecord_whole hw (by omega), if_neg (by omega)]
    cases hq : x.queueFull with
    | true => rfl
    | false =>
      rw [enqueue_of_full (by simpa [hq] using hfull)]
      rfl

/-- A transaction whose head item stays, or that had none. -/
theorem closeTxn_kept {x : SpiTxn} {out : Bool} (hx : r.spi = some x) (h : out = false ∨ x.headQueued = false ∨ x.head = .empty) :
    r.closeTxn l edge out fits = { r.spiRecord l edge fits x with spi := none } := by
  rcases h with h | h | h <;> simp [MasterRec.closeTxn, MasterRec.consume, hx, h]

theorem closeTxn_reply {x : SpiTxn} {y : ReplyRecord} (hx : r.spi = some x) (hq : x.headQueued = true) (hy : x.head = .reply y) :
    r.closeTxn l edge true fits = { r.spiRecord l edge fits x with
      spi := none, replies := (r.spiRecord l edge fits x).replies.drop 1
      requests := if y.lastPart then (r.spiRecord l edge fits x).requests.drop 1 else (r.spiRecord l edge fits x).requests } := by
  simp [MasterRec.closeTxn, MasterRec.consume, hx, hq, hy]

theorem closeTxn_notice {x : SpiTxn} {y : Notice} {mark : Bool} (hx : r.spi = some x) (hq : x.headQueued = true)
    (hy : x.head = .notice y mark) :
    r.closeTxn l edge true fits = { r.spiRecord l edge fits x with
      spi := none, notices := (r.spiRecord l edge fits x).notices.drop 1
      overrun := (r.spiRecord l edge fits x).overrun && (!mark || x.overflowed) } := by
  simp [MasterRec.closeTxn, MasterRec.consume, hx, hq, hy]

theorem headItem_of_reply {y : ReplyRecord} {rest} (h : r.replies = y :: rest) : r.headItem = .reply y := by
  simp [MasterRec.headItem, h]

theorem headItem_of_notice {y : Notice} {rest} (h : r.replies = []) (hn : r.notices = y :: rest) :
    r.headItem = .notice y r.overrun := by
  simp [MasterRec.headItem, h, hn]

theorem headItem_of_none (h : r.replies = []) (hn : r.notices = []) : r.headItem = .empty := by
  simp [MasterRec.headItem, h, hn]

/-- The number of a kind in a mask's list (R198, R202). -/
theorem enabled_ofList (k : List Nat) (kind : NoticeKind) : (NoticeMask.ofList k).enabled kind = k.contains kind.code := by
  cases kind <;> rfl

theorem maskFits_of {enabled : Option (List Nat)} (h : ∀ k, enabled = some k → ∀ i ∈ k, 1 ≤ i ∧ i ≤ 10) :
    maskFits enabled = true := by
  cases enabled with
  | none => rfl
  | some k =>
    have := h k rfl
    simpa [maskFits, within, List.all_eq_true] using this

/-- R198: what SET_NOTICE_MASK makes of its master's record. -/
def MasterRec.masked (enabled : Option (List Nat)) (w : Option Nat) (r : MasterRec) : MasterRec :=
  { r with mask := (enabled.map NoticeMask.ofList).getD r.mask, watermark := (w.map (clampTo 1 32)).getD r.watermark }

theorem maskAnswer_congr {r u : MasterRec} {c k : List (Nat × Nat)} (h : r = u) (hc : c = k) :
    Answer.mk .done c (.mask r.mask r.watermark) = Answer.mk .done k (.mask u.mask u.watermark) := by
  rw [h, hc]

/-- Settles O58. -/
theorem spiTransactionsAndMasks : Obligations.SpiTransactionsAndMasks := by
  refine fun s r hr => ⟨fun hnone => ?_, fun x mosi edge out fits hx => ?_, fun m e l w hreach hfits => ?_⟩
  · subst hr
    obtain ⟨t, hnext, hsame, hothers, hrec⟩ := next_updMaster (s := s) (m := .C) (f := MasterRec.openTxn)
      (o := exec .spiSelectFall s) (congrArg Host.Outcome.next (if_neg (by simp [hnone])))
    refine ⟨t, _, hnext, hsame, hothers, by rw [hrec]; rfl, by rw [hrec]; rfl, by rw [hrec]; rfl, by rw [hrec]; rfl, rfl, rfl, rfl,
      fun y rest h => ?_, fun y rest h hn => ?_, fun h hn => ?_⟩
    · simp [MasterRec.newTxn, headItem_of_reply h]
    · simp [MasterRec.newTxn, headItem_of_notice h hn]
    · simp [MasterRec.newTxn, headItem_of_none h hn]
  · subst hr
    obtain ⟨t, hnext, hsame, hothers, hrec⟩ := next_updMaster (s := s) (m := .C) (f := MasterRec.closeTxn mosi edge out fits)
      (o := exec (.spiSelectRise mosi edge out fits) s) (congrArg Host.Outcome.next (if_pos (by simp [hx])))
    refine ⟨t, hnext, hsame, hothers, by simp [hrec, MasterRec.closeTxn, hx], ?_⟩
    rintro taken protocol framing - rfl hcase
    have hspi := spiRecord_eq (r := s.master .C) hcase
    rw [hrec]
    by_cases hkept : out = false ∨ x.headQueued = false ∨ x.head = .empty
    · rw [closeTxn_kept hx hkept, hspi]
      refine ⟨rfl, fun _ => ⟨rfl, rfl, rfl, rfl⟩, fun y h1 h2 h3 => ?_, fun y mark h1 h2 h3 => ?_⟩ <;>
        simp [h1, h2, h3] at hkept
    · simp only [not_or, Bool.not_eq_false] at hkept
      obtain ⟨rfl, hq, hhead⟩ := hkept
      cases hy : x.head with
      | empty => exact absurd hy hhead
      | reply y =>
        rw [closeTxn_reply hx hq hy, hspi]
        refine ⟨rfl, fun h => by simp [hq] at h, fun z _ _ hz => ?_, fun z mark _ _ hz => by cases hz⟩
        cases hz
        exact ⟨rfl, rfl, rfl, rfl⟩
      | notice y mark =>
        rw [closeTxn_notice hx hq hy, hspi]
        refine ⟨rfl, fun h => by simp [hq] at h, fun z _ _ hz => ?_, fun z mark' _ _ hz => ?_⟩
        · cases hz
        · cases hz
          exact ⟨rfl, rfl, rfl, by simp⟩
  · have hmaster := State.updMaster_master_self (s := s.taken m) m (MasterRec.masked l w)
    have htaken : (s.taken m).master m = _ := State.updMaster_master_self ..
    rw [htaken] at hmaster
    refine ⟨(s.taken m).updMaster m (MasterRec.masked l w), (l.map NoticeMask.ofList).getD (s.master m).mask,
      (w.map (clampTo 1 32)).getD (s.master m).watermark, ?_, (taken_same s m).trans (updMaster_same ..), fun x hx => ?_,
      by rw [hmaster]; rfl, by rw [hmaster]; rfl, by rw [hmaster]; rfl, ?_, ?_, ?_⟩
    · refine congrArg Host.Outcome.next ((takeRequest_of_reaches_fits hreach (maskFits_of hfits)).trans ?_)
      dsimp only
      congr 1
      refine maskAnswer_congr hmaster ?_
      cases w with
      | none => rfl
      | some v => exact clampEntry_eq (by omega)
    · rw [State.updMaster_master_of_ne _ _ hx.symm]
      exact State.updMaster_master_of_ne _ _ hx.symm
    · cases w with
      | none => rfl
      | some v => exact clampTo_eq (by omega) v
    · rintro rfl
      rfl
    · rintro k rfl kind
      rw [Option.map_some, Option.getD_some, enabled_ofList]
      cases kind <;> rfl

/-! ## Notices offered (R188, R194, R195) -/

theorem notify_master_self {urgent : Bool} {body : NoticeBody} :
    (s.notify m urgent body).master m = ((s.master m).offer ⟨urgent, s.now, body⟩).refreshed m :=
  State.updMaster_master_self ..

theorem offer_refreshed_eq (x : Notice) (r : MasterRec) (m : Master) : (r.offer x).refreshed m =
    { r with notices := (r.offer x).notices, overrun := (r.offer x).overrun, spi := (r.offer x).spi
             attention := ((r.offer x).refreshed m).attention } := by
  unfold MasterRec.offer
  repeat' split
  all_goals rfl

theorem offer_of_masked {x : Notice} (h : r.attached = false ∨ (x.urgent = false ∧ r.mask.enabled x.body.kind = false)) :
    r.offer x = r := by
  rcases h with h | ⟨hu, hm⟩
  · exact offer_of_detached x r h
  · simp [MasterRec.offer, hu, hm]

/-- R195: what a full queue makes of a notice offered to it. -/
theorem offer_of_full {x : Notice} (ha : r.attached = true) (hm : x.urgent = true ∨ r.mask.enabled x.body.kind = true)
    (hl : 32 ≤ r.notices.length) :
    ∃ headTaken, r.offer x = { r with
      notices := if x.urgent && r.notices.any (fun y => !y.urgent) then dropRoutine r.notices ++ [x] else r.notices
      overrun := true, spi := r.spi.map (SpiTxn.overflow headTaken) } := by
  have hpass : (!x.urgent && !r.mask.enabled x.body.kind) = false := by rcases hm with h | h <;> simp [h]
  simp only [MasterRec.offer, ha, hpass, Config.noticeEntries, if_neg (Nat.not_lt.mpr hl), Bool.not_true, Bool.false_eq_true,
    if_false]
  split
  · exact ⟨headRoutine r.notices, rfl⟩
  · exact ⟨false, rfl⟩

theorem overflow_overflowed (headTaken : Bool) (x : SpiTxn) : (x.overflow headTaken).overflowed = true := by
  unfold SpiTxn.overflow
  split <;> rfl

/-- R195: the notice displaced is the oldest routine one. -/
theorem dropRoutine_append {x : Notice} (rest : List Notice) (hx : x.urgent = false) :
    ∀ kept : List Notice, (∀ y ∈ kept, y.urgent = true) → dropRoutine (kept ++ x :: rest) = kept ++ rest
  | [], _ => by simp [dropRoutine, hx]
  | y :: kept, h => by
    have ih := dropRoutine_append rest hx kept (fun z hz => h z (List.mem_cons_of_mem _ hz))
    simp [dropRoutine, h y List.mem_cons_self, ih]

theorem notifyAll_master {urgent : Bool} {body : NoticeBody} (s : State) (m : Master) :
    (s.notifyAll urgent body).master m = (s.notify m urgent body).master m := by
  have hne : ∀ (v : State) {x y : Master}, x ≠ y → (v.notify x urgent body).master y = v.master y := fun v x y h =>
    notify_master_of_ne v urgent body h
  unfold State.notifyAll
  cases m with
  | A => rw [hne _ (by decide), hne _ (by decide)]
  | B =>
    rw [hne _ (by decide), notify_master_self, hne _ (by decide), notify_master_self]
    rfl
  | C =>
    rw [notify_master_self, hne _ (by decide), hne _ (by decide), notify_master_self]
    rfl

/-! ## The parts of a reply (R192, R205) -/

theorem reply_master_self {a : Answer} : (s.reply m e a).master m =
    ({ s.master m with replies := (s.master m).replies ++ replyParts (decide (m = Master.C)) (replyTo e a) }).refreshed m :=
  State.updMaster_master_self ..

/-- Runs of `per` entries, one after the other, are the entries up to their end. -/
theorem flatMap_slices {α : Type} (l : List α) (per : Nat) :
    ∀ n, (List.range n).flatMap (fun i => (l.drop (i * per)).take per) = l.take (n * per)
  | 0 => by simp
  | n + 1 => by
    rw [List.range_succ, List.flatMap_append, flatMap_slices l per n, Nat.succ_mul, List.take_add]
    simp

/-- One of the `n` parts of a reply, of `per` listed entries each (R205). -/
def ReplyRecord.partAt (x : ReplyRecord) (per n i : Nat) : ReplyRecord :=
  { x with body := x.body.slice (i * per) per, part := i, lastPart := decide (i + 1 = n) }

theorem le_ceilDiv_mul (a : Nat) {b : Nat} (h : 0 < b) : a ≤ ceilDiv a b * b := by
  unfold ceilDiv
  have h1 := Nat.div_add_mod (a + b - 1) b
  have h2 := Nat.mod_lt (a + b - 1) h
  rw [Nat.mul_comm] at h1
  omega

/-- R205: a reply is one record, or a run of parts that hold all its entries. -/
theorem replyParts_cases (onC : Bool) (x : ReplyRecord) :
    replyParts onC x = [x] ∨ ∃ per n, 0 < n ∧ x.body.listed.1 ≤ n * per ∧
      replyParts onC x = (List.range n).map (x.partAt per n) := by
  unfold replyParts
  dsimp only
  split
  · exact .inl rfl
  · rename_i hcount
    split
    · exact .inl rfl
    · generalize hper : max 1 ((Config.spiRecordBytes - (10 + x.clamped.length + fixedBytes x.kind)) / x.body.listed.2) = per
      have hpos : 0 < per := by omega
      have hall := le_ceilDiv_mul x.body.listed.1 hpos
      refine .inr ⟨per, ceilDiv x.body.listed.1 per, ?_, hall, rfl⟩
      have hlisted : x.body.listed.1 ≠ 0 := by
        simp only [Bool.or_eq_true, beq_iff_eq, not_or] at hcount
        exact hcount.2
      rcases Nat.eq_zero_or_pos (ceilDiv x.body.listed.1 per) with h0 | h0
      · rw [h0] at hall
        omega
      · exact h0

/-- What every part says of its request and its place. -/
theorem replyParts_getElem {onC : Bool} {a : Answer} {i : Nat} {x : ReplyRecord}
    (h : (replyParts onC (replyTo e a))[i]? = some x) :
    x.tag = e.tag ∧ x.kind = e.kind ∧ x.result = a.result ∧ x.clamped = a.clamped ∧ x.part = i ∧
      (x.lastPart = true ↔ i + 1 = (replyParts onC (replyTo e a)).length) := by
  rcases replyParts_cases onC (replyTo e a) with hone | ⟨per, n, -, -, hmany⟩
  · rw [hone] at h ⊢
    obtain ⟨rfl, rfl⟩ : i = 0 ∧ replyTo e a = x := by
      cases i with
      | zero => simpa using h
      | succ i => simp at h
    exact ⟨rfl, rfl, rfl, rfl, rfl, by simp [replyTo]⟩
  · rw [hmany] at h ⊢
    obtain ⟨hi, rfl⟩ : i < n ∧ (replyTo e a).partAt per n i = x := by
      rw [List.getElem?_map] at h
      by_cases hi : i < n
      · exact ⟨hi, by simpa [hi] using h⟩
      · simp [hi] at h
    exact ⟨rfl, rfl, rfl, rfl, rfl, by simp [ReplyRecord.partAt]⟩

/-- The entries of a reply's parts, put together, are the entries of the reply. -/
theorem replyParts_entries {α : Type} {onC : Bool} {x : ReplyRecord} {get : ReplyRecord → List α} {l : List α}
    (hwhole : get x = l) (hpart : ∀ per n i, get (x.partAt per n i) = (l.drop (i * per)).take per)
    (hl : x.body.listed.1 = l.length) : (replyParts onC x).flatMap get = l := by
  rcases replyParts_cases onC x with hone | ⟨per, n, -, hall, hmany⟩
  · rw [hone, List.flatMap_singleton, hwhole]
  · rw [hmany, List.flatMap_map]
    simp only [hpart]
    rw [flatMap_slices, List.take_of_length_le (by omega)]

/-- R205's example: LIST_FRAMES on the cell port, four entries a part. -/
theorem replyParts_frames {x : ReplyRecord} {f : ListFigures} {l : List ListEntry} (hk : x.kind = 14) (hc : x.clamped = [])
    (hb : x.body = .frames f l) :
    replyParts true x = if l.length ≤ 4 then [x] else (List.range ((l.length + 3) / 4)).map (x.partAt 4 ((l.length + 3) / 4)) := by
  have hfixed : fixedBytes 14 = 12 := rfl
  obtain ⟨_, _, _, _, _, _, _⟩ := x
  cases hk
  cases hc
  cases hb
  simp only [replyParts, hfixed, ReplyBody.listed, Config.spiRecordBytes, List.length_nil, Bool.not_true, Bool.false_or]
  by_cases hl : l.length ≤ 4
  · rw [if_pos hl]
    split
    · rfl
    · rw [if_pos (by omega)]
  · rw [if_neg hl, if_neg (by rw [beq_iff_eq]; omega), if_neg (by omega)]
    rfl

/-- Settles O59. -/
theorem noticesAreOfferedAndRepliesFormed : Obligations.NoticesAreOfferedAndRepliesFormed := by
  refine ⟨?_, fun s m urgent body => ⟨notifyAll_same .., notifyAll_master s m⟩, ?_⟩
  · rintro s t m urgent enabled body r u rfl rfl rfl hen
    have hen : enabled = (s.master m).mask.enabled body.kind := by
      rw [hen]
      cases body <;> rfl
    subst hen
    rw [notify_master_self]
    refine ⟨notify_same .., fun x hx => notify_master_of_ne s urgent body hx.symm, ?_, fun hno => ?_, fun ha hm => ⟨fun hl => ?_, fun hl => ?_⟩⟩
    · exact offer_refreshed_eq ..
    · rw [offer_of_masked hno]
      exact ⟨rfl, rfl, rfl⟩
    · rw [offer_of_room _ _ ha hm hl]
      exact ⟨rfl, rfl, rfl⟩
    · obtain ⟨b, hb⟩ := offer_of_full (x := ⟨urgent, s.now, body⟩) ha hm hl
      rw [hb]
      refine ⟨rfl, fun x hx => ⟨x.overflow b, by simp [hx], overflow_overflowed ..⟩, fun kept x rest hu hn hkept hx => ?_, fun hno => ?_⟩
      · subst hu
        have hany : (s.master m).notices.any (fun y => !y.urgent) = true := by simp [hn, hx]
        refine (if_pos (by rw [hany]; rfl)).trans ?_
        rw [hn, dropRoutine_append rest hx kept hkept]
      · have hnone : (urgent && (s.master m).notices.any (fun y => !y.urgent)) = false := by
          rcases hno with h | h
          · simp [h]
          · simp only [Bool.and_eq_false_iff, List.any_eq_false]
            exact .inr fun y hy => by simp [h y hy]
        simp [hnone]
  · rintro s t m e a rfl
    rw [reply_master_self]
    refine ⟨reply_same .., fun x hx => State.updMaster_master_of_ne _ _ hx.symm, rfl, _, ?_, rfl, fun hm => ?_,
      fun i x hx => replyParts_getElem hx, fun f l hb => ⟨?_, fun hm hk hc => ?_⟩, fun r hb => ?_, fun ctx l h im hb => ?_⟩
    · rcases replyParts_cases (decide (m = .C)) (replyTo e a) with hone | ⟨per, n, hn, -, hmany⟩
      · simp [hone]
      · simp [hmany, Nat.ne_of_gt hn]
    · rw [decide_eq_false hm, replyParts_fabric]
      rfl
    · obtain ⟨_, _, _⟩ := a
      cases hb
      exact replyParts_entries rfl (fun _ _ _ => rfl) rfl
    · obtain ⟨_, _, _⟩ := a
      cases hb
      cases hc
      rw [decide_eq_true hm, replyParts_frames (x := replyTo e _) hk rfl rfl]
      refine ⟨fun hl => if_pos hl, fun hl => ?_⟩
      rw [if_neg (by omega)]
      refine List.map_congr_left fun i _ => ?_
      rw [Nat.mul_comm 4 i]
      rfl
    · obtain ⟨_, _, _⟩ := a
      cases hb
      exact replyParts_entries rfl (fun _ _ _ => rfl) rfl
    · obtain ⟨_, _, _⟩ := a
      cases hb
      exact replyParts_entries rfl (fun _ _ _ => rfl) rfl

end Sys2Proof.Machine

end


section
/-! PROOFS. Lens control (chapter 6): holds, moves, stops, reports and stalls. -/

namespace Sys2Proof.Machine

variable {s t u : State} {p q : Port} {m : Master} {e : RequestEntry} {n : Nat}

/-! ## Holds (R126 to R128) -/

theorem heldByOther_iff {l : LensRec} : l.heldByOther m = true ↔ ∃ h, l.holder = some h ∧ h ≠ m := by
  unfold LensRec.heldByOther
  cases l.holder <;> simp

theorem heldByOther_eq_false {l : LensRec} : l.heldByOther m = false ↔ l.holder = none ∨ l.holder = some m := by
  unfold LensRec.heldByOther
  cases l.holder <;> simp

theorem updLens_eq (s : State) (p : Port) (f : LensRec → LensRec) :
    s.updLens p f = s.updPort p (fun r => { r with lens := f r.lens }) := rfl

theorem updSeq_eq (s : State) (p : Port) (f : SeqCtx → SeqCtx) :
    s.updSeq p f = s.updPort p (fun r => { r with seq := f r.seq }) := rfl

/-- R128: the end HOLD_LAPSED of a run whose hold has been freed. -/
theorem endRun_holdLapsed (s : State) (p : Port) : ∃ t, (s.updLens p LensRec.freed).endRun p .holdLapsed = t ∧
    SameBut { s with store := t.store, masters := t.masters } t p ∧
    t.port p = { s.port p with
      lens := { (s.port p).lens with holder := none, implicit := false }
      seq := { (s.port p).seq with
        state := .ready, ended := some (.holdLapsed, (s.port p).seq.index.getD 0), index := none, phase := none
        deadline := none, bound := none, reservedPages := 0, reservedRecords := 0, period := 0, cadence := none } } := by
  obtain ⟨hsame, -, hport⟩ := endRun_ended (s.updLens p LensRec.freed) p .holdLapsed {}
  obtain ⟨h0, h1, h2, h3, h4, -, h6, h7, -, h9⟩ := hsame
  have hother : ∀ q, q ≠ p → (s.updLens p LensRec.freed).port q = s.port q := fun q hq => s.updPort_port_of_ne _ (Ne.symm hq)
  refine ⟨_, rfl, ⟨fun q hq => (h0 q hq).trans (hother q hq), h1, h2, h3, h4, rfl, h6, h7, rfl, h9⟩, ?_⟩
  rw [hport, updLens_eq, State.updPort_port_self]
  rfl

/-- Settles O38. -/
theorem lensHoldsAreTakenGivenAndBroken : Obligations.LensHoldsAreTakenGivenAndBroken := by
  refine fun s m e n p hp => ⟨fun hr => ⟨fun h hh hne => ?_, fun hfree => ?_⟩, fun hr => ⟨fun hne => ?_, fun hh ha hs => ?_,
    fun hh ha => ?_⟩, fun hr => ⟨fun hh => ?_, fun h hh => ⟨fun ha => ?_, fun ha => ?_⟩⟩⟩
  · refine congrArg Host.Outcome.next (takeRequest_onPort hr hp ?_)
    have hheld : ((s.taken m).port p).lens.heldByOther m = true := heldByOther_iff.mpr ⟨h, hh, hne⟩
    rw [if_pos hheld]
    simp [State.holdBody, hh]
  · refine ⟨(s.taken m).updLens p (LensRec.heldBy m), congrArg Host.Outcome.next (takeRequest_onPort hr hp ?_),
      updPort_sameBut .., State.updPort_port_self ..⟩
    have hheld : (s.port p).lens.heldByOther m = false := heldByOther_eq_false.mpr hfree
    simp [hheld, State.holdBody, LensRec.heldBy]
  · refine congrArg Host.Outcome.next (takeRequest_onPort hr hp (if_pos hne))
  · refine congrArg Host.Outcome.next (takeRequest_onPort hr hp ?_)
    exact (if_neg (by simpa using hh)).trans (if_pos ⟨ha, hs⟩)
  · refine ⟨(s.taken m).updLens p LensRec.freed, congrArg Host.Outcome.next (takeRequest_onPort hr hp ?_),
      updPort_sameBut .., State.updPort_port_self ..⟩
    refine (if_neg (by simpa using hh)).trans (if_neg ?_)
    rcases ha with h | h <;> simp [h]
  · refine congrArg Host.Outcome.next (takeRequest_onPort hr hp ?_)
    simp [State.breakHold, hh]
  · refine ⟨(s.taken .C).updLens p LensRec.freed, updPort_sameBut .., State.updPort_port_self ..,
      congrArg Host.Outcome.next (takeRequest_onPort hr hp ?_)⟩
    simp [State.breakHold, State.seqHoldLapsed, hh, ha]
  · obtain ⟨t, ht, hsame, hport⟩ := endRun_holdLapsed (s.taken .C) p
    refine ⟨t, hsame, congrArg Host.Outcome.next (takeRequest_onPort hr hp ?_), hport⟩
    simp [State.breakHold, State.seqHoldLapsed, hh, ha, ht]

/-! ## The entries of an axis, and what stands on a lens's axes -/

section
variable {α β γ : Type} {v w : PerAxis α} {x : Axis}

theorem perAxis_ext (h : ∀ x, v.get x = w.get x) : v = w := by
  obtain ⟨a, b, c⟩ := v
  obtain ⟨a', b', c'⟩ := w
  rw [PerAxis.mk.injEq]
  exact ⟨h .focus, h .iris, h .zoom⟩

@[simp] theorem get_zipWith {f : α → β → γ} {k : PerAxis β} : (v.zipWith f k).get x = f (v.get x) (k.get x) := by
  cases x <;> rfl

theorem any_iff {f : α → Bool} : v.any f = true ↔ ∃ x, f (v.get x) = true := by
  unfold PerAxis.any
  simp only [Bool.or_eq_true]
  constructor
  · rintro ((h | h) | h)
    · exact ⟨.focus, h⟩
    · exact ⟨.iris, h⟩
    · exact ⟨.zoom, h⟩
  · rintro ⟨x, h⟩
    cases x with
    | focus => exact .inl (.inl h)
    | iris => exact .inl (.inr h)
    | zoom => exact .inr h

theorem axes_eq (f : α → Bool) (v : PerAxis α) : v.axes f = [Axis.focus, .iris, .zoom].filter (fun x => f (v.get x)) := by
  obtain ⟨a, b, c⟩ := v
  unfold PerAxis.axes
  cases ha : f a <;> cases hb : f b <;> cases hc : f c <;> simp [PerAxis.get, ha, hb, hc]

theorem mem_axes {f : α → Bool} : x ∈ v.axes f ↔ f (v.get x) = true := by
  rw [axes_eq, List.mem_filter]
  cases x <;> simp
end

/-- Whether an entry of a lens's axes is in a motion. -/
theorem motion_iff {a : Option AxisRec} {k : Motion} :
    (a.map (fun x => decide (x.motion = k))).getD false = true ↔ ∃ b, a = some b ∧ b.motion = k := by
  cases a <;> simp

theorem anyMoving_iff {l : LensRec} : l.anyMoving = true ↔ ∃ x a, l.axes.get x = some a ∧ a.motion = .moving := by
  simp only [LensRec.anyMoving, any_iff, motion_iff]

theorem anyMoving_eq_false {l : LensRec} : l.anyMoving = false ↔ ∀ x a, l.axes.get x = some a → a.motion ≠ .moving := by
  rw [← Bool.not_eq_true, anyMoving_iff]
  exact ⟨fun h x a hx hm => h ⟨x, a, hx, hm⟩, fun h ⟨x, a, hx, hm⟩ => h x a hx hm⟩

theorem mem_stalledAxes {l : LensRec} {x : Axis} : x ∈ l.stalledAxes ↔ ∃ a, l.axes.get x = some a ∧ a.motion = .stalled := by
  simp only [LensRec.stalledAxes, mem_axes, motion_iff]

theorem anyStalled_iff {l : LensRec} : l.anyStalled = true ↔ ∃ x a, l.axes.get x = some a ∧ a.motion = .stalled := by
  simp only [← mem_stalledAxes, LensRec.anyStalled]
  cases l.stalledAxes with
  | nil => simp
  | cons x rest => simp

theorem noAxes_iff {l : LensRec} : l.noAxes = true ↔ l.axes = ⟨none, none, none⟩ := by
  have hsome : l.axes.any Option.isSome = true ↔ ¬ l.axes = ⟨none, none, none⟩ := by
    rw [any_iff]
    constructor
    · rintro ⟨x, hx⟩ h
      rw [h] at hx
      cases x <;> cases hx
    · intro h
      refine Classical.byContradiction fun hno => ?_
      rw [not_exists] at hno
      refine h (perAxis_ext fun x => ?_)
      have := hno x
      cases x <;> simpa [PerAxis.get] using this
  rw [LensRec.noAxes, Bool.not_eq_true', ← Bool.not_eq_true, hsome, Classical.not_not]

/-! ## Moves (R130, R131, R136) -/

@[simp] theorem get_movedTargets {l : LensRec} {goto : PerAxis (Option Nat)} {x : Axis} :
    (l.movedTargets goto).get x = if (l.axes.get x).isSome then goto.get x else none := get_zipWith

theorem ignoredAxes_eq (l : LensRec) (goto : PerAxis (Option Nat)) : l.ignoredAxes goto =
    [Axis.focus, .iris, .zoom].filter (fun x => (l.axes.get x).isNone && (goto.get x).isSome) := by
  simp only [LensRec.ignoredAxes, axes_eq, get_zipWith, id]

theorem moveDistance_eq (o : Option Nat) (v : Nat) : moveDistance o v = o.elim 4095 (fun q => max q v - min q v) := by
  cases o with
  | none => rfl
  | some q =>
    simp only [moveDistance, Option.elim_some]
    split <;> omega

/-- R131: a move with an axis of the camera to move. -/
theorem makeMove_eq {goto : PerAxis (Option Nat)} {allowance : Nat} {o : Option Master}
    (hmoved : ∃ x v, ((s.port p).lens.movedTargets goto).get x = some v) (hup : (s.port p).link.state = .up)
    (hroom : (s.port p).waiting.length < 16) :
    s.makeMove p goto allowance o = s.updPort p (fun r => { r with
      waiting := r.waiting ++ [.lensGoto ((s.port p).lens.movedTargets goto)]
      lens := { r.lens with
        axes := r.lens.axes.zipWith (AxisRec.moved s.now allowance) ((s.port p).lens.movedTargets goto), mover := o } }) := by
  have hany : ((s.port p).lens.movedTargets goto).any Option.isSome = true := by
    obtain ⟨x, v, h⟩ := hmoved
    exact any_iff.mpr ⟨x, by rw [h]; rfl⟩
  unfold State.makeMove
  simp only [hany, Bool.not_true, Bool.false_eq_true, if_false, handDown_of_room (.inr hup) hroom, updLens_eq, updPort_updPort]

/-- R131: what the move of a lens does, as the statements put it. -/
theorem makeMove_moves (s : State) (p : Port) (goto : PerAxis (Option Nat)) (allowance : Nat) (o : Option Master)
    (hup : (s.port p).link.state = .up) (hroom : (s.port p).waiting.length < 16) :
    Moves s (s.makeMove p goto allowance o) p goto allowance o := by
  by_cases hmoved : ∃ x v, ((s.port p).lens.movedTargets goto).get x = some v
  · rw [makeMove_eq hmoved hup hroom]
    refine ⟨updPort_sameBut .., (s.port p).lens.movedTargets goto, fun x => get_movedTargets, fun hnone => ?_, fun _ => ?_⟩
    · obtain ⟨x, v, h⟩ := hmoved
      rw [hnone x] at h
      cases h
    · rw [State.updPort_port_self]
      refine ⟨rfl, fun x a ha => ⟨fun hx hm => ?_, fun hx hm => ?_, fun v dist hx _ hd => ?_⟩⟩
      · simp only [get_zipWith, ha, hx, AxisRec.moved, if_neg hm]
      · simp only [get_zipWith, ha, hx, AxisRec.moved, if_pos hm]
        rfl
      · have htime : s.now + ms (travelTime a v) + ms allowance + ms 500 =
            s.now + ((dist + a.speed - 1) / a.speed + allowance + 500) * 1000 := by
          have htravel : travelTime a v = (dist + a.speed - 1) / a.speed := by
            rw [hd, ← moveDistance_eq]
            rfl
          have hsum : ∀ x y z : Nat, x + y * 1000 + z * 1000 + 500 * 1000 = x + (y + z + 500) * 1000 := fun x y z => by omega
          rw [← htravel]
          exact hsum ..
        simp only [get_zipWith, ha, hx, AxisRec.moved, AxisRec.moveTo, htime]
  · have hany : ((s.port p).lens.movedTargets goto).any Option.isSome = false := by
      rw [← Bool.not_eq_true, any_iff]
      rintro ⟨x, hx⟩
      exact hmoved ⟨x, Option.isSome_iff_exists.mp hx⟩
    have hsame : s.makeMove p goto allowance o = s := by simp [State.makeMove, hany]
    rw [hsame]
    exact ⟨SameBut.refl s p, (s.port p).lens.movedTargets goto, fun x => get_movedTargets, fun _ => rfl, fun h => absurd h hmoved⟩

/-- What MOVE_LENS and RECALL_PRESET come to once their own fields have passed (R130, R136). -/
def State.moveAnswer (m : Master) (goto : PerAxis (Option Nat)) (allowance : Nat) (clamps : List (Nat × Nat)) (p : Port)
    (s : State) : Answer × State :=
  if (s.port p).lens.heldByOther m then refusing .lensHeld s
  else if (s.port p).link.state ≠ .up then refusing .cameraUnavailable s
  else
    ({ result := .done, clamped := clamps, body := .ignored ((s.port p).lens.ignoredAxes goto) },
      s.makeMove p goto allowance (some m))

theorem exec_moveLens {targets : PerAxis (Option Int)} {settle : Option Nat} (hr : Reaches s m .moveLens e)
    (hp : portOf n = some p) (ha : settle.getD 20 ≤ 2000) :
    exec (.moveLens m n targets settle) s = .next
      (((s.taken m).moveAnswer m (clampTargets targets) (settle.getD 20) (targetEntries targets) p).2.reply m e
        ((s.taken m).moveAnswer m (clampTargets targets) (settle.getD 20) (targetEntries targets) p).1) :=
  congrArg Host.Outcome.next (takeRequest_onPort hr hp (if_neg (Nat.not_lt.mpr ha)))

theorem presetNo_of_lt (i : Fin 64) : presetNo i.val = some i := dif_pos i.isLt

theorem presetNo_of_gt {i : Nat} (h : 63 < i) : presetNo i = none := dif_neg (by omega)

theorem exec_recallPreset {i : Fin 64} {r : Preset} (hr : Reaches s m .recallPreset e) (hp : portOf n = some p)
    (hw : s.presets.writing (.preset i) = false) (hc : s.presets.preset i = some r) (hport : r.port = none ∨ r.port = some p) :
    exec (.recallPreset m n i.val) s = .next
      (((s.taken m).moveAnswer m r.targets r.settle [] p).2.reply m e ((s.taken m).moveAnswer m r.targets r.settle [] p).1) := by
  refine congrArg Host.Outcome.next (takeRequest_onPort hr hp ?_)
  have hok : ¬ (r.port ≠ none ∧ r.port ≠ some p) := by rcases hport with h | h <;> simp [h]
  simp only [presetNo_of_lt, taken_presets, hw, hc, if_neg hok, Bool.false_eq_true, if_false]
  rfl

/-! ## Stops (R132) -/

theorem seqAxisIdle_of_not_settling (h : (s.port p).seq.inPhase .settling = false) : s.seqAxisIdle p = s := by
  simp [State.seqAxisIdle, h]

/-- R132: the port's record with its lens stopped. -/
def PortRec.lensStopped (r : PortRec) : PortRec :=
  { r with
    waiting := r.waiting ++ (if r.lens.axes = ⟨none, none, none⟩ then [] else [DownPacket.lensStop])
    lens := { r.lens with axes := r.lens.axes.map (Option.map AxisRec.toIdle) } }

theorem stopLens_eq (hup : (s.port p).link.state = .up) (hroom : (s.port p).waiting.length < 16) :
    s.stopLens p = if (s.port p).lens.anyMoving || (s.port p).lens.anyStalled then
      (s.updPort p PortRec.lensStopped).seqAxisIdle p else s.updPort p PortRec.lensStopped := by
  have hstop : (if (s.port p).lens.noAxes then s else s.handDown p .lensStop).updLens p
      (fun l => { l with axes := l.axes.map (Option.map AxisRec.toIdle) }) = s.updPort p PortRec.lensStopped := by
    by_cases h : (s.port p).lens.axes = ⟨none, none, none⟩
    · rw [if_pos (noAxes_iff.mpr h), updLens_eq]
      exact updPort_congr (by simp [PortRec.lensStopped, h])
    · rw [if_neg (mt noAxes_iff.mp h), handDown_of_room (.inr hup) hroom, updLens_eq, updPort_updPort]
      exact updPort_congr (by simp [PortRec.lensStopped, h])
  unfold State.stopLens
  dsimp only
  rw [hstop]

theorem exec_stopLens (hr : Reaches s m .stopLens e) (hp : portOf n = some p)
    (hfree : (s.port p).lens.holder = none ∨ (s.port p).lens.holder = some m) (hup : (s.port p).link.state = .up) :
    exec (.stopLens m n) s = .next (((s.taken m).stopLens p).reply m e { result := .done }) := by
  refine congrArg Host.Outcome.next (takeRequest_onPort hr hp ?_)
  have hheld : ((s.taken m).port p).lens.heldByOther m = false := heldByOther_eq_false.mpr hfree
  rw [hheld, if_neg Bool.false_ne_true, if_neg (by simpa using hup)]

/-- Settles O39. -/
theorem lensesMoveAndStop : Obligations.LensesMoveAndStop := by
  refine fun s m e n p hp => ⟨fun c k goto allowance clamps hr hk => ?_, fun targets settle hr ha => ?_, fun i hr hi => ?_,
    fun i hr => ⟨fun hw => ?_, fun hw hc => ?_, fun r q hw hc hq hne => ?_⟩, fun hr => ⟨fun h hh hne => ?_, fun hfree hup => ?_,
    fun hfree hup hs hroom => ?_⟩⟩
  · have hexec : exec c s = .next (((s.taken m).moveAnswer m goto allowance clamps p).2.reply m e
        ((s.taken m).moveAnswer m goto allowance clamps p).1) := by
      rcases hk with ⟨rfl, targets, settle, rfl, rfl, hle, hgoto, rfl⟩ | ⟨rfl, rfl, i, r, rfl, hw, hc, hport, rfl, rfl⟩
      · have : goto = clampTargets targets := perAxis_ext fun x => by
          rw [hgoto, clampTargets, PerAxis.get_map]
          rfl
        rw [this]
        exact exec_moveLens hr hp hle
      · exact exec_recallPreset hr hp hw hc hport
    have hfreed : ((s.port p).lens.holder = none ∨ (s.port p).lens.holder = some m) →
        ¬ (((s.taken m).port p).lens.heldByOther m = true) := fun hfree => by
      rw [Bool.not_eq_true]
      exact heldByOther_eq_false.mpr hfree
    refine ⟨fun h hh hne => ?_, fun hfree hup => ?_, fun hfree hup hroom => ?_⟩
    · have hans : (s.taken m).moveAnswer m goto allowance clamps p = refusing .lensHeld (s.taken m) :=
        if_pos (heldByOther_iff.mpr ⟨h, hh, hne⟩)
      rw [hexec, hans]
      rfl
    · have hans : (s.taken m).moveAnswer m goto allowance clamps p = refusing .cameraUnavailable (s.taken m) :=
        (if_neg (hfreed hfree)).trans (if_pos hup)
      rw [hexec, hans]
      rfl
    · have hans : (s.taken m).moveAnswer m goto allowance clamps p = _ := (if_neg (hfreed hfree)).trans (if_neg (by simpa using hup))
      rw [hans, ignoredAxes_eq] at hexec
      obtain ⟨hsame, moved, hmoved⟩ := makeMove_moves (s.taken m) p goto allowance (some m) hup hroom
      exact ⟨_, moved, hexec, hsame, hmoved⟩
  · exact congrArg Host.Outcome.next (takeRequest_onPort hr hp (if_pos ha))
  · refine congrArg Host.Outcome.next (takeRequest_onPort hr hp ?_)
    rw [presetNo_of_gt hi]
    rfl
  · refine congrArg Host.Outcome.next (takeRequest_onPort hr hp ?_)
    simp only [presetNo_of_lt, taken_presets, hw, if_true]
    rfl
  · refine congrArg Host.Outcome.next (takeRequest_onPort hr hp ?_)
    simp only [presetNo_of_lt, taken_presets, hw, hc, Bool.false_eq_true, if_false]
    rfl
  · refine congrArg Host.Outcome.next (takeRequest_onPort hr hp ?_)
    simp only [presetNo_of_lt, taken_presets, hw, hc, Bool.false_eq_true, if_false]
    exact if_pos (by simp [hq, hne])
  · exact congrArg Host.Outcome.next (takeRequest_onPort hr hp (if_pos (heldByOther_iff.mpr ⟨h, hh, hne⟩)))
  · refine congrArg Host.Outcome.next (takeRequest_onPort hr hp ?_)
    have hheld : ((s.taken m).port p).lens.heldByOther m = false := heldByOther_eq_false.mpr hfree
    rw [hheld, if_neg Bool.false_ne_true]
    exact if_pos hup
  · have hidle : ((s.taken m).updPort p PortRec.lensStopped).seqAxisIdle p = (s.taken m).updPort p PortRec.lensStopped :=
      seqAxisIdle_of_not_settling (by rw [State.updPort_port_self]; exact hs)
    refine ⟨(s.taken m).updPort p PortRec.lensStopped, ?_, updPort_sameBut .., by rw [State.updPort_port_self]; rfl, fun x => ?_⟩
    · rw [exec_stopLens hr hp hfree hup, stopLens_eq (s := s.taken m) hup hroom, hidle, ite_self]
    · rw [State.updPort_port_self]
      exact PerAxis.get_map ..

/-! ## A run's last step (R160, R172) -/

/-- The end of a run whose step has been marked done is the end of the run. -/
theorem RunEnded.of_stepDone {x : EndStatus} (h : RunEnded (s.updSeq p SeqCtx.stepDone) u p x) : RunEnded s u p x := by
  obtain ⟨⟨h0, h1, h2, h3, h4, h5, h6, h7, h8, h9⟩, hstore, hport⟩ := h
  have hother : ∀ q, q ≠ p → (s.updSeq p SeqCtx.stepDone).port q = s.port q := fun q hq => s.updPort_port_of_ne _ (Ne.symm hq)
  have hself : (s.updSeq p SeqCtx.stepDone).port p = { s.port p with seq := (s.port p).seq.stepDone } := s.updPort_port_self ..
  refine ⟨⟨fun q hq => (h0 q hq).trans (hother q hq), h1, h2, h3, h4, h5, h6, h7, h8, h9⟩, ?_, ?_⟩
  · rw [hstore, hself]
    rfl
  · rw [hport, hself]
    rfl

/-- R160: the last step of a run completes. -/
theorem completeStep_ended {st : Step} (hst : (s.port p).seq.currentStep = some st) (hchain : st.chain = false) :
    RunEnded s (s.completeStep p) p .normal := by
  have : s.completeStep p = (s.updSeq p SeqCtx.stepDone).endRun p .normal := by simp [State.completeStep, hst, hchain]
  rw [this]
  exact (endRun_ended ..).of_stepDone

theorem seqAxisIdle_of_settling (h : (s.port p).seq.inPhase .settling = true) (hstill : (s.port p).lens.anyMoving = false) :
    s.seqAxisIdle p = s.completeStep p := by
  simp [State.seqAxisIdle, h, hstill]

/-! ## Reports (R133, R135) -/

theorem addressee_eq (l : LensRec) : l.addressee = l.holder.or l.mover := by
  unfold LensRec.addressee
  cases l.holder <;> rfl

/-- R135: a LENS_EVENT, its fields read from the record the lens has. -/
theorem lensEvent_eq {l : LensRec} (h : (s.port p).lens = l) (c : LensCause) : s.lensEvent p c =
    s.notifyOpt (l.holder.or l.mover) false (.lensEvent p c l.standing l.holder l.implicit) := by
  subst h
  rw [← addressee_eq]
  rfl

theorem settles_iff {a : AxisRec} {x : ReportEntry} : a.settles x = true ↔
    a.motion = .moving ∧ x.settled = true ∧ ∃ g, a.target = some g ∧ x.position ≤ g + 8 ∧ g ≤ x.position + 8 := by
  unfold AxisRec.settles
  cases a.target with
  | none => simp
  | some g =>
    simp only [Bool.and_eq_true, decide_eq_true_eq, Option.some.injEq, exists_eq_left', and_assoc]
    rfl

theorem settles_eq_false {a : AxisRec} {x : ReportEntry}
    (h : a.motion ≠ .moving ∨ x.settled = false ∨ ∀ g, a.target = some g → g + 8 < x.position ∨ x.position + 8 < g) :
    a.settles x = false := by
  rw [← Bool.not_eq_true, settles_iff]
  rintro ⟨hm, hs, g, hg, hlo, hhi⟩
  rcases h with h | h | h
  · exact h hm
  · rw [hs] at h
    cases h
  · have := h g hg
    omega

theorem report_of_settles {a : AxisRec} {x : ReportEntry} (h : a.settles x = true) :
    a.report x = { a with position := some x.position, motion := .idle, target := none, deadline := none } := by
  simp [AxisRec.report, AxisRec.toIdle, h]

theorem report_of_not_settles {a : AxisRec} {x : ReportEntry} (h : a.settles x = false) :
    a.report x = { a with position := some x.position } := by
  simp [AxisRec.report, h]

/-- R133: the lens record after the entries of a report. -/
def LensRec.reported (entries : List ReportEntry) (l : LensRec) : LensRec := entries.foldl LensRec.reportEntry l

/-- A report changes the axes alone. -/
theorem reported_eq : ∀ (entries : List ReportEntry) (l : LensRec),
    l.reported entries = { l with axes := (l.reported entries).axes }
  | [], _ => rfl
  | x :: rest, l => reported_eq rest (l.reportEntry x)

theorem reported_other {x : Axis} : ∀ (entries : List ReportEntry) (l : LensRec), (∀ y ∈ entries, y.axis ≠ x) →
    (l.reported entries).axes.get x = l.axes.get x
  | [], _, _ => rfl
  | y :: rest, l, h => by
    have hy := h y List.mem_cons_self
    have ih := reported_other rest (l.reportEntry y) (fun z hz => h z (List.mem_cons_of_mem _ hz))
    exact ih.trans (PerAxis.get_set_of_ne _ _ hy)

theorem reported_named {x : ReportEntry} : ∀ (entries : List ReportEntry) (l : LensRec), (entries.map ReportEntry.axis).Nodup →
    x ∈ entries → (l.reported entries).axes.get x.axis = (l.axes.get x.axis).map (fun a => a.report x)
  | [], _, _, h => nomatch h
  | y :: rest, l, hnodup, h => by
    rw [List.map_cons, List.nodup_cons] at hnodup
    obtain ⟨hy, hrest⟩ := hnodup
    rcases List.mem_cons.mp h with rfl | h
    · have hother : ∀ z ∈ rest, z.axis ≠ x.axis := fun z hz e => hy (List.mem_map.mpr ⟨z, hz, e⟩)
      exact (reported_other rest (l.reportEntry x) hother).trans (PerAxis.get_set_self ..)
    · have hne : y.axis ≠ x.axis := fun e => hy (List.mem_map.mpr ⟨x, h, e.symm⟩)
      refine (reported_named rest (l.reportEntry y) hrest h).trans ?_
      exact congrArg (Option.map _) (PerAxis.get_set_of_ne _ _ hne)

theorem axesDistinct_of_nodup : ∀ entries : List ReportEntry, (entries.map ReportEntry.axis).Nodup → axesDistinct entries = true
  | [], _ => rfl
  | x :: rest, h => by
    rw [List.map_cons, List.nodup_cons] at h
    obtain ⟨hx, hrest⟩ := h
    have hnone : rest.any (fun y => decide (y.axis = x.axis)) = false := by
      rw [List.any_eq_false]
      intro y hy
      simpa using fun e : y.axis = x.axis => hx (List.mem_map.mpr ⟨y, hy, e⟩)
    simp [axesDistinct, hnone, axesDistinct_of_nodup rest hrest]

theorem someSettles_iff {l : LensRec} {entries : List ReportEntry} :
    l.someSettles entries = true ↔ ∃ x ∈ entries, ∃ a, l.axes.get x.axis = some a ∧ a.settles x = true := by
  unfold LensRec.someSettles
  rw [List.any_eq_true]
  refine exists_congr fun x => and_congr_right fun _ => ?_
  cases l.axes.get x.axis <;> simp

/-- The port with a report heard and taken by its lens. -/
def PortRec.lensReported (now : Time) (entries : List ReportEntry) (r : PortRec) : PortRec :=
  { r with link := { r.link with lastPacket := some now }, lens := r.lens.reported entries }

theorem exec_lensReport {entries : List ReportEntry} (hup : (s.port p).link.state = .up) (hattempt : (s.port p).link.attempt = none)
    (hlen : entries.length ≤ 3) (hnodup : (entries.map ReportEntry.axis).Nodup) (hpos : ∀ x ∈ entries, x.position ≤ 4095)
    (ht : t = s.updPort p (PortRec.lensReported s.now entries)) :
    exec (.lensReport p (s.port p).link.listen entries) s = .next
      (if (s.port p).lens.someSettles entries && !(t.port p).lens.anyMoving then (t.seqAxisIdle p).lensEvent p .settled
       else if (s.port p).lens.someSettles entries then t.seqAxisIdle p else t) := by
  have hrec := receives_listen (s := s) (p := p) (by rw [hup]; rfl)
  have hfits : reportFits entries = true := by
    simpa [reportFits, hlen, axesDistinct_of_nodup entries hnodup] using hpos
  have htaken : (s.hear p).updLens p (fun l => entries.foldl LensRec.reportEntry l) = t := by
    rw [ht, hear_eq, updLens_eq, updPort_updPort]
    refine updPort_congr ?_
    dsimp only
    rw [heardPacket_of_none hattempt]
    rfl
  have hlens : ((s.hear p).port p).lens = (s.port p).lens := State.updLink_port_lens ..
  refine congrArg Host.Outcome.next ?_
  rw [hrec, hfits, Bool.not_true, if_neg Bool.false_ne_true, if_neg Bool.false_ne_true, State.routed, if_pos hup]
  unfold State.takeReport
  dsimp only
  rw [htaken, hlens]
  cases (s.port p).lens.someSettles entries <;> rfl

/-- R134: an axis at its deadline. -/
theorem exec_lensDeadline {x : Axis} {a : AxisRec} {d : Time} (ha : (s.port p).lens.axes.get x = some a)
    (hd : a.deadline = some d) (hm : a.motion = .moving) (hnow : d ≤ s.now)
    (ht : t = s.updLens p (fun l => { l with axes := l.axes.set x (some a.stall) })) :
    exec (.lensDeadline p x) s = .next ((t.seqAxisStalled p x).lensEvent p (.stalled x)) := by
  subst ht
  refine congrArg Host.Outcome.next ?_
  rw [ha]
  exact if_pos ⟨hm, by simpa [hd, passed] using hnow⟩

/-- Settles O37. -/
theorem lensAxesSettleAndStall : Obligations.LensAxesSettleAndStall := by
  refine ⟨fun s p entries hup hattempt hlen hnodup hpos => ?_, fun s m e n p st hp hr hfree hup hroom hs hst hchain => ?_,
    fun s p x a d ha hd => ⟨fun hno => ?_, fun hm hnow hs => ?_, fun hm hnow hs => ?_⟩⟩
  · have hport : (s.updPort p (PortRec.lensReported s.now entries)).port p = (s.port p).lensReported s.now entries :=
      State.updPort_port_self ..
    have hexec := exec_lensReport hup hattempt hlen hnodup hpos rfl
    have hsame : SameBut s (s.updPort p (PortRec.lensReported s.now entries)) p := updPort_sameBut ..
    generalize s.updPort p (PortRec.lensReported s.now entries) = t at hport hexec hsame
    have hlens : (t.port p).lens = (s.port p).lens.reported entries := by rw [hport]; rfl
    have hrest : (t.port p).lens = { (s.port p).lens with axes := (t.port p).lens.axes } := by
      rw [hlens]
      exact reported_eq entries (s.port p).lens
    refine ⟨t, hsame, ?_, fun x hx => ?_, fun x hx hnone => ?_, fun x hx a ha => ⟨fun h => ?_, fun h => ?_⟩, fun hquiet => ?_,
      fun x hx a g ha hm hset hg hlo hhi hstill => ?_⟩
    · rw [← hrest, hlens, hport]
      rfl
    · rw [hlens]
      exact reported_other entries _ hx
    · rw [hlens, reported_named entries _ hnodup hx, hnone]
      rfl
    · rw [hlens, reported_named entries _ hnodup hx, ha, Option.map_some, report_of_settles (settles_iff.mpr h)]
    · rw [hlens, reported_named entries _ hnodup hx, ha, Option.map_some, report_of_not_settles (settles_eq_false h)]
    · rcases hquiet with hmoving | hnone
      · have hany := anyMoving_iff.mpr hmoving
        have hidle : t.seqAxisIdle p = t := if_neg (by simp [hany])
        simpa [hany, hidle] using hexec
      · have hnone : (s.port p).lens.someSettles entries = false := by
          rw [← Bool.not_eq_true, someSettles_iff]
          rintro ⟨x, hx, a, ha, hset⟩
          rw [settles_eq_false (hnone x hx a ha)] at hset
          cases hset
        simpa [hnone] using hexec
    · have hsome : (s.port p).lens.someSettles entries = true :=
        someSettles_iff.mpr ⟨x, hx, a, ha, settles_iff.mpr ⟨hm, hset, g, hg, hlo, hhi⟩⟩
      have hany := anyMoving_eq_false.mpr hstill
      have hseq : (t.port p).seq = (s.port p).seq := by rw [hport]; rfl
      rw [if_pos (by rw [hsome, hany]; rfl)] at hexec
      refine ⟨fun hs => ?_, fun st hs hst hchain => ?_⟩
      · rw [hexec, seqAxisIdle_of_not_settling (hseq ▸ hs), lensEvent_eq rfl]
        have hholder : (t.port p).lens.holder = (s.port p).lens.holder := by rw [hrest]
        have hmover : (t.port p).lens.mover = (s.port p).lens.mover := by rw [hrest]
        have himplicit : (t.port p).lens.implicit = (s.port p).lens.implicit := by rw [hrest]
        rw [hholder, hmover, himplicit]
      · have hended := completeStep_ended (s := t) (p := p) (hseq ▸ hst) hchain
        refine ⟨t.completeStep p, hended, ?_⟩
        have hstanding : ((t.completeStep p).port p).lens.standing = (t.port p).lens.standing := by
          rw [hended.2.2]
          dsimp only
          split <;> rfl
        rw [hexec, seqAxisIdle_of_settling (hseq ▸ hs) hany, lensEvent_eq rfl, hstanding]
  · have hexec := exec_stopLens hr hp hfree hup
    rw [stopLens_eq (s := s.taken m) hup hroom] at hexec
    have hport : ((s.taken m).updPort p PortRec.lensStopped).port p = (s.port p).lensStopped := State.updPort_port_self ..
    refine ⟨(s.taken m).updPort p PortRec.lensStopped, updPort_sameBut .., by rw [hport]; rfl,
      fun x => by rw [hport]; exact PerAxis.get_map .., fun hmotion => ?_, fun hidle => ?_⟩
    · have hchanged : (s.port p).lens.anyMoving = true ∨ (s.port p).lens.anyStalled = true := by
        obtain ⟨x, a, ha, hne⟩ := hmotion
        rw [anyMoving_iff, anyStalled_iff]
        cases hm : a.motion with
        | idle => exact absurd hm hne
        | moving => exact .inl ⟨x, a, ha, hm⟩
        | stalled => exact .inr ⟨x, a, ha, hm⟩
      have hstill : (s.port p).lensStopped.lens.anyMoving = false := by
        rw [anyMoving_eq_false]
        intro x a ha hm
        rw [show (s.port p).lensStopped.lens.axes.get x = _ from PerAxis.get_map .., Option.map_eq_some_iff] at ha
        obtain ⟨b, -, rfl⟩ := ha
        cases hm
      refine ⟨_, completeStep_ended (st := st) (by rw [hport]; exact hst) hchain, ?_⟩
      rw [hexec, taken_port, if_pos (by simpa using hchanged),
        seqAxisIdle_of_settling (by rw [hport]; exact hs) (by rw [hport]; exact hstill)]
    · have hmoving : (s.port p).lens.anyMoving = false := anyMoving_eq_false.mpr fun x a ha => by simp [hidle x a ha]
      have hstalled : (s.port p).lens.anyStalled = false := by
        rw [← Bool.not_eq_true, anyStalled_iff]
        rintro ⟨x, a, ha, hm⟩
        rw [hidle x a ha] at hm
        cases hm
      rw [hexec, taken_port, hmoving, hstalled]
      rfl
  · have : ¬ (a.motion = .moving ∧ passed s.now a.deadline = true) := by
      rintro ⟨hm, hpassed⟩
      rcases hno with h | h
      · rw [hd] at hpassed
        exact absurd (of_decide_eq_true hpassed) (Nat.not_le.mpr h)
      · exact h hm
    refine congrArg Host.Outcome.next ?_
    rw [ha]
    exact if_neg this
  · refine ⟨s.updLens p (fun l => { l with axes := l.axes.set x (some a.stall) }), updPort_sameBut .., State.updPort_port_self ..,
      ?_⟩
    rw [exec_lensDeadline ha hd hm hnow rfl]
    have hidle : (s.updLens p (fun l => { l with axes := l.axes.set x (some a.stall) })).seqAxisStalled p x =
        s.updLens p (fun l => { l with axes := l.axes.set x (some a.stall) }) := if_neg (by simp [hs])
    rw [hidle]
    refine congrArg Host.Outcome.next ((lensEvent_eq rfl _).trans ?_)
    rw [State.updLens_port_lens]
  · have hexec := exec_lensDeadline ha hd hm hnow rfl
    generalize ht : s.updLens p (fun l => { l with axes := l.axes.set x (some a.stall) }) = t at hexec
    have hport : t.port p = { s.port p with lens := { (s.port p).lens with axes := (s.port p).lens.axes.set x (some a.stall) } } := by
      rw [← ht]
      exact State.updPort_port_self ..
    have hother : ∀ q, q ≠ p → t.port q = s.port q := by
      rw [← ht]
      exact fun q hq => s.updPort_port_of_ne _ (Ne.symm hq)
    have hstalled : t.seqAxisStalled p x = t.endRun p .lensStalled { axis := some x } := if_pos (by rw [hport]; exact hs)
    obtain ⟨⟨hports, -⟩, -, hended⟩ := endRun_ended t p .lensStalled { axis := some x }
    have hnotice := (lensEvent_same (t.endRun p .lensStalled { axis := some x }) p (.stalled x)).1
    rw [hstalled] at hexec
    refine ⟨_, hexec, ?_, ?_, ?_, fun q hq => ((hnotice q).trans (hports q hq)).trans (hother q hq)⟩
    · rw [hnotice, hended]
    · rw [hnotice, hended, hport]
    · rw [hnotice, hended, hport]
      dsimp only
      split <;> exact PerAxis.get_set_self ..

end Sys2Proof.Machine

end


section
/-! PROOFS. The preset store's write requests (7.1 to 7.3). -/

namespace Sys2Proof.Machine

variable {s t u : State} {p q : Port} {m : Master} {e : RequestEntry} {n : Nat}

/-! ## The fields of a profile and of a cell record (R140, R141, R144) -/

/-- A clamped entry in front of others. -/
theorem filterMap_clamps_cons (i v w : Nat) (rest : List (Nat × Nat × Nat)) :
    ((i, v, w) :: rest).filterMap (fun x => if x.2.1 = x.2.2 then none else some (x.1, x.2.2)) =
      clampEntry i v w ++ rest.filterMap (fun x => if x.2.1 = x.2.2 then none else some (x.1, x.2.2)) := by
  rw [List.filterMap_cons]
  unfold clampEntry
  by_cases h : v = w <;> simp [h]

theorem clampTo_zero (b v : Nat) : clampTo 0 b v = min b v := by rw [clampTo_eq (Nat.zero_le _), Nat.zero_max]

theorem rateOf_getD (v : Nat) : (rateOf v).getD .r5000 = (if v = 0 then .r1250 else if v = 1 then .r2500 else .r5000 : Rate) ∧
    ((rateOf v).getD .r5000).code = min 2 v := by
  match v with
  | 0 => exact ⟨rfl, rfl⟩
  | 1 => exact ⟨rfl, rfl⟩
  | 2 => exact ⟨rfl, rfl⟩
  | v + 3 => exact ⟨rfl, by show 2 = _; omega⟩

theorem parseProfile_given (il v o al iw ht rl dt st bc av : Nat) (ps sw ar : Bool) :
    parseProfile ⟨some il, some v, some o, some al, some iw, some ht, some rl, some dt, some st, some bc, some av, some ps, some sw,
        some ar⟩ = some
      ({ installedLength := min 100000 il, velocity := max 500 (min 990 v), offset := min 2000 o
         allotment := max 50 (min 1500 al), inrushWindow := max 10 (min 250 iw), helloTimeout := max 500 (min 10000 ht)
         rateLimit := if rl = 0 then .r1250 else if rl = 1 then .r2500 else .r5000
         degradeThreshold := max 1 (min 1000 dt), sweepThreshold := max 50 (min 900 st)
         blindCount := max 12 (min 255 bc), averaging := max 1 (min 64 av), powerAtStart := ps, autoSweep := sw
         autoRestore := ar },
       [(1, il, min 100000 il), (2, v, max 500 (min 990 v)), (3, o, min 2000 o), (4, al, max 50 (min 1500 al)),
        (5, iw, max 10 (min 250 iw)), (6, ht, max 500 (min 10000 ht)), (7, rl, min 2 rl), (8, dt, max 1 (min 1000 dt)),
        (9, st, max 50 (min 900 st)), (10, bc, max 12 (min 255 bc)), (11, av, max 1 (min 64 av))].filterMap
          (fun x => if x.2.1 = x.2.2 then none else some (x.1, x.2.2))) := by
  obtain ⟨hrate, hcode⟩ := rateOf_getD rl
  have hclamp : ∀ a b, a ≤ b → ∀ v, max a (min b v) = clampTo a b v := fun _ _ h v => (clampTo_eq h v).symm
  simp only [filterMap_clamps_cons, List.filterMap_nil, List.append_nil, ← List.append_assoc, ← hrate, ← hcode]
  rw [hclamp 500 990 (by decide), hclamp 50 1500 (by decide), hclamp 10 250 (by decide), hclamp 500 10000 (by decide),
    hclamp 1 1000 (by decide), hclamp 50 900 (by decide), hclamp 12 255 (by decide), hclamp 1 64 (by decide),
    ← clampTo_zero, ← clampTo_zero]
  rfl

theorem clampEntry_max {a b : Nat} (h : a ≤ b) (i v : Nat) :
    clampEntry i v (max a (min b v)) = if a ≤ v ∧ v ≤ b then [] else [(i, max a (min b v))] := by
  have := clampEntry_eq (i := i) (v := v) h
  rwa [clampTo_eq h] at this

theorem clampEntry_min (b i v : Nat) : clampEntry i v (min b v) = if v ≤ b then [] else [(i, b)] := by
  unfold clampEntry
  by_cases h : v ≤ b
  · rw [if_pos h, if_pos (by omega)]
  · rw [if_neg h, if_neg (by omega), Nat.min_eq_left (by omega)]

theorem parseLine_iff {base : Nat} {r : RawLine} {f : LineSettings} {clamps : List (Nat × Nat)} :
    parseLine base r = some (f, clamps) ↔ LineGiven base r f clamps := by
  have hgiven : ∀ en po db ho ro, polarityOf po = some (if po = 0 then .rising else .falling) →
      parseLine base ⟨some en, some po, some db, some ho, some ro⟩ = some
        ({ enable := en, polarity := if po = 0 then .rising else .falling, debounce := max 1 (min 255 db)
           holdOff := min 1000 ho, route := BitVec.ofNat 8 (min 255 ro) },
          (if 1 ≤ db ∧ db ≤ 255 then [] else [(base + 2, max 1 (min 255 db))]) ++
            (if ho ≤ 1000 then [] else [(base + 3, 1000)]) ++ (if ro ≤ 255 then [] else [(base + 4, 255)])) := by
    intro en po db ho ro hpo
    have hdb : clampTo 1 255 db = max 1 (min 255 db) := clampTo_eq (by decide) db
    simp only [parseLine, Option.bind_some, hpo, hdb, clampTo_zero, clampEntry_min, clampEntry_max (show 1 ≤ 255 by decide)]
  constructor
  · intro h
    have hsplit := h
    unfold parseLine at hsplit
    split at hsplit
    · rename_i en po db ho ro hen hpo hdb hho hro
      obtain ⟨a1, a2, a3, a4, a5⟩ := r
      dsimp only at hen hpo hdb hho hro
      subst hen hdb hho hro
      obtain ⟨v, rfl, hv⟩ := Option.bind_eq_some_iff.mp hpo
      have hle : v ≤ 1 ∧ polarityOf v = some (if v = 0 then .rising else .falling) := by
        match v with
        | 0 => exact ⟨by omega, rfl⟩
        | 1 => exact ⟨by omega, rfl⟩
        | v + 2 => cases hv
      rw [hgiven _ _ _ _ _ hle.2] at h
      cases h
      exact ⟨en, v, db, ho, ro, rfl, hle.1, rfl, rfl⟩
    · cases hsplit
  · rintro ⟨en, po, db, ho, ro, rfl, hpo, rfl, rfl⟩
    refine hgiven _ _ _ _ _ ?_
    match po with
    | 0 => rfl
    | 1 => rfl

theorem lines_eq (v : Vector LineSettings 4) : #v[v.get 0, v.get 1, v.get 2, v.get 3] = v := by
  refine Vector.ext fun i hi => ?_
  match i with
  | 0 => rfl
  | 1 => rfl
  | 2 => rfl
  | 3 => rfl

theorem parseCell_iff {r : RawCell} {f : Cell} {clamps : List (Nat × Nat)} : parseCell r = some (f, clamps) ↔
    ∃ b g c0 c1 c2 c3, r.budget = some b ∧ r.stagger = some g ∧ f.budget = min 12000 b ∧ f.stagger = min 1000 g ∧
      LineGiven 2 r.line0 (f.lines.get 0) c0 ∧ LineGiven 7 r.line1 (f.lines.get 1) c1 ∧
      LineGiven 12 r.line2 (f.lines.get 2) c2 ∧ LineGiven 17 r.line3 (f.lines.get 3) c3 ∧
      clamps = (if b ≤ 12000 then [] else [(0, 12000)]) ++ (if g ≤ 1000 then [] else [(1, 1000)]) ++ c0 ++ c1 ++ c2 ++ c3 := by
  simp only [← parseLine_iff]
  constructor
  · intro h
    unfold parseCell at h
    split at h
    · rename_i b g l0 c0 l1 c1 l2 c2 l3 c3 hb hg h0 h1 h2 h3
      obtain ⟨rfl, rfl⟩ := Prod.mk.inj (Option.some.inj h)
      refine ⟨b, g, c0, c1, c2, c3, hb, hg, clampTo_zero .., clampTo_zero .., h0, h1, h2, h3, ?_⟩
      rw [clampTo_zero, clampTo_zero, clampEntry_min, clampEntry_min]
    · cases h
  · rintro ⟨b, g, c0, c1, c2, c3, hb, hg, hfb, hfg, h0, h1, h2, h3, rfl⟩
    obtain ⟨fb, fg, fl⟩ := f
    dsimp only at hfb hfg h0 h1 h2 h3
    subst hfb hfg
    simp only [parseCell, hb, hg, h0, h1, h2, h3, lines_eq, clampTo_zero, clampEntry_min]

theorem parseProfile_iff {r : RawProfile} {x : Profile × List (Nat × Nat)} (h : parseProfile r = some x) :
    ∃ il v o al iw ht rl dt st bc av ps sw ar, r = ⟨some il, some v, some o, some al, some iw, some ht, some rl, some dt,
      some st, some bc, some av, some ps, some sw, some ar⟩ := by
  unfold parseProfile at h
  split at h
  · rename_i h0 h1 h2 h3 h4 h5 h6 h7 h8 h9 h10 h11 h12 h13
    obtain ⟨_, _, _, _, _, _, _, _, _, _, _, _, _, _⟩ := r
    dsimp only at h0 h1 h2 h3 h4 h5 h6 h7 h8 h9 h10 h11 h12 h13
    subst h0 h1 h2 h3 h4 h5 h6 h7 h8 h9 h10 h11 h12 h13
    exact ⟨_, _, _, _, _, _, _, _, _, _, _, _, _, _, rfl⟩
  · cases h

/-! ## The rows of a write request (R145, R149, R150) -/

/-- R145: what the rows say of a write, in their order. -/
theorem writeRefusal_cases (st : PresetStore) (kind : WriteKind) (record : RecordName) :
    (st.write ≠ none → st.writeRefusal kind record = some .storeBusy) ∧
    (st.write = none → st.fault = true → st.writeRefusal kind record = some .storeFault) ∧
    (∀ i r, st.write = none → st.fault = false → (kind = .writePreset ∨ kind = .erasePreset) → record = .preset i →
      st.preset i = some r → r.locked = true → st.writeRefusal kind record = some .presetLocked) ∧
    (st.write = none → st.fault = false → st.lockDown = true → (kind = .writeProfile ∨ kind = .writeCell ∨ kind = .lockPreset) →
      st.writeRefusal kind record = some .lockedDown) ∧
    (st.write = none → st.fault = false →
      ((kind = .writeProfile ∨ kind = .writeCell ∨ kind = .lockPreset) → st.lockDown = false) →
      ((kind = .writePreset ∨ kind = .erasePreset) →
        ∀ i r, record = .preset i → st.preset i = some r → r.locked = false) →
      st.writeRefusal kind record = none) := by
  refine ⟨fun hw => ?_, fun hw hf => ?_, fun i r hw hf hk hr hp hl => ?_, fun hw hf hl hk => ?_, fun hw hf hdown hlock => ?_⟩
  · exact if_pos (Option.isSome_iff_ne_none.mpr hw)
  · simp [PresetStore.writeRefusal, hw, hf]
  · subst hr
    rcases hk with rfl | rfl <;> simp [PresetStore.writeRefusal, PresetStore.locked, hw, hf, hp, hl]
  · rcases hk with rfl | rfl | rfl <;> simp [PresetStore.writeRefusal, hw, hf, hl]
  · have hunlocked : ∀ i, (kind = .writePreset ∨ kind = .erasePreset) → record = .preset i → st.locked i = false := by
      intro i hk hr
      unfold PresetStore.locked
      cases hp : st.preset i with
      | none => rfl
      | some r => exact hlock hk i r hr hp
    simp only [PresetStore.writeRefusal, hw, hf, Option.isSome_none, Bool.false_eq_true, if_false]
    cases kind with
    | writePreset =>
      cases record with
      | preset i => simp [hunlocked i (.inl rfl) rfl]
      | profile _ => rfl
      | cell => rfl
    | erasePreset =>
      cases record with
      | preset i => simp [hunlocked i (.inr rfl) rfl]
      | profile _ => rfl
      | cell => rfl
    | writeProfile => simp [hdown (.inl rfl)]
    | writeCell => simp [hdown (.inr (.inl rfl))]
    | lockPreset => simp [hdown (.inr (.inr rfl))]

/-- R142: which records a write that starts makes invalid. -/
theorem startWrite_records (st : PresetStore) (w : Write) :
    (∀ i : Fin 64, (st.startWrite w).presets.get i =
      if w.record = .preset i then { st.presets.get i with valid := false } else st.presets.get i) ∧
    (∀ p : Port, (st.startWrite w).profiles.get p =
      if w.record = .profile p then { st.profiles.get p with valid := false } else st.profiles.get p) ∧
    (st.startWrite w).cell = (if w.record = .cell then { st.cell with valid := false } else st.cell) := by
  unfold PresetStore.startWrite PresetStore.invalidate
  cases w.record with
  | preset k =>
    refine ⟨fun i => ?_, fun p => (if_neg (by simp)).symm, (if_neg (by simp)).symm⟩
    by_cases h : k = i
    · subst h
      rw [if_pos rfl]
      exact vector_get_set_self ..
    · rw [if_neg (by simpa using h)]
      exact vector_get_set_of_ne _ _ h
  | profile k =>
    refine ⟨fun i => (if_neg (by simp)).symm, fun p => ?_, (if_neg (by simp)).symm⟩
    by_cases h : k = p
    · subst h
      rw [if_pos rfl]
      exact vector_get_set_self ..
    · rw [if_neg (by simpa using h)]
      exact vector_get_set_of_ne _ _ h
  | cell => exact ⟨fun i => (if_neg (by simp)).symm, fun p => (if_neg (by simp)).symm, (if_pos rfl).symm⟩

/-- The state and the answer of a write that its rows refuse, and of one they let start (R145). -/
theorem takeWrite_refused {kind : WriteKind} {record : RecordName} {content : NewContent} {clamps : List (Nat × Nat)} {r : Result}
    (h : s.presets.writeRefusal kind record = some r) :
    s.takeWrite m kind record content clamps = ({ result := r, clamped := clamps }, s) := by
  simp [State.takeWrite, h]

theorem takeWrite_started {kind : WriteKind} {record : RecordName} {content : NewContent} {clamps : List (Nat × Nat)}
    (h : s.presets.writeRefusal kind record = none) :
    s.takeWrite m kind record content clamps = ({ result := .accepted, clamped := clamps },
      s.updPresets (fun st => st.startWrite ⟨record, kind, m, content, s.now⟩)) := by
  simp [State.takeWrite, h]

theorem exec_request_fits {k : RequestKind} {fits : Bool} {act : State → Answer × State} {c : Instr} {a : Answer}
    (hexec : exec c s = .next (s.takeRequest m k fits act)) (hr : Reaches s m k e) (hf : fits = true)
    (ha : act (s.taken m) = (a, t)) : exec c s = .next (t.reply m e a) := by
  rw [hexec, takeRequest_of_reaches_fits hr hf, ha]

/-! ## The fields of a WRITE_PRESET (R144) -/

theorem presetClamps_eq (f : PresetFields) : f.clamps =
    [(3, f.targets.focus), (4, f.targets.iris), (5, f.targets.zoom)].filterMap
      (fun x => x.2.bind (fun v => if v ≤ 4095 then none else some (x.1, 4095))) := by
  have hclamp : ∀ (i : Nat) (o : Option Nat) (rest : List (Nat × Option Nat)),
      ((i, o) :: rest).filterMap (fun x => x.2.bind (fun v => if v ≤ 4095 then none else some (x.1, 4095))) =
        presetClamp i o ++ rest.filterMap (fun x => x.2.bind (fun v => if v ≤ 4095 then none else some (x.1, 4095))) := by
    intro i o rest
    rw [List.filterMap_cons]
    cases o with
    | none => rfl
    | some v =>
      show _ = clampEntry i v (clampTo 0 4095 v) ++ _
      rw [clampTo_zero, clampEntry_min]
      by_cases h : v ≤ 4095 <;> simp [h]
  simp only [hclamp, List.filterMap_nil, List.append_nil, PresetFields.clamps, List.append_assoc]

theorem clampedTargets_eq (f : PresetFields) : f.clampedTargets = f.targets.map (Option.map (min 4095)) := by
  unfold PresetFields.clampedTargets
  rw [show clampTo 0 4095 = min 4095 from funext (clampTo_zero 4095)]

theorem presetPort_of {a : Nat} {port : Option Port} (h : (a = 255 ∧ port = none) ∨ ∃ q : Port, a = q.val ∧ port = some q) :
    presetPort a = some port := by
  rcases h with ⟨rfl, rfl⟩ | ⟨q, rfl, rfl⟩
  · rfl
  · have : q.val ≠ 255 := by omega
    simp [presetPort, this]

/-- R149: a LOCK_PRESET of a preset whose flag stands otherwise is judged as the write it is. -/
theorem takeLock_write {i : Fin 64} {r : Preset} {set : Bool} (hp : s.presets.preset i = some r) (hne : r.locked ≠ set) :
    s.takeLock m i set = s.takeWrite m .lockPreset (.preset i) (.preset (some { r with locked := set })) [] := by
  unfold State.takeLock
  cases hw : s.presets.writeRefusal .lockPreset (.preset i) with
  | some x => rw [takeWrite_refused hw, hp]; rfl
  | none => rw [hp]; exact if_neg hne

/-- Settles O46. -/
theorem storeWritesStart : Obligations.StoreWritesStart := by
  refine ⟨fun r f clamps => ⟨fun h => ?_, ?_⟩, fun r f clamps => parseCell_iff,
    fun s m e c k kind record content clamps hr hc => ?_⟩
  · obtain ⟨il, v, o, al, iw, ht, rl, dt, st, bc, av, ps, sw, ar, rfl⟩ := parseProfile_iff h
    rw [parseProfile_given] at h
    obtain ⟨rfl, rfl⟩ := Prod.mk.inj (Option.some.inj h)
    exact ⟨il, v, o, al, iw, ht, rl, dt, st, bc, av, ps, sw, ar, rfl, rfl, rfl⟩
  · rintro ⟨il, v, o, al, iw, ht, rl, dt, st, bc, av, ps, sw, ar, rfl, rfl, rfl⟩
    exact parseProfile_given ..
  · have hexec : ∀ a t, (s.taken m).takeWrite m kind record content clamps = (a, t) → exec c s = .next (t.reply m e a) := by
      intro a t hact
      rcases hc with ⟨l, f, i, port, rfl, rfl, rfl, hparse, hno, hsettle, hl, hport, rfl, rfl, rfl⟩ |
        ⟨i, rfl, rfl, rfl, rfl, rfl, rfl⟩ | ⟨p, r, f, rfl, rfl, rfl, hparse, rfl, rfl⟩ |
        ⟨r, f, rfl, rfl, rfl, hparse, hbudget, rfl, rfl⟩ | ⟨i, action, r, rfl, rfl, rfl, haction, hp, hlock, rfl, rfl, rfl⟩
      · refine exec_request_fits (congrArg Host.Outcome.next (ofRecord_of_next hr.1 hl)) hr (by rw [hparse]; rfl) ?_
        rw [hparse]
        rw [← presetClamps_eq, ← clampedTargets_eq] at hact
        simpa only [State.takeWritePreset, hno, presetPort_of hport, if_neg (Nat.not_lt.mpr hsettle)] using hact
      · refine exec_request_fits rfl hr rfl ?_
        rw [presetNo_of_lt]
        exact hact
      · refine exec_request_fits rfl hr (by rw [hparse]; rfl) ?_
        rw [hparse]
        dsimp only
        rw [portOf_val]
        exact hact
      · refine exec_request_fits rfl hr (by rw [hparse]; rfl) ?_
        rw [hparse]
        exact (if_neg fun h => absurd h.2 (Nat.not_lt.mpr hbudget)).trans hact
      · refine exec_request_fits rfl hr (decide_eq_true haction) ?_
        rw [presetNo_of_lt]
        rw [← hact]
        exact takeLock_write hp (by rw [hlock]; rcases Nat.le_one_iff_eq_zero_or_eq_one.mp haction with rfl | rfl <;> decide)
    obtain ⟨hbusy, hfault, hlocked, hdown, hstarts⟩ := writeRefusal_cases s.presets kind record
    refine ⟨fun hw => hexec _ _ (takeWrite_refused (hbusy hw)), fun hw hf => hexec _ _ (takeWrite_refused (hfault hw hf)),
      fun i r hw hf hk hrec hp hl => hexec _ _ (takeWrite_refused (hlocked i r hw hf hk hrec hp hl)),
      fun hw hf hl hk => hexec _ _ (takeWrite_refused (hdown hw hf hl hk)), fun hw hf hl hk => ?_⟩
    obtain ⟨hpresets, hprofiles, hcell⟩ := startWrite_records s.presets ⟨record, kind, m, content, s.now⟩
    have hkept : ∀ w, (s.presets.startWrite w).fault = s.presets.fault ∧ (s.presets.startWrite w).lockDown = s.presets.lockDown ∧
        (s.presets.startWrite w).loadReport = s.presets.loadReport := fun w => by
      unfold PresetStore.startWrite PresetStore.invalidate
      cases w.record <;> exact ⟨rfl, rfl, rfl⟩
    obtain ⟨hkfault, hkdown, hkreport⟩ := hkept ⟨record, kind, m, content, s.now⟩
    exact ⟨_, hexec _ _ (takeWrite_started (hstarts hw hf hl hk)), rfl, rfl, hkfault.trans hf, hkdown, hkreport, hpresets, hprofiles,
      hcell⟩

end Sys2Proof.Machine

end


section
/-! PROOFS. The completion of a store write, lock-down and the store error (7.2 to 7.4, R163). -/

namespace Sys2Proof.Machine

variable {s t u : State} {p q : Port} {m : Master} {e : RequestEntry} {n : Nat} {w : Write} {ok : Bool}

/-! ## Runs that wait for the write engine (R163) -/

theorem seqStoreDone_of_not_waiting {i : Fin 64} (h : (s.port p).seq.inPhase .storeWait = false) : s.seqStoreDone p i = s := by
  simp [State.seqStoreDone, h]

/-- R163: a round over ports whose runs do not wait. -/
theorem foldl_seqStoreDone_of_not_waiting {i : Fin 64} : ∀ {l : List Port}, (∀ q ∈ l, (s.port q).seq.inPhase .storeWait = false) →
    l.foldl (fun t q => t.seqStoreDone q i) s = s
  | [], _ => rfl
  | q :: l, h => by
    rw [List.foldl_cons, seqStoreDone_of_not_waiting (h q List.mem_cons_self)]
    exact foldl_seqStoreDone_of_not_waiting fun r hr => h r (List.mem_cons_of_mem _ hr)

/-- R163: where one port at most waits, the round over the ports is its turn. -/
theorem seqStoreDone_round {i : Fin 64} (h : ∀ q : Port, q ≠ p → (s.port q).seq.inPhase .storeWait = false) :
    allPorts.foldl (fun t q => t.seqStoreDone q i) s = s.seqStoreDone p i := by
  have hturn : ∀ q, q ≠ p → ((s.seqStoreDone p i).port q) = s.port q := (seqStoreDone_only s p i).1.1
  obtain ⟨before, after, hports, hbefore, hafter⟩ : ∃ before after, allPorts = before ++ p :: after ∧ p ∉ before ∧ p ∉ after := by
    obtain ⟨before, after, h⟩ := List.append_of_mem (mem_allPorts p)
    have hnodup : (before ++ p :: after).Nodup := h ▸ (by decide : allPorts.Nodup)
    rw [List.perm_middle.nodup_iff, List.nodup_cons, List.mem_append, not_or] at hnodup
    exact ⟨before, after, h, hnodup.1.1, hnodup.1.2⟩
  rw [hports, List.foldl_append, List.foldl_cons, foldl_seqStoreDone_of_not_waiting (s := s) fun q hq => h q fun e => hbefore (e ▸ hq),
    foldl_seqStoreDone_of_not_waiting fun q hq => ?_]
  have hne : q ≠ p := fun e => hafter (e ▸ hq)
  rw [hturn q hne]
  exact h q hne

/-! ## What a completed write leaves (R146, R147) -/

/-- R147: the record and the live values of a completed write, and STORE_DONE to its writer. -/
def State.writeDone (s : State) (w : Write) (ok : Bool) : State :=
  let s1 := s.updPresets (fun st => st.finishWrite w ok)
  let s2 := if ok then s1.loadWritten w.content w.record else s1
  s2.notify w.writer false (.storeDone w.record w.kind ok s2.presets.fault)

theorem loadWritten_beside (c : NewContent) (r : RecordName) (q : Port) : ((s.loadWritten c r).port q).seq = (s.port q).seq ∧
    (s.loadWritten c r).mgr.startQueue = s.mgr.startQueue := by
  unfold State.loadWritten
  split
  · rename_i p x
    refine ⟨?_, rfl⟩
    by_cases h : p = q
    · subst h
      rw [State.updPort_port_self]
    · rw [State.updPort_port_of_ne _ _ h]
  · exact ⟨rfl, rfl⟩
  · exact ⟨rfl, rfl⟩

theorem writeDone_beside (w : Write) (ok : Bool) (q : Port) : ((s.writeDone w ok).port q).seq = (s.port q).seq ∧
    (s.writeDone w ok).mgr.startQueue = s.mgr.startQueue := by
  cases ok with
  | true => exact loadWritten_beside (s := s.updPresets fun st => st.finishWrite w true) w.content w.record q
  | false => exact ⟨rfl, rfl⟩

theorem testHead_of_empty (h : s.mgr.startQueue = []) : s.testHead = s := by simp [State.testHead, h]

/-- R147: with no port in the start queue and no run waiting, that is all. -/
theorem completeWrite_quiet (hq : s.mgr.startQueue = []) (hs : ∀ p : Port, (s.port p).seq.inPhase .storeWait = false) :
    s.completeWrite w ok = s.writeDone w ok := by
  have hs' : ∀ p : Port, ((s.writeDone w ok).port p).seq.inPhase .storeWait = false := fun p => by
    rw [(writeDone_beside w ok p).1]
    exact hs p
  have hround : ∀ i : Fin 64, allPorts.foldl (fun t p => t.seqStoreDone p i) (s.writeDone w ok) = s.writeDone w ok := fun i =>
    foldl_seqStoreDone_of_not_waiting fun p _ => hs' p
  unfold State.completeWrite
  extract_lets s1 s2 s3 s4
  have h4 : s4 = s.writeDone w ok :=
    (congrArg (fun x => if s3.mgr.stagger = s.mgr.stagger then s3 else x)
      (testHead_of_empty (((writeDone_beside w ok 0).2).trans hq))).trans (ite_self _)
  clear_value s4
  subst h4
  cases w.record with
  | preset i => exact hround i
  | profile p => rfl
  | cell => rfl

/-- A preset's content is no live value. -/
theorem writeDone_preset {i : Fin 64} {x : Option Preset} (hr : w.record = .preset i) (hc : w.content = .preset x) :
    s.writeDone w ok = (s.updPresets (fun st => st.finishWrite w ok)).notify w.writer false
      (.storeDone w.record w.kind ok (s.presets.finishWrite w ok).fault) := by
  have hload : (s.updPresets (fun st => st.finishWrite w ok)).loadWritten w.content w.record =
      s.updPresets (fun st => st.finishWrite w ok) := by rw [hr, hc]; rfl
  unfold State.writeDone
  dsimp only
  rw [hload, ite_self]
  rfl

/-- R147, R163: the completion of a preset's write. -/
theorem completeWrite_preset {i : Fin 64} {x : Option Preset} (hr : w.record = .preset i) (hc : w.content = .preset x) :
    s.completeWrite w ok = allPorts.foldl (fun t p => t.seqStoreDone p i) (s.writeDone w ok) := by
  have hstagger : (s.writeDone w ok).mgr.stagger = s.mgr.stagger := by
    rw [writeDone_preset hr hc]
    rfl
  unfold State.completeWrite
  extract_lets s1 s2 s3 s4
  have h4 : s4 = s.writeDone w ok := if_pos hstagger
  clear_value s4
  subst h4
  rw [hr]

theorem exec_storeWriteComplete (h : s.presets.write = some w) :
    exec (.storeWriteComplete ok) s = .next (s.completeWrite w ok) := by
  refine congrArg Host.Outcome.next ?_
  rw [h]

/-! ## A run that waited for its preset (R162, R163) -/

/-- R131: a move changes no context. -/
theorem makeMove_seq (s : State) (p : Port) (goto : PerAxis (Option Nat)) (allowance : Nat) (o : Option Master) :
    ((s.makeMove p goto allowance o).port p).seq = (s.port p).seq := by
  unfold State.makeMove
  dsimp only
  split
  · rfl
  · obtain ⟨w, hw, -⟩ := handDown_port s p (.lensGoto ((s.port p).lens.movedTargets goto))
    rw [State.updLens_port_seq, hw]

/-- R162: a LENS step whose preset can be read moves to it. -/
theorem lensStep_moves {i : Fin 64} {c : Preset} {targets : PerAxis (Option Nat)} {allowance : Option Nat}
    (hw : s.presets.writing (.preset i) = false) (hc : s.presets.preset i = some c) (hport : c.port = none ∨ c.port = some p) :
    s.lensStep p (some i.val) targets allowance =
      (s.makeMove p c.targets (allowance.getD c.settle) (s.port p).seq.starter, true) := by
  simp only [State.lensStep, presetNo_of_lt, hw, hc, if_pos hport, Bool.false_eq_true, if_false]

/-- R162: a LENS step whose preset is EMPTY or of another port ends the run. -/
theorem lensStep_missing {i : Fin 64} {targets : PerAxis (Option Nat)} {allowance : Option Nat}
    (hw : s.presets.writing (.preset i) = false)
    (hc : ∀ c, s.presets.preset i = some c → ∃ q, c.port = some q ∧ q ≠ p) :
    s.lensStep p (some i.val) targets allowance = (s.endRun p .presetMissing { preset := some i.val }, false) := by
  simp only [State.lensStep, presetNo_of_lt, hw, Bool.false_eq_true, if_false]
  cases h : s.presets.preset i with
  | none => rfl
  | some c =>
    obtain ⟨q, hq, hne⟩ := hc c h
    exact if_neg (by simp [hq, hne])

theorem seqStoreDone_of_waiting {i : Fin 64} {st : Step} {targets : PerAxis (Option Nat)} {allowance : Option Nat}
    (hs : (s.port p).seq.inPhase .storeWait = true) (hst : (s.port p).seq.currentStep = some st)
    (hk : st.kind = .lens (some i.val) targets allowance) :
    s.seqStoreDone p i = State.afterStart (s.lensStep p (some i.val) targets allowance) p := by
  simp [State.seqStoreDone, hs, hst, hk]

theorem settingsWrite_iff {st : PresetStore} : st.settingsWrite = true ↔
    ∃ w, st.write = some w ∧ (w.kind = .writeProfile ∨ w.kind = .writeCell ∨ w.kind = .lockPreset) := by
  unfold PresetStore.settingsWrite
  cases st.write with
  | none => simp
  | some w => cases hk : w.kind <;> simp [hk]

theorem settingsWrite_eq_false {st : PresetStore}
    (h : ∀ w, st.write = some w → w.kind = .writePreset ∨ w.kind = .erasePreset) : st.settingsWrite = false := by
  rw [← Bool.not_eq_true, settingsWrite_iff]
  rintro ⟨w, hw, hk⟩
  rcases h w hw with h | h <;> simp [h] at hk

theorem takeWritePreset_refused {f : PresetFields} (h : 63 < f.number ∨ (7 < f.port ∧ f.port ≠ 255) ∨ 2000 < f.settle) :
    s.takeWritePreset m f = ({ result := .badRange, clamped := f.clamps }, s) := by
  unfold State.takeWritePreset
  split
  · rename_i i port hno hport
    refine if_pos ?_
    rcases h with h | ⟨h, hne⟩ | h
    · rw [presetNo_of_gt h] at hno
      cases hno
    · rw [presetPort, if_neg hne, portOf_eq_none h] at hport
      cases hport
    · exact h
  · rfl

/-- Settles O47. -/
theorem storeWritesCompleteAndLocksHold : Obligations.StoreWritesCompleteAndLocksHold := by
  refine ⟨fun s w hw hq hs => ?_, fun s w i x ok p st allowance targets hw hrec hcon hvalid hothers hs hst hk hchain hup hroom => ?_,
    fun s m e => ?_⟩
  · have hexec : ∀ ok, exec (.storeWriteComplete ok) s = .next (s.writeDone w ok) := fun ok => by
      rw [exec_storeWriteComplete hw, completeWrite_quiet hq hs]
    refine ⟨⟨_, hexec false, rfl⟩, fun i x hr hc => ?_, fun p x hr hc => ?_, fun x hr hc => ?_⟩ <;>
      obtain ⟨record, kind, writer, content, start⟩ := w <;> cases hr <;> cases hc
    · exact ⟨_, hexec true, rfl, vector_get_set_self .., fun j hj => vector_get_set_of_ne _ _ (Ne.symm hj)⟩
    · exact ⟨(s.updPresets fun st => { st with write := none, profiles := st.profiles.set p ⟨true, x⟩ }).updPort p
          fun r => { r with profile := x }, hexec true, updPort_sameBut .., State.updPort_port_self .., rfl,
        vector_get_set_self .., fun q hq => vector_get_set_of_ne _ _ (Ne.symm hq)⟩
    · exact ⟨{ s with
          presets := { s.presets with write := none, cell := ⟨true, x⟩ }
          mgr := { s.mgr with budget := x.budget, stagger := x.stagger }
          lines := Vector.ofFn fun l => { s.lines.get l with settings := x.lines.get l } }, hexec true, rfl,
        fun l => Vector.getElem_ofFn ..⟩
  · have hdone : s.writeDone w ok = { s with
        presets := { s.presets with
          write := none, fault := s.presets.fault || !ok
          presets := if ok = true then s.presets.presets.set i ⟨true, x⟩ else s.presets.presets }
        masters := (s.notify w.writer false (.storeDone w.record w.kind ok (s.presets.fault || !ok))).masters } := by
      rw [writeDone_preset hrec hcon]
      obtain ⟨record, kind, writer, content, start⟩ := w
      cases hrec
      cases hcon
      cases ok <;> simp only [Bool.not_true, Bool.not_false, Bool.or_false, Bool.or_true] <;> rfl
    refine ⟨s.writeDone w ok, hdone, ?_⟩
    have hport : ∀ q, (s.writeDone w ok).port q = s.port q := fun q => by rw [hdone]; rfl
    have hwriting : (s.writeDone w ok).presets.writing (.preset i) = false := by rw [hdone]; rfl
    have hpreset : (s.writeDone w ok).presets.preset i = if ok = true then x else none := by
      rw [hdone, preset_eq]
      cases ok with
      | true => simp
      | false => simp [hvalid]
    have hexec : exec (.storeWriteComplete ok) s = .next (State.afterStart
        ((s.writeDone w ok).lensStep p (some i.val) targets allowance) p) := by
      rw [exec_storeWriteComplete hw, completeWrite_preset hrec hcon,
        seqStoreDone_round (p := p) fun q hq => by rw [hport]; exact hothers q hq,
        seqStoreDone_of_waiting (by rw [hport]; exact hs) (by rw [hport]; exact hst) hk]
    generalize s.writeDone w ok = v at hport hwriting hpreset hexec
    refine ⟨fun c hok hx hcport => ?_, fun hno => ?_⟩
    · rw [lensStep_moves hwriting (by rw [hpreset, if_pos hok, hx]) hcport, hport] at hexec
      refine ⟨_, _, makeMove_moves v p c.targets _ _ (by rw [hport]; exact hup) (by rw [hport]; exact hroom), ?_, hexec⟩
      exact completeStep_ended (by rw [makeMove_seq, hport]; exact hst) hchain
    · rw [lensStep_missing hwriting fun c hc => ?_] at hexec
      · exact ⟨_, endRun_ended .., hexec⟩
      · rw [hpreset] at hc
        rcases hno with rfl | rfl | ⟨d, q, rfl, hq, hne⟩
        · simp at hc
        · simp at hc
        · obtain ⟨-, rfl⟩ : ok = true ∧ d = c := by simpa using hc
          exact ⟨q, hq, hne⟩
  · refine ⟨fun l f hr hl hparse hbad => ?_, fun n r f clamps hr hparse hn => ?_, fun n hn => ⟨fun hr => ?_, fun action hr ha => ?_⟩,
      fun r f clamps hr hparse hlow hwrite hfault hdown => ?_, fun i action hr ha hwrite hfault hdown => ?_, fun hr => ⟨fun hdown => ?_,
      fun w hdown hwrite hk => ?_, fun hdown hwrite => ?_⟩, fun hr => ?_⟩
    · refine exec_request_fits (congrArg Host.Outcome.next (ofRecord_of_next hr.1 hl)) hr (by rw [hparse]; rfl) ?_
      rw [hparse, ← presetClamps_eq]
      exact takeWritePreset_refused hbad
    · refine exec_request_fits rfl hr (by rw [hparse]; rfl) ?_
      rw [hparse]
      dsimp only
      rw [portOf_eq_none hn]
    · refine exec_request_fits rfl hr rfl ?_
      rw [presetNo_of_gt hn]
      rfl
    · refine exec_request_fits rfl hr (decide_eq_true ha) ?_
      rw [presetNo_of_gt hn]
      rfl
    · refine exec_request_fits rfl hr (by rw [hparse]; rfl) ?_
      rw [hparse]
      have hnone := (writeRefusal_cases s.presets .writeCell .cell).2.2.2.2 hwrite hfault (fun _ => hdown) (by simp)
      exact if_pos ⟨hnone, hlow⟩
    · have hnone := (writeRefusal_cases s.presets .lockPreset (.preset i)).2.2.2.2 hwrite hfault (fun _ => hdown) (by simp)
      refine ⟨fun hp => exec_request_fits rfl hr (decide_eq_true ha) ?_, fun r hp hlock =>
        exec_request_fits rfl hr (decide_eq_true ha) ?_⟩
      · rw [presetNo_of_lt]
        simp only [State.takeLock, taken_presets, hnone, hp]
        rfl
      · rw [presetNo_of_lt]
        simp only [State.takeLock, taken_presets, hnone, hp]
        exact if_pos hlock
    · exact congrArg Host.Outcome.next (takeRequest_answers hr (if_pos hdown))
    · refine congrArg Host.Outcome.next (takeRequest_answers hr ((if_neg ?_).trans (if_pos ?_)))
      · simp [hdown]
      · exact settingsWrite_iff.mpr ⟨w, hwrite, hk⟩
    · refine congrArg Host.Outcome.next (takeRequest_answers hr ((if_neg ?_).trans (if_neg ?_)))
      · simp [hdown]
      · rw [taken_presets, settingsWrite_eq_false hwrite]
        exact Bool.false_ne_true
    · exact congrArg Host.Outcome.next (takeRequest_answers hr rfl)

end Sys2Proof.Machine

end


section
/-! PROOFS. LOAD_SEQUENCE and the faults of a step list (8.2). -/

namespace Sys2Proof.Machine

variable {s t u : State} {p q : Port} {m : Master} {e : RequestEntry} {n i : Nat} {l : List Step} {st : Step} {why : LoadReason}

/-! ## The faults of one step (R155, R156) -/

/-- R156: the reasons a step is judged by, in their order. -/
def stepReasons : List LoadReason := [.chain, .flag, .range, .size, .lensSource]

/-- Whether a step has a fault; `last` says whether it is the last of its list. -/
def Step.faulty (last : Bool) (st : Step) : LoadReason → Bool
  | .count => false
  | .chain => st.chain == last
  | .flag => (st.lenient || st.discard) && !st.kind.isTrigger
  | .range => !st.kind.inRange
  | .size => !st.kind.sizeOk
  | .lensSource => !st.kind.lensSourceOk

theorem find?_cons_eq_ite {α : Type} (f : α → Bool) (a : α) (l : List α) :
    (a :: l).find? f = if f a then some a else l.find? f := by
  cases h : f a <;> simp [h]

theorem failure_eq_find (last : Bool) (st : Step) : st.failure last = stepReasons.find? (st.faulty last) := by
  simp only [stepReasons, find?_cons_eq_ite, List.find?_nil]
  rfl

theorem within_iff {a b v : Nat} : within a b v = true ↔ a ≤ v ∧ v ≤ b := by simp [within]

theorem optWithin_eq_false_iff {a b : Nat} {x : Option Nat} :
    optWithin a b x = false ↔ ∃ v, x = some v ∧ (v < a ∨ b < v) := by
  cases x with
  | none => simp [optWithin]
  | some v =>
    rw [optWithin, ← Bool.not_eq_true, within_iff]
    simp only [Option.some.injEq, exists_eq_left']
    omega

theorem within_eq_false_iff {a b v : Nat} : within a b v = false ↔ v < a ∨ b < v := by
  rw [← Bool.not_eq_true, within_iff]
  omega

/-- R155: the parameters out of range, kind by kind. -/
theorem faulty_range_iff (last : Bool) : st.faulty last .range = true ↔ StepFault n i st .range := by
  obtain ⟨kind, chain, hold, note, lenient, discard⟩ := st
  simp only [Step.faulty, StepFault, Bool.not_eq_true']
  cases kind with
  | lens preset targets allowance =>
    simp only [StepKind.inRange, Bool.and_eq_false_iff, Bool.not_eq_false', any_iff, Bool.not_eq_true', optWithin_eq_false_iff,
      Nat.not_lt_zero, false_or, or_assoc]
  | settle timeout => exact within_eq_false_iff
  | await line timeout =>
    simp only [StepKind.inRange, Bool.and_eq_false_iff, Bool.or_eq_false_iff, within_eq_false_iff, beq_eq_false_iff_ne, Nat.not_lt_zero,
      false_or]
    omega
  | trigger exposure lines width close =>
    simp only [StepKind.inRange, Bool.and_eq_false_iff, within_eq_false_iff, optWithin_eq_false_iff, beq_eq_false_iff_ne, or_assoc,
      ne_eq]
  | dwell time => exact within_eq_false_iff

theorem faulty_size_iff (last : Bool) : st.faulty last .size = true ↔ StepFault n i st .size := by
  obtain ⟨kind, chain, hold, note, lenient, discard⟩ := st
  simp only [Step.faulty, StepFault]
  cases kind with
  | trigger exposure lines width close =>
    rw [StepKind.sizeOk, Bool.not_eq_true', decide_eq_false_iff_not, Nat.not_le]
    rfl
  | lens _ _ _ => simp [StepKind.sizeOk]
  | settle _ => simp [StepKind.sizeOk]
  | await _ _ => simp [StepKind.sizeOk]
  | dwell _ => simp [StepKind.sizeOk]

theorem faulty_lensSource_iff (last : Bool) : st.faulty last .lensSource = true ↔ StepFault n i st .lensSource := by
  obtain ⟨kind, chain, hold, note, lenient, discard⟩ := st
  simp only [Step.faulty, StepFault]
  cases kind with
  | lens preset targets allowance =>
    have htargets : targets.any Option.isSome = true ↔ ∃ (x : Axis) (v : Nat), targets.get x = some v := by
      simp only [any_iff, Option.isSome_iff_exists]
    dsimp only
    rw [← htargets]
    cases preset <;> simp [StepKind.lensSourceOk]
  | settle _ => simp [StepKind.lensSourceOk]
  | await _ _ => simp [StepKind.lensSourceOk]
  | trigger _ _ _ _ => simp [StepKind.lensSourceOk]
  | dwell _ => simp [StepKind.lensSourceOk]

theorem faulty_iff (hi : i < n) : st.faulty (decide (i + 1 = n)) why = true ↔ StepFault n i st why := by
  cases why with
  | count => simp [Step.faulty, StepFault]
  | chain =>
    have hlast : i + 1 < n ↔ ¬ i + 1 = n := by omega
    simp only [Step.faulty, StepFault, hlast]
    cases st.chain <;> simp
  | flag => simp [Step.faulty, StepFault]
  | range => exact faulty_range_iff _
  | size => exact faulty_size_iff _
  | lensSource => exact faulty_lensSource_iff _

/-- R156: the first failing reason of a step. -/
theorem failure_eq_some_iff (hi : i < n) : st.failure (decide (i + 1 = n)) = some why ↔
    StepFault n i st why ∧ ∃ before after, stepReasons = before ++ why :: after ∧ ∀ w ∈ before, ¬ StepFault n i st w := by
  rw [failure_eq_find, List.find?_eq_some_iff_append, faulty_iff hi]
  simp only [Bool.not_eq_true', ← Bool.not_eq_true, faulty_iff hi]

theorem failure_eq_none_iff (hi : i < n) : st.failure (decide (i + 1 = n)) = none ↔ ∀ w, ¬ StepFault n i st w := by
  rw [failure_eq_find, List.find?_eq_none]
  simp only [faulty_iff hi]
  refine ⟨fun h w => ?_, fun h w _ => h w⟩
  cases w with
  | count => exact id
  | _ => exact h _ (by decide)

/-! ## The first failing step (R156) -/

/-- The head of a list is its last step where no other follows. -/
theorem isEmpty_eq_last (st : Step) (rest : List Step) : rest.isEmpty = decide (0 + 1 = (st :: rest).length) := by
  cases rest <;> simp

theorem last_succ (st : Step) (rest : List Step) (j : Nat) :
    decide (j + 1 + 1 = (st :: rest).length) = decide (j + 1 = rest.length) := by
  simp

theorem stepsFailure_eq_none_iff : ∀ (l : List Step) (k : Nat), stepsFailure k l = none ↔
    ∀ (j : Nat) (st : Step), l[j]? = some st → st.failure (decide (j + 1 = l.length)) = none
  | [], _ => by simp [stepsFailure]
  | x :: rest, k => by
    have ih := stepsFailure_eq_none_iff rest (k + 1)
    rw [stepsFailure, isEmpty_eq_last x rest]
    cases hx : x.failure (decide (0 + 1 = (x :: rest).length)) with
    | some w =>
      refine ⟨fun h => (nomatch h), fun h => ?_⟩
      rw [h 0 x rfl] at hx
      cases hx
    | none =>
      refine ih.trans ⟨fun h j st hst => ?_, fun h j st hst => ?_⟩
      · cases j with
        | zero =>
          cases hst
          exact hx
        | succ j =>
          rw [last_succ]
          exact h j st hst
      · rw [← last_succ x rest j]
        exact h (j + 1) st hst

theorem stepsFailure_eq_some_iff : ∀ (l : List Step) (k : Nat), stepsFailure k l = some (i, why) ↔
    ∃ (j : Nat) (st : Step), i = k + j ∧ l[j]? = some st ∧ st.failure (decide (j + 1 = l.length)) = some why ∧
      ∀ (j' : Nat) (st' : Step), j' < j → l[j']? = some st' → st'.failure (decide (j' + 1 = l.length)) = none
  | [], _ => by simp [stepsFailure]
  | x :: rest, k => by
    have ih := stepsFailure_eq_some_iff rest (k + 1)
    rw [stepsFailure, isEmpty_eq_last x rest]
    cases hx : x.failure (decide (0 + 1 = (x :: rest).length)) with
    | some w =>
      constructor
      · intro h
        cases h
        exact ⟨0, x, rfl, rfl, hx, fun j' st' hj' => absurd hj' (Nat.not_lt_zero _)⟩
      · rintro ⟨j, st, rfl, hst, hfail, hbefore⟩
        cases j with
        | zero =>
          cases hst
          rw [hfail] at hx
          cases hx
          rfl
        | succ j =>
          rw [hbefore 0 x (Nat.succ_pos j) rfl] at hx
          cases hx
    | none =>
      refine ih.trans ⟨?_, ?_⟩
      · rintro ⟨j, st, rfl, hst, hfail, hbefore⟩
        refine ⟨j + 1, st, by omega, hst, by rwa [last_succ], fun j' st' hj' hst' => ?_⟩
        cases j' with
        | zero =>
          cases hst'
          exact hx
        | succ j' =>
          rw [last_succ]
          exact hbefore j' st' (by omega) hst'
      · rintro ⟨j, st, rfl, hst, hfail, hbefore⟩
        cases j with
        | zero =>
          cases hst
          rw [hx] at hfail
          cases hfail
        | succ j =>
          refine ⟨j, st, by omega, hst, by rwa [last_succ] at hfail, fun j' st' hj' hst' => ?_⟩
          rw [← last_succ x rest j']
          exact hbefore (j' + 1) st' (by omega) hst'

theorem lt_of_getElem? {α : Type} {l : List α} {j : Nat} {x : α} (h : l[j]? = some x) : j < l.length :=
  (List.getElem?_eq_some_iff.mp h).1

/-- R156: a list of 1 to 16 steps is judged step by step. -/
theorem loadFailure_of_count (h : 1 ≤ l.length ∧ l.length ≤ 16) : loadFailure l = stepsFailure 0 l := by
  have hempty : l.isEmpty = false := by
    rw [List.isEmpty_eq_false_iff, ← List.length_pos_iff]
    omega
  have hlong : decide (16 < l.length) = false := decide_eq_false (by omega)
  simp [loadFailure, hempty, hlong]

theorem loadFailure_of_wrong_count (h : l.length = 0 ∨ 16 < l.length) : loadFailure l = some (0, .count) := by
  refine if_pos ?_
  rcases h with h | h
  · simp [List.length_eq_zero_iff.mp h]
  · simp [h]

theorem loadFailure_eq_none_iff : loadFailure l = none ↔ 1 ≤ l.length ∧ l.length ≤ 16 ∧
    ∀ (j : Nat) (st : Step), l[j]? = some st → ∀ w, ¬ StepFault l.length j st w := by
  by_cases h : 1 ≤ l.length ∧ l.length ≤ 16
  · rw [loadFailure_of_count h, stepsFailure_eq_none_iff]
    refine ⟨fun hall => ⟨h.1, h.2, fun j st hst => ?_⟩, fun ⟨_, _, hall⟩ j st hst => ?_⟩
    · exact (failure_eq_none_iff (lt_of_getElem? hst)).mp (hall j st hst)
    · exact (failure_eq_none_iff (lt_of_getElem? hst)).mpr (hall j st hst)
  · rw [loadFailure_of_wrong_count (by omega)]
    exact ⟨fun h => (nomatch h), fun ⟨h1, h2, _⟩ => absurd ⟨h1, h2⟩ h⟩

theorem loadFailure_eq_some_iff : loadFailure l = some (i, why) ↔
    ((l.length = 0 ∨ 16 < l.length) ∧ i = 0 ∧ why = .count) ∨
    (1 ≤ l.length ∧ l.length ≤ 16 ∧
      (∀ (j : Nat) (st : Step) (w : LoadReason), j < i → l[j]? = some st → ¬ StepFault l.length j st w) ∧
      ∃ st before after, l[i]? = some st ∧ StepFault l.length i st why ∧ stepReasons = before ++ why :: after ∧
        ∀ w ∈ before, ¬ StepFault l.length i st w) := by
  by_cases h : 1 ≤ l.length ∧ l.length ≤ 16
  · rw [loadFailure_of_count h, stepsFailure_eq_some_iff]
    constructor
    · rintro ⟨j, st, hi, hst, hfail, hbefore⟩
      rw [Nat.zero_add] at hi
      subst hi
      obtain ⟨hfault, before, after, hreasons, hnone⟩ := (failure_eq_some_iff (lt_of_getElem? hst)).mp hfail
      refine .inr ⟨h.1, h.2, fun j' st' w hj' hst' => ?_, st, before, after, hst, hfault, hreasons, hnone⟩
      exact (failure_eq_none_iff (lt_of_getElem? hst')).mp (hbefore j' st' hj' hst') w
    · rintro (⟨hcount, -⟩ | ⟨-, -, hnone, st, before, after, hst, hfault, hreasons, hbefore⟩)
      · omega
      · refine ⟨i, st, (Nat.zero_add i).symm, hst,
          (failure_eq_some_iff (lt_of_getElem? hst)).mpr ⟨hfault, before, after, hreasons, hbefore⟩, fun j' st' hj' hst' => ?_⟩
        exact (failure_eq_none_iff (lt_of_getElem? hst')).mpr fun w => hnone j' st' w hj' hst'
  · have hcount : l.length = 0 ∨ 16 < l.length := by omega
    rw [loadFailure_of_wrong_count hcount]
    constructor
    · intro h
      cases h
      exact .inl ⟨hcount, rfl, rfl⟩
    · rintro (⟨-, rfl, rfl⟩ | ⟨h1, h2, -⟩)
      · rfl
      · exact absurd ⟨h1, h2⟩ h

/-! ## A list without a fault (R155) -/

/-- The five reasons of a step, one by one. -/
theorem forall_stepFault_iff : (∀ w, ¬ StepFault n i st w) ↔
    ¬ StepFault n i st .chain ∧ ¬ StepFault n i st .flag ∧ ¬ StepFault n i st .range ∧ ¬ StepFault n i st .size ∧
      ¬ StepFault n i st .lensSource := by
  refine ⟨fun h => ⟨h _, h _, h _, h _, h _⟩, fun ⟨h1, h2, h3, h4, h5⟩ w => ?_⟩
  cases w with
  | count => exact id
  | chain => exact h1
  | flag => exact h2
  | range => exact h3
  | size => exact h4
  | lensSource => exact h5

theorem not_flag_iff : ¬ StepFault n i st .flag ↔ (st.lenient = true ∨ st.discard = true → st.kind.isTrigger = true) := by
  simp only [StepFault, not_and, Bool.not_eq_false]

section
variable {chain hold note lenient discard : Bool}

theorem lens_sound_iff {preset : Option Nat} {targets : PerAxis (Option Nat)} {allowance : Option Nat}
    (hst : st = ⟨.lens preset targets allowance, chain, hold, note, lenient, discard⟩) :
    (¬ StepFault n i st .range ∧ ¬ StepFault n i st .size ∧ ¬ StepFault n i st .lensSource) ↔
    (∀ v, preset = some v → v ≤ 63) ∧ (∀ (x : Axis) (v : Nat), targets.get x = some v → v ≤ 4095) ∧
      (∀ v, allowance = some v → v ≤ 2000) ∧
      ((preset = none ∧ ∃ (x : Axis) (v : Nat), targets.get x = some v) ∨ (preset ≠ none ∧ ∀ x : Axis, targets.get x = none)) := by
  have hnone : (∀ x : Axis, targets.get x = none) ↔ ¬ ∃ (x : Axis) (v : Nat), targets.get x = some v := by
    simp only [not_exists, Option.eq_none_iff_forall_not_mem, Option.mem_def]
  have hsource : ¬ (preset ≠ none ↔ ∃ (x : Axis) (v : Nat), targets.get x = some v) ↔
      (preset = none ∧ ∃ (x : Axis) (v : Nat), targets.get x = some v) ∨ (preset ≠ none ∧ ∀ x : Axis, targets.get x = none) := by
    rw [hnone]
    by_cases hp : preset = none <;> by_cases ht : ∃ (x : Axis) (v : Nat), targets.get x = some v <;> simp [hp, ht]
  subst hst
  simp only [StepFault, not_or, not_exists, not_and, Nat.not_lt, not_false_eq_true, true_and, hsource, and_assoc]

theorem trigger_sound_iff {exposure : Option Nat} {lines width : Nat} {close : Option Nat}
    (hst : st = ⟨.trigger exposure lines width close, chain, hold, note, lenient, discard⟩) :
    (¬ StepFault n i st .range ∧ ¬ StepFault n i st .size ∧ ¬ StepFault n i st .lensSource) ↔
    (∀ v, exposure = some v → 10 ≤ v ∧ v ≤ 1000000) ∧ 1 ≤ lines ∧ lines ≤ 16384 ∧ 16 ≤ width ∧ width ≤ 32768 ∧
      width % 16 = 0 ∧ (∀ v, close = some v → 10 ≤ v ∧ v ≤ 60000) ∧ lines * width ≤ 67108864 := by
  subst hst
  simp only [StepFault, not_or, not_exists, not_and, Nat.not_lt, not_false_eq_true, and_true, Classical.not_not, and_assoc]

end

/-! ## What a list reserves (R157) -/

theorem pageCountOf_eq (l : List Step) : pageCountOf l = (l.map Step.pages).sum := rfl

theorem recordCountOf_eq : ∀ l : List Step, recordCountOf l = (l.filter (fun st => st.kind.isTrigger && !st.discard)).length
  | [] => rfl
  | st :: rest => by
    have ih := recordCountOf_eq rest
    simp only [recordCountOf, List.map_cons, List.sum_cons, Step.records] at ih ⊢
    rw [ih, List.filter_cons]
    split
    · rw [List.length_cons, Nat.add_comm]
    · rw [Nat.zero_add]

/-- Settles O48. -/
theorem sequencesLoad : Obligations.SequencesLoad := by
  refine ⟨fun s m e body n l hr hbody hparse => ?_, fun l => ?_, fun l i why => ?_⟩
  · have hexec : ∀ a t, (s.taken m).takeLoad m n l = (a, t) → exec (.loadSequence m body) s = .next (t.reply m e a) := by
      intro a t h
      refine exec_request_fits (congrArg Host.Outcome.next (ofRecord_of_next hr.1 hbody)) hr (by rw [hparse]; rfl) ?_
      rw [hparse]
      exact h
    refine ⟨fun hn => hexec _ _ ?_, fun p hp => ⟨fun ha => hexec _ _ ?_, fun i why ha hfail => hexec _ _ ?_,
      fun pages records ha hfail hpages hrecords => ?_⟩⟩
    · simp only [State.takeLoad, portOf_eq_none hn]
      rfl
    · simp only [State.takeLoad, hp, taken_port, ha, if_true]
      rfl
    · simp only [State.takeLoad, hp, taken_port, ha, hfail, Bool.false_eq_true, if_false]
    · have hp' : pages = pageCountOf l := by
        rw [hpages, pageCountOf]
        refine congrArg List.sum (List.map_congr_left fun st _ => ?_)
        obtain ⟨kind, chain, hold, note, lenient, discard⟩ := st
        cases kind <;> rfl
      subst hp'
      rw [← recordCountOf_eq] at hrecords
      subst hrecords
      refine ⟨(s.taken m).updSeq p (SeqCtx.load m l), hexec _ _ ?_, updPort_sameBut .., State.updPort_port_self ..⟩
      simp only [State.takeLoad, hp, taken_port, ha, hfail, Bool.false_eq_true, if_false]
  · rw [loadFailure_eq_none_iff]
    refine and_congr_right fun _ => and_congr_right fun _ => forall_congr' fun i => forall_congr' fun st =>
      imp_congr_right fun hst => ?_
    rw [forall_stepFault_iff]
    refine and_congr Classical.not_not (and_congr not_flag_iff ?_)
    obtain ⟨kind, chain, hold, note, lenient, discard⟩ := st
    cases kind with
    | lens preset targets allowance => exact lens_sound_iff rfl
    | settle timeout => simp [StepFault]
    | await line timeout => simp [StepFault]
    | trigger exposure lines width close => exact trigger_sound_iff rfl
    | dwell time => simp [StepFault, Nat.one_le_iff_ne_zero]
  · exact loadFailure_eq_some_iff

end Sys2Proof.Machine

end


section
/-! PROOFS. The capture sequences (chapter 8): the start of steps and runs, their restarts and their requests. -/

namespace Sys2Proof.Machine

variable {s t u v : State} {p q : Port} {m : Master} {e : RequestEntry} {n i : Nat} {st : Step} {w : List DownPacket} {c : SeqCtx}

/-! ## The start of a step (R160 to R170) -/

theorem currentStep_eq {l : List Step} (hl : c.steps = some l) (hi : c.index = some i) : c.currentStep = l[i]? := by
  simp [SeqCtx.currentStep, hl, hi]

/-- R161: the context of a step that starts. -/
def SeqCtx.stepRuns (c : SeqCtx) : SeqCtx := { c with state := .running, phase := none, deadline := none }

/-- R177: the NOTE of a step that asks for one, to the starter. -/
def State.stepNoted (s : State) (p : Port) (st : Step) : State :=
  if st.note then s.seqEvent p false .note (s.port p).seq.index else s

/-- R161: the state a step starts from. -/
def State.stepStarted (s : State) (p : Port) (st : Step) : State := (s.updSeq p SeqCtx.stepRuns).stepNoted p st

theorem stepNoted_same (s : State) (p : Port) (st : Step) : SameButMasters s (s.stepNoted p st) := by
  unfold State.stepNoted
  split
  · exact seqEvent_same ..
  · exact SameButMasters.refl s

theorem stepStarted_of_silent (h : st.note = false) : s.stepStarted p st = s.updSeq p SeqCtx.stepRuns := by
  simp [State.stepStarted, State.stepNoted, h]

theorem stepStarted_only (s : State) (p : Port) (st : Step) : SameOutside s (s.stepStarted p st) p :=
  (updPort_sameBut ..).outside.trans ((stepNoted_same ..).only p).1

theorem stepStarted_store (s : State) (p : Port) (st : Step) : (s.stepStarted p st).store = s.store :=
  (stepNoted_same ..).2.2.2.2.2.1

/-- What a step's wait makes of its port: the packets waiting then, and the context. -/
def StepWaits (now : Time) (r : PortRec) (st : Step) (w : List DownPacket) (c : SeqCtx) : Prop :=
  (∃ time, st.kind = .dwell time ∧ w = r.waiting ∧
    c = { r.seq with state := .running, phase := some .dwelling, deadline := some (now + time * 1000) }) ∨
  (∃ l time, st.kind = .await l time ∧ w = r.waiting ∧
    c = { r.seq with
      state := .running, phase := some .awaiting, deadline := if time = 0 then none else some (now + time * 1000) }) ∨
  (∃ ex lines width close, st.kind = .trigger ex lines width close ∧
    ((r.intake.state = .filling ∧ w = r.waiting ∧
        c = { r.seq with state := .running, phase := some .intakeWait, deadline := none }) ∨
      (r.intake.state ≠ .filling ∧ r.link.state = .up ∧ r.waiting.length < 16 ∧ w = r.waiting ++ [.trigger ex] ∧
        c = { r.seq with state := .running, phase := some .openWait, deadline := some (now + close.getD 1000 * 1000) })))

theorem stepStarted_port (s : State) (p : Port) (st : Step) :
    (s.stepStarted p st).port p = { s.port p with seq := (s.port p).seq.stepRuns } :=
  ((stepNoted_same _ p st).1 p).trans (s.updPort_port_self ..)

/-- A step that waits does so in its port's record alone, beside its NOTE. -/
theorem startStep_waits (h : StepWaits s.now (s.port p) st w c) : ∃ f : PortRec → PortRec,
    s.startStep p st = ((s.stepStarted p st).updPort p f, false) ∧
    f ((s.stepStarted p st).port p) = { s.port p with waiting := w, seq := c } := by
  have hport := stepStarted_port s p st
  have hnow : (s.stepStarted p st).now = s.now := (stepNoted_same _ p st).2.1
  have hstart : s.startStep p st = (match st.kind with
      | .lens preset targets allowance => (s.stepStarted p st).lensStep p preset targets allowance
      | .settle timeout => (s.stepStarted p st).settleStep p timeout
      | .await _ timeout => ((s.stepStarted p st).updSeq p
          (SeqCtx.waitIn .awaiting (if timeout = 0 then none else some ((s.stepStarted p st).now + ms timeout))), false)
      | .trigger exposure _ _ close =>
        if ((s.stepStarted p st).port p).intake.state = .filling then
          ((s.stepStarted p st).updSeq p (SeqCtx.waitIn .intakeWait none), false)
        else ((s.stepStarted p st).handTrigger p exposure (closeTimeoutOf close), false)
      | .dwell time => ((s.stepStarted p st).updSeq p
          (SeqCtx.waitIn .dwelling (some ((s.stepStarted p st).now + ms time))), false)) := rfl
  rw [hstart]
  rcases h with ⟨time, hk, rfl, rfl⟩ | ⟨l, time, hk, rfl, rfl⟩ | ⟨ex, lines, width, close, hk, h⟩
  · rw [hk]
    exact ⟨_, rfl, by rw [hport, hnow]; rfl⟩
  · rw [hk]
    exact ⟨_, rfl, by rw [hport, hnow]; rfl⟩
  · rw [hk]
    dsimp only
    rcases h with ⟨hfill, rfl, rfl⟩ | ⟨hfill, hup, hroom, rfl, rfl⟩
    · rw [if_pos (by rw [hport]; exact hfill)]
      exact ⟨_, rfl, by rw [hport]; rfl⟩
    · rw [if_neg (by rw [hport]; exact hfill), State.handTrigger, handDown_of_room (.inr (by rw [hport]; exact hup))
        (by rw [hport]; exact hroom), updSeq_eq, updPort_updPort]
      exact ⟨_, rfl, by rw [hport, hnow]; rfl⟩

/-! ## The entry of a step (R160) -/

theorem enterSteps_of_hold (hst : (s.port p).seq.currentStep = some st) (hh : st.hold = true) :
    s.enterSteps p = (s.updSeq p (fun c => { c with state := .held, phase := some .before, deadline := none })).seqEvent p false .held
      (s.port p).seq.index := by
  simp [State.enterSteps, State.enterStep, hst, hh]

theorem enterSteps_of_wait (hst : (s.port p).seq.currentStep = some st) (hh : st.hold = false)
    (h : s.startStep p st = (t, false)) : s.enterSteps p = t := by
  simp [State.enterSteps, State.enterStep, hst, hh, h]

/-- R160: a step without HOLD and NOTE that waits changes its port's record alone. -/
theorem enterSteps_waits (hst : (s.port p).seq.currentStep = some st) (hh : st.hold = false) (hn : st.note = false)
    (h : StepWaits s.now (s.port p) st w c) :
    SameBut s (s.enterSteps p) p ∧ (s.enterSteps p).port p = { s.port p with waiting := w, seq := c } := by
  obtain ⟨f, hstart, hf⟩ := startStep_waits h
  rw [enterSteps_of_wait hst hh hstart, State.updPort_port_self, hf, stepStarted_of_silent hn]
  exact ⟨(updPort_sameBut ..).trans (updPort_sameBut ..), rfl⟩

theorem due_of {f : Phase} {d : Time} (h : (s.port p).seq.inPhase f = true) (hd : (s.port p).seq.deadline = some d) (hnow : d ≤ s.now) :
    (s.port p).seq.due s.now f = true := by
  simp [SeqCtx.due, h, hd, passed, hnow]

theorem due_eq_false {f : Phase} (h : (s.port p).seq.inPhase f = false ∨ ∀ d, (s.port p).seq.deadline = some d → s.now < d) :
    (s.port p).seq.due s.now f = false := by
  rcases h with h | h
  · simp [SeqCtx.due, h]
  · cases hd : (s.port p).seq.deadline with
    | none => simp [SeqCtx.due, hd, passed]
    | some d => simp [SeqCtx.due, hd, passed, h d hd]

/-- Settles O52. -/
theorem stepsCompleteAndFollow : Obligations.StepsCompleteAndFollow := by
  refine ⟨fun s p st d hst hd => ⟨fun hnow => ?_, fun hs hnow => ⟨fun hchain => ?_, fun l i nx time hchain hl hi hnx hh hn hk => ?_⟩⟩,
    fun s p st ex cl lines width hst hk hup hroom => ⟨fun hs hfill => ?_, fun hno => ?_⟩⟩
  · have hdue := due_eq_false (s := s) (p := p) (f := .dwelling) (.inr fun d' hd' => by rw [hd] at hd'; cases hd'; exact hnow)
    simp [exec, execDwellEnd, hdue]
  · exact ⟨_, congrArg Host.Outcome.next (if_pos (due_of hs hd hnow)), completeStep_ended hst hchain⟩
  · have hdue := due_of hs hd hnow
    have hrun : (s.port p).seq.state = .running := by
      simp only [SeqCtx.inPhase, Bool.and_eq_true, decide_eq_true_eq] at hs
      exact hs.1
    have hcomplete : s.completeStep p = ((s.updSeq p SeqCtx.stepDone).updSeq p SeqCtx.advance).enterSteps p := by
      simp [State.completeStep, hst, hchain]
    have hsame : SameBut s ((s.updSeq p SeqCtx.stepDone).updSeq p SeqCtx.advance) p :=
      (updPort_sameBut ..).trans (updPort_sameBut ..)
    have hport : ((s.updSeq p SeqCtx.stepDone).updSeq p SeqCtx.advance).port p =
        { s.port p with seq := (s.port p).seq.stepDone.advance } := by
      rw [updSeq_eq, updSeq_eq, updPort_updPort, State.updPort_port_self]
    generalize (s.updSeq p SeqCtx.stepDone).updSeq p SeqCtx.advance = v at hcomplete hsame hport
    have hindex : (s.port p).seq.stepDone.advance.index = some (i + 1) := by simp [SeqCtx.advance, SeqCtx.stepDone, hi]
    have hcur : (v.port p).seq.currentStep = some nx := by
      rw [hport]
      exact (currentStep_eq (c := (s.port p).seq.stepDone.advance) hl hindex).trans hnx
    obtain ⟨henter, hrec⟩ := enterSteps_waits hcur hh hn (.inl ⟨time, hk, rfl, rfl⟩)
    have hnow : v.now = s.now := hsame.2.1
    refine ⟨_, congrArg Host.Outcome.next ((if_pos hdue).trans hcomplete), hsame.trans henter, ?_⟩
    rw [hrec, hport, hnow]
    simp [SeqCtx.advance, SeqCtx.stepDone, hi, hrun]
  · refine next_updPort (f := fun r => { r with
        waiting := r.waiting ++ [.trigger ex]
        seq := r.seq.waitIn .openWait (some (s.now + ms (closeTimeoutOf cl))) })
      (congrArg Host.Outcome.next ((if_pos ⟨hs, hfill⟩).trans ?_)) rfl
    rw [hst]
    dsimp only
    rw [hk]
    dsimp only
    rw [State.handTrigger, handDown_of_room (.inr hup) hroom, updSeq_eq, updPort_updPort]
  · refine congrArg Host.Outcome.next (if_neg ?_)
    rcases hno with h | h <;> simp [h]

/-! ## The start of a run (R109, R158, R159, R176) -/

/-- R159: the port's record at the start of a run, before its first step. -/
def PortRec.runStarted (m : Master) (now : Time) (period : Option Nat) (r : PortRec) : PortRec :=
  { r with
    lens := if r.lens.holder.isNone then { r.lens with holder := some m, implicit := true } else r.lens
    seq := { r.seq with
      reservedPages := r.seq.pageCount, reservedRecords := r.seq.recordCount, tookHold := r.lens.holder.isNone
      starter := some m, runs := satInc r.seq.runs, lastEdge := none, state := .running, index := some 0, phase := none
      deadline := none, bound := none, period := period.getD r.seq.period
      cadence := period.elim r.seq.cadence (fun t => if t = 0 then none else some (now + ms t)) } }

/-- R159: the state at the start of a run, before its first step. -/
def State.runStarted (s : State) (p : Port) (m : Master) (period : Option Nat) : State :=
  (s.updStore (fun st => st.reserve (s.port p).seq.pageCount (s.port p).seq.recordCount)).updPort p
    (PortRec.runStarted m s.now period)

theorem startRun_eq (s : State) (p : Port) (m : Master) (period : Option Nat) :
    s.startRun p m period = (s.runStarted p m period).enterSteps p := by
  unfold State.startRun State.runStarted
  dsimp only
  refine congrArg (fun x : State => x.enterSteps p) ?_
  cases hfree : (s.port p).lens.holder.isNone <;> cases period <;>
    simp only [if_true, if_false, Bool.false_eq_true, updSeq_eq, updLens_eq, updPort_updPort] <;>
    exact updPort_congr (by simp [PortRec.runStarted, State.updStore_port, hfree])

theorem runStarted_port (s : State) (p : Port) (m : Master) (period : Option Nat) :
    (s.runStarted p m period).port p = (s.port p).runStarted m s.now period := State.updPort_port_self ..

theorem runStarted_outside (s : State) (p : Port) (m : Master) (period : Option Nat) :
    SameOutside s (s.runStarted p m period) p := by
  have hstore : SameOutside s (s.updStore fun st => st.reserve (s.port p).seq.pageCount (s.port p).seq.recordCount) p :=
    (updStore_only ..).1
  exact hstore.trans (updPort_sameBut ..).outside

/-- The record a free lens, or one the caller holds, leaves at a start. -/
theorem runStarted_eq {r : PortRec} {now : Time} {t : Nat} (hfree : r.lens.holder = none ∨ r.lens.holder = some m) :
    r.runStarted m now (some t) = { r with
      lens := { r.lens with holder := some m, implicit := if r.lens.holder = none then true else r.lens.implicit }
      seq := { r.seq with
        reservedPages := r.seq.pageCount, reservedRecords := r.seq.recordCount, tookHold := r.lens.holder.isNone
        starter := some m, runs := satInc r.seq.runs, lastEdge := none, state := .running, index := some 0, phase := none
        deadline := none, bound := none, period := t, cadence := if t = 0 then none else some (now + ms t) } } := by
  obtain ⟨_, _, _, _, _, _, _, _, _, _, ⟨axes, holder, implicit, mover⟩, _⟩ := r
  rcases hfree with h | h <;> cases h <;> rfl

/-- R158, R176: the rows from CAMERA_UNAVAILABLE down. -/
theorem judgeStart_cases (s : State) (p : Port) (m : Master) :
    (((s.port p).link.state ≠ .up ∨ (s.port p).held = true) → s.judgeStart p m = .cameraUnavailable) ∧
    ((s.port p).link.state = .up → (s.port p).held = false →
      ((∃ h, (s.port p).lens.holder = some h ∧ h ≠ m) → s.judgeStart p m = .lensHeld) ∧
      (((s.port p).lens.holder = none ∨ (s.port p).lens.holder = some m) →
        ((s.store.freeList.length - s.store.reservedPages < (s.port p).seq.pageCount ∨
            512 - s.store.frames.length - s.store.reservedRecords < (s.port p).seq.recordCount) →
          s.judgeStart p m = .noSpace) ∧
        ((s.port p).seq.pageCount ≤ s.store.freeList.length - s.store.reservedPages →
          (s.port p).seq.recordCount ≤ 512 - s.store.frames.length - s.store.reservedRecords →
          s.judgeStart p m = .done))) := by
  have hheld : ((s.port p).marks.sweepPending = true ∨ (s.port p).marks.testing = true) ↔ (s.port p).held = true := by
    simp [PortRec.held]
  have hgrants : s.store.grants (s.port p).seq.pageCount (s.port p).seq.recordCount = true ↔
      (s.port p).seq.pageCount ≤ s.store.freeList.length - s.store.reservedPages ∧
      (s.port p).seq.recordCount ≤ 512 - s.store.frames.length - s.store.reservedRecords := by
    simp only [Store.grants, Bool.and_eq_true, decide_eq_true_eq]
    rfl
  unfold State.judgeStart
  simp only [hheld]
  refine ⟨fun h => if_pos h, fun hup hh => ⟨fun hother => ?_, fun hfree => ⟨fun hlow => ?_, fun hpages hrecords => ?_⟩⟩⟩
  · rw [if_neg (by simp [hup, hh]), if_pos (heldByOther_iff.mpr hother)]
  · rw [if_neg (by simp [hup, hh]), heldByOther_eq_false.mpr hfree, if_neg Bool.false_ne_true, if_pos]
    rw [Bool.not_eq_true', ← Bool.not_eq_true, hgrants]
    omega
  · rw [if_neg (by simp [hup, hh]), heldByOther_eq_false.mpr hfree, if_neg Bool.false_ne_true, if_neg]
    rw [Bool.not_eq_true', Bool.not_eq_false, hgrants]
    exact ⟨hpages, hrecords⟩

/-- A change outside which all but the store and the masters' records is as before, in the form the statements give it. -/
theorem SameOutside.sameBut (h : SameOutside s t p) : SameBut { s with store := t.store, masters := t.masters } t p := by
  obtain ⟨h0, h1, h2, h3, h4, h5, h6, h7⟩ := h
  exact ⟨h0, h1, h2, h3, h4, rfl, h5, h6, rfl, h7⟩

theorem notify_masters_congr {b : Bool} {x : NoticeBody} (hm : s.masters = t.masters) (hn : s.now = t.now) :
    (s.notify m b x).masters = (t.notify m b x).masters := by
  show s.masters.set m (((s.masters.get m).offer ⟨b, s.now, x⟩).refreshed m) =
    t.masters.set m (((t.masters.get m).offer ⟨b, t.now, x⟩).refreshed m)
  rw [hm, hn]

/-- R177: a SEQUENCE_EVENT of a context with a starter. -/
theorem seqEvent_of_starter {b : Bool} {x : SeqCause} {i : Option Nat} (h : (s.port p).seq.starter = some m) :
    s.seqEvent p b x i = s.notify m b (.sequenceEvent p x (s.port p).seq.runs i) := by
  simp [State.seqEvent, State.notifyOpt, h]

/-- R177: the records of the masters after the NOTE of a step. -/
theorem stepStarted_masters (h : (s.port p).seq.starter = some m) : (s.stepStarted p st).masters =
    if st.note = true then (s.notify m false (.sequenceEvent p .note (s.port p).seq.runs (s.port p).seq.index)).masters
    else s.masters := by
  have hport : (s.updSeq p SeqCtx.stepRuns).port p = { s.port p with seq := (s.port p).seq.stepRuns } := State.updPort_port_self ..
  unfold State.stepStarted State.stepNoted
  by_cases hn : st.note = true
  · rw [if_pos hn, if_pos hn, seqEvent_of_starter (m := m) (by rw [hport]; exact h), hport]
    exact notify_masters_congr rfl rfl
  · rw [if_neg hn, if_neg hn]
    rfl

/-- R160: a step with HOLD is not started: its context is HELD and the starter is told. -/
theorem enterSteps_held (hst : (s.port p).seq.currentStep = some st) (hh : st.hold = true) (h : (s.port p).seq.starter = some m) :
    ∃ t, SameBut s t p ∧
      t.port p = { s.port p with seq := { (s.port p).seq with state := .held, phase := some .before, deadline := none } } ∧
      s.enterSteps p = t.notify m false (.sequenceEvent p .held (s.port p).seq.runs (s.port p).seq.index) := by
  have hport := s.updPort_port_self p (fun r => { r with seq := { r.seq with state := .held, phase := some .before, deadline := none } })
  refine ⟨_, updPort_sameBut .., hport, ?_⟩
  rw [enterSteps_of_hold hst hh, updSeq_eq, seqEvent_of_starter (m := m) (by rw [hport]; exact h), hport]

theorem periodFits_iff {t : Nat} : periodFits t = true ↔ t = 0 ∨ (10 ≤ t ∧ t ≤ 600000) := by
  simp [periodFits, within]

theorem exec_startSequence {period : Nat} {a : Answer} (hr : Reaches s m .startSequence e) (hp : portOf n = some p)
    (hperiod : period = 0 ∨ (10 ≤ period ∧ period ≤ 600000)) (hstate : (s.port p).seq.state = .ready)
    (hjudge : (s.taken m).judgeStart p m = .done)
    (ha : a = { result := .done
                body := .started (satInc (s.port p).seq.runs) (s.port p).seq.pageCount (s.port p).seq.recordCount
                  (if period = 0 then none else some (s.now + ms period)) }) :
    exec (.startSequence m n period) s = .next ((((s.taken m).runStarted p m (some period)).enterSteps p).reply m e a) := by
  refine congrArg Host.Outcome.next (takeRequest_onPort hr hp ?_)
  have hrefusal : (s.taken m).startRefusal p m = .done := by
    simp [State.startRefusal, SeqCtx.active, hstate, hjudge]
  rw [periodFits_iff.mpr hperiod, hrefusal, startRun_eq, ha]
  rfl

/-- R158: the rows of START_SEQUENCE that refuse. -/
theorem exec_startSequence_refused {period : Nat} {r : Result} (hr : Reaches s m .startSequence e) (hp : portOf n = some p)
    (hrow : (periodFits period = false ∧ r = .badRange) ∨
      (periodFits period = true ∧ (s.taken m).startRefusal p m = r ∧ r ≠ .done)) :
    exec (.startSequence m n period) s = .next (s.answered m e { result := r }) := by
  refine congrArg Host.Outcome.next (takeRequest_onPort hr hp ?_)
  rcases hrow with ⟨h, rfl⟩ | ⟨h, hrefusal, hne⟩
  · rw [h]
    rfl
  · rw [h, hrefusal]
    exact if_pos hne

/-- Settles O49. -/
theorem sequencesStart : Obligations.SequencesStart := by
  rintro s m e n period p c hp hr rfl
  obtain ⟨hunavailable, hjudge⟩ := judgeStart_cases (s.taken m) p m
  refine ⟨fun r hrow => ?_, fun st rest runs deadline c' hperiod hstate hup hheld hfree hpages hrecords hsteps hruns hdeadline hc' => ?_⟩
  · refine exec_startSequence_refused hr hp ?_
    rcases hrow with ⟨h0, hout, rfl⟩ | ⟨hperiod, hrow⟩
    · refine .inl ⟨?_, rfl⟩
      rw [← Bool.not_eq_true, periodFits_iff]
      omega
    · refine .inr ⟨periodFits_iff.mpr hperiod, ?_⟩
      unfold State.startRefusal
      rw [taken_port]
      rcases hrow with ⟨h, rfl⟩ | ⟨h, rfl⟩ | ⟨h, hno, rfl⟩ | ⟨h, hup, hheld, hother, rfl⟩ | ⟨h, hup, hheld, hfree, hlow, rfl⟩
      · exact ⟨if_pos h, by decide⟩
      · rcases h with h | h <;> simp [SeqCtx.active, h]
      · simp [SeqCtx.active, h, hunavailable hno]
      · simp [SeqCtx.active, h, (hjudge hup hheld).1 hother]
      · simp [SeqCtx.active, h, ((hjudge hup hheld).2 hfree).1 hlow]
  · have hexec := exec_startSequence (a := ⟨.done, [], .started runs (s.port p).seq.pageCount (s.port p).seq.recordCount deadline⟩) hr hp hperiod hstate (((hjudge hup hheld).2 hfree).2 hpages hrecords) (by rw [hruns, hdeadline]; rfl)
    have hport : ((s.taken m).runStarted p m (some period)).port p = { s.port p with
        lens := { (s.port p).lens with
          holder := some m
          implicit := if (s.port p).lens.holder = none then true else (s.port p).lens.implicit }
        seq := { c' with phase := none, deadline := none } } := by
      rw [runStarted_port, hc', hruns, hdeadline]
      exact runStarted_eq hfree
    have houtside : SameOutside s ((s.taken m).runStarted p m (some period)) p :=
      ((taken_same s m).only p).1.trans (runStarted_outside ..)
    have hmasters : ((s.taken m).runStarted p m (some period)).masters = (s.taken m).masters := rfl
    have hstore : ((s.taken m).runStarted p m (some period)).store = { s.store with
        reservedPages := s.store.reservedPages + (s.port p).seq.pageCount
        reservedRecords := s.store.reservedRecords + (s.port p).seq.recordCount } := rfl
    refine ⟨_, hexec, fun q waiting told hcase => ?_⟩
    have hnow := houtside.2.1
    generalize (s.taken m).runStarted p m (some period) = v at hport houtside hmasters hstore hnow
    have hstarter : (v.port p).seq.starter = some m := by rw [hport, hc']
    have hindex : (v.port p).seq.index = some 0 := by rw [hport, hc']
    have hvruns : (v.port p).seq.runs = runs := by rw [hport, hc']
    have hcur : (v.port p).seq.currentStep = some st :=
      currentStep_eq (c := (v.port p).seq) (l := st :: rest) (by rw [hport, hc']; exact hsteps) hindex
    rcases hcase with ⟨hh, rfl, rfl, rfl⟩ | ⟨hh, rfl, hk⟩
    · obtain ⟨w, hsame, hw, henter⟩ := enterSteps_held hcur hh hstarter
      have hnotice := notify_same w m false (.sequenceEvent p .held (v.port p).seq.runs (v.port p).seq.index)
      obtain ⟨-, hwnow, -, -, -, hwstore, -, -, hwmasters, -⟩ := id hsame
      rw [henter]
      refine ⟨(houtside.trans (hsame.outside.trans (hnotice.only p).1)).sameBut, ?_, (hnotice.2.2.2.2.2.1.trans hwstore).trans hstore, ?_⟩
      · rw [hvruns, hindex]
        exact notify_masters_congr (hwmasters.trans hmasters) (hwnow.trans hnow)
      · rw [hnotice.1, hw, hport]
    · have hwaits : StepWaits v.now (v.port p) st waiting q := by
        rw [hport, hnow]
        rcases hk with ⟨time, hk, hw, hq⟩ | ⟨l, time, hk, hw, hq⟩ | ⟨ex, lines, width, close, hk, ⟨hfill, hw, hq⟩ | ⟨hfill, hroom, hw, hq⟩⟩
        · exact .inl ⟨time, hk, hw, by rw [hq, hc']⟩
        · exact .inr (.inl ⟨l, time, hk, hw, by rw [hq, hc']⟩)
        · exact .inr (.inr ⟨ex, lines, width, close, hk, .inl ⟨hfill, hw, by rw [hq, hc']⟩⟩)
        · exact .inr (.inr ⟨ex, lines, width, close, hk, .inr ⟨hfill, hup, hroom, hw, by rw [hq, hc']⟩⟩)
      obtain ⟨f, hstart, hf⟩ := startStep_waits hwaits
      rw [enterSteps_of_wait hcur hh hstart]
      refine ⟨(houtside.trans ((stepStarted_only v p st).trans (updPort_sameBut ..).outside)).sameBut, ?_, ?_, ?_⟩
      · show (v.stepStarted p st).masters = _
        rw [stepStarted_masters hstarter, hvruns, hindex]
        split
        · exact notify_masters_congr hmasters hnow
        · exact hmasters
      · exact (stepStarted_store v p st).trans hstore
      · rw [State.updPort_port_self, hf, hport]

/-! ## The cadence (R175, R176) -/

/-- R175: the cadence deadline moved by the period. -/
def SeqCtx.nextCadence (c : SeqCtx) : SeqCtx := { c with cadence := c.cadence.map (fun t => t + ms c.period) }

/-- R175: a cadence event on a port whose deadline has been moved. -/
theorem exec_cadenceDeadline {d : Time} (hd : (s.port p).seq.cadence = some d) (hnow : d ≤ s.now)
    (hv : v = s.updSeq p SeqCtx.nextCadence) : exec (.cadenceDeadline p) s = .next
      (if (s.port p).seq.active then v.cadenceOverrun p
       else if (s.port p).seq.state = .ready ∧ (s.port p).seq.ended.map Prod.fst = some .normal then v.cadenceRestart p else v) := by
  have hport : v.port p = { s.port p with seq := (s.port p).seq.nextCadence } := by rw [hv, updSeq_eq, State.updPort_port_self]
  refine congrArg Host.Outcome.next ((if_pos (by simp [hd, passed, hnow])).trans ?_)
  unfold State.cadenceEvent
  dsimp only
  rw [show (s.updSeq p fun c => { c with cadence := c.cadence.map (fun t => t + ms c.period) }) = v from hv.symm, hport]
  rfl

/-- Settles O53. -/
theorem cadenceRestartsRuns : Obligations.CadenceRestartsRuns := by
  rintro s p d m c rfl hd hm
  refine ⟨fun hnow => ?_, fun hnow => ?_⟩
  · have : passed s.now (s.port p).seq.cadence = false := by simp [hd, passed, hnow]
    simp [exec, execCadenceDeadline, this]
  have hexec := exec_cadenceDeadline hd hnow rfl
  have hport : (s.updSeq p SeqCtx.nextCadence).port p = { s.port p with seq := { (s.port p).seq with
      cadence := some (d + (s.port p).seq.period * 1000) } } := by
    rw [updSeq_eq, State.updPort_port_self, SeqCtx.nextCadence, hd]
    rfl
  have hsame : SameBut s (s.updSeq p SeqCtx.nextCadence) p := updPort_sameBut ..
  have hstore : (s.updSeq p SeqCtx.nextCadence).store = s.store := rfl
  have hnowv : (s.updSeq p SeqCtx.nextCadence).now = s.now := rfl
  generalize s.updSeq p SeqCtx.nextCadence = v at hexec hport hsame hstore hnowv
  have hready : ∀ i, (s.port p).seq.state = .ready → (s.port p).seq.ended = some (.normal, i) →
      exec (.cadenceDeadline p) s = .next (v.cadenceRestart p) := fun i hst hend => by
    rw [hexec, if_neg (by simp [SeqCtx.active, hst]), if_pos ⟨hst, by rw [hend]; rfl⟩]
  obtain ⟨hunavailable, hjudge⟩ := judgeStart_cases v p m
  rw [hport, hstore] at hjudge
  rw [hport] at hunavailable
  refine ⟨fun hrun hover => ?_, fun i why hst hend hskips hwhy => ?_,
    fun i st rest time hst hend hup hheld hfree hpages hrecords hsteps hh hn hk hruns => ?_⟩
  · have hself := v.updPort_port_self p (fun r => { r with seq := { r.seq with overruns := satInc r.seq.overruns } })
    refine ⟨v.updPort p (fun r => { r with seq := { r.seq with overruns := satInc r.seq.overruns } }),
      hsame.trans (updPort_sameBut ..), ?_, ?_⟩
    · rw [hself, hport]
      simp [satInc_eq, hover]
    · have hactive : (s.port p).seq.active = true := by rcases hrun with h | h <;> simp [SeqCtx.active, h]
      rw [hexec, if_pos hactive]
      refine congrArg Host.Outcome.next ((seqEvent_of_starter (m := m) ?_).trans ?_)
      · rw [updSeq_eq, hself, hport]
        exact hm
      · rw [updSeq_eq, hself, hport]
        simp [satInc_eq, hover]
  · have hresult : v.judgeStart p m = why ∧ why ≠ .done := by
      rcases hwhy with ⟨h, rfl⟩ | ⟨hup, hheld, ⟨h, rfl⟩ | ⟨hfree, hlow, rfl⟩⟩
      · exact ⟨hunavailable h, by decide⟩
      · exact ⟨(hjudge hup hheld).1 h, by decide⟩
      · exact ⟨((hjudge hup hheld).2 hfree).1 hlow, by decide⟩
    have hself := v.updPort_port_self p (fun r => { r with seq := { r.seq with skips := satInc r.seq.skips } })
    refine ⟨v.updPort p (fun r => { r with seq := { r.seq with skips := satInc r.seq.skips } }),
      hsame.trans (updPort_sameBut ..), ?_, ?_⟩
    · rw [hself, hport]
      simp [satInc_eq, hskips]
    · rw [hready i hst hend]
      have hstarter : (v.port p).seq.starter = some m := by rw [hport]; exact hm
      simp only [State.cadenceRestart, hstarter, hresult.1, if_neg hresult.2]
      refine congrArg Host.Outcome.next ((seqEvent_of_starter (m := m) ?_).trans ?_)
      · rw [updSeq_eq, hself]
        exact hstarter
      · rw [updSeq_eq, hself, hport]
        simp [satInc_eq, hskips]
  · have hstarter : (v.port p).seq.starter = some m := by rw [hport]; exact hm
    have hdone := ((hjudge hup hheld).2 hfree).2 hpages hrecords
    have hrestart : exec (.cadenceDeadline p) s = .next ((v.runStarted p m none).enterSteps p) := by
      rw [hready i hst hend, State.cadenceRestart, hstarter, ← startRun_eq]
      simp [hdone]
    have hstarted := runStarted_port v p m none
    have hcur : ((v.runStarted p m none).port p).seq.currentStep = some st := by
      rw [hstarted]
      exact currentStep_eq (l := st :: rest) (i := 0) (by rw [hport]; exact hsteps) rfl
    obtain ⟨henter, hrec⟩ := enterSteps_waits hcur hh hn (.inl ⟨time, hk, rfl, rfl⟩)
    have houtside : SameOutside s ((v.runStarted p m none).enterSteps p) p :=
      hsame.outside.trans ((runStarted_outside ..).trans henter.outside)
    obtain ⟨-, hnow', -, -, -, hstore', -, -, hmasters', -⟩ := henter
    obtain ⟨h0, h1, h2, h3, h4, h5, h6, h7⟩ := houtside
    have hmasters : ((v.runStarted p m none).enterSteps p).masters = s.masters :=
      hmasters'.trans hsame.masters_eq
    have hreserve : ((v.runStarted p m none).enterSteps p).store = { s.store with
        reservedPages := s.store.reservedPages + (s.port p).seq.pageCount
        reservedRecords := s.store.reservedRecords + (s.port p).seq.recordCount } := by
      rw [hstore', ← hstore]
      show v.store.reserve (v.port p).seq.pageCount (v.port p).seq.recordCount = _
      rw [hport]
      rfl
    refine ⟨_, hrestart, ⟨h0, h1, h2, h3, h4, rfl, h5, h6, hmasters, h7⟩, hreserve, ?_⟩
    rw [hrec, hstarted, hport]
    have hrnow : (v.runStarted p m none).now = s.now := hnowv
    rcases hfree with h | h <;> simp [PortRec.runStarted, h, satInc_eq, hruns, hrnow, hm]

end Sys2Proof.Machine

end


section
/-! PROOFS. RESUME_SEQUENCE, HALT_SEQUENCE and the step deadlines (8.3 to 8.5). -/

namespace Sys2Proof.Machine

variable {s t u v : State} {p q : Port} {m : Master} {e : RequestEntry} {n i : Nat} {st : Step} {w : List DownPacket} {c : SeqCtx}

/-! ## Steps that move or settle (R162, R164) -/

theorem startStep_lens {preset : Option Nat} {targets : PerAxis (Option Nat)} {allowance : Option Nat} (hn : st.note = false)
    (hk : st.kind = .lens preset targets allowance) :
    s.startStep p st = (s.updSeq p SeqCtx.stepRuns).lensStep p preset targets allowance := by
  rw [← stepStarted_of_silent hn]
  unfold State.startStep
  rw [hk]
  rfl

theorem startStep_settle {timeout : Nat} (hn : st.note = false) (hk : st.kind = .settle timeout) :
    s.startStep p st = (s.updSeq p SeqCtx.stepRuns).settleStep p timeout := by
  rw [← stepStarted_of_silent hn]
  unfold State.startStep
  rw [hk]
  rfl

/-- R162: a LENS step whose preset is being written waits for it. -/
theorem lensStep_writing {i : Fin 64} {targets : PerAxis (Option Nat)} {allowance : Option Nat}
    (hw : s.presets.writing (.preset i) = true) :
    s.lensStep p (some i.val) targets allowance = (s.updSeq p (SeqCtx.waitIn .storeWait none), false) := by
  simp only [State.lensStep, presetNo_of_lt, hw, if_true]

theorem settleStep_stalled {timeout : Nat} (h : ∃ x a, (s.port p).lens.axes.get x = some a ∧ a.motion = .stalled) :
    ∃ x, s.settleStep p timeout = (s.endRun p .lensStalled { axis := some x }, false) := by
  obtain ⟨x, a, ha, hm⟩ := h
  have hmem := mem_stalledAxes.mpr ⟨a, ha, hm⟩
  cases hl : (s.port p).lens.stalledAxes with
  | nil => rw [hl] at hmem; cases hmem
  | cons y rest => exact ⟨y, by simp [State.settleStep, hl]⟩

theorem stalledAxes_eq_nil {l : LensRec} (h : ∀ x a, l.axes.get x = some a → a.motion ≠ .stalled) : l.stalledAxes = [] := by
  rw [List.eq_nil_iff_forall_not_mem]
  intro x hx
  obtain ⟨a, ha, hm⟩ := mem_stalledAxes.mp hx
  exact h x a ha hm

theorem settleStep_still {timeout : Nat} (h : ∀ x a, (s.port p).lens.axes.get x = some a → a.motion = .idle) :
    s.settleStep p timeout = (s, true) := by
  have hstalled := stalledAxes_eq_nil (l := (s.port p).lens) fun x a ha => by rw [h x a ha]; decide
  have hmoving := anyMoving_eq_false (l := (s.port p).lens).mpr fun x a ha => by rw [h x a ha]; decide
  simp [State.settleStep, hstalled, hmoving]

theorem settleStep_moving {timeout : Nat} (hs : ∀ x a, (s.port p).lens.axes.get x = some a → a.motion ≠ .stalled)
    (hm : ∃ x a, (s.port p).lens.axes.get x = some a ∧ a.motion = .moving) :
    s.settleStep p timeout = (s.updSeq p (SeqCtx.waitIn .settling (some (s.now + ms timeout))), false) := by
  simp [State.settleStep, stalledAxes_eq_nil hs, anyMoving_iff.mpr hm]

theorem afterStart_waits (s : State) (p : Port) : State.afterStart (s, false) p = s := rfl

/-! ## RESUME_SEQUENCE (R161) -/

theorem exec_resumeSequence (hr : Reaches s m .resumeSequence e) (hp : portOf n = some p) (hstate : (s.port p).seq.state = .held)
    (hstarter : (s.port p).seq.starter = some m) (hst : (s.port p).seq.currentStep = some st) :
    exec (.resumeSequence m n) s = .next ((State.afterStart ((s.taken m).startStep p st) p).reply m e { result := .done }) := by
  refine congrArg Host.Outcome.next (takeRequest_onPort hr hp ?_)
  simp [hstate, hstarter, State.resume, hst]

/-- A resumed step that waits, without NOTE. -/
theorem exec_resumeSequence_waits (hr : Reaches s m .resumeSequence e) (hp : portOf n = some p)
    (hstate : (s.port p).seq.state = .held) (hstarter : (s.port p).seq.starter = some m)
    (hst : (s.port p).seq.currentStep = some st) (hn : st.note = false) (h : StepWaits s.now (s.port p) st w c) :
    ∃ t : State, exec (.resumeSequence m n) s = .next (t.reply m e { result := .done }) ∧ SameBut (s.taken m) t p ∧
      t.port p = { s.port p with waiting := w, seq := c } := by
  obtain ⟨f, hstart, hf⟩ := startStep_waits (s := s.taken m) (p := p) h
  have hexec := exec_resumeSequence hr hp hstate hstarter hst
  rw [hstart] at hexec
  refine ⟨_, hexec, ?_, ?_⟩
  · rw [stepStarted_of_silent hn]
    exact (updPort_sameBut ..).trans (updPort_sameBut ..)
  · exact (State.updPort_port_self ..).trans hf

/-! ## HALT_SEQUENCE (R171, R172, R177) -/

/-- R172: the notice of an end, its fields read from the record as it stood. -/
theorem endRun_notice {x : EndStatus} {y : EndExtras} (h : (s.port p).seq.starter = some m) : s.endRun p x y =
    (s.runEnded p x).notify m x.urgent (.sequenceEvent p
      (.ended { status := x, holdFreed := (s.port p).lens.implicit && decide ((s.port p).lens.holder = some m), frame := y.frame
                lengths := y.lengths, axis := y.axis, preset := y.preset })
      (s.port p).seq.runs (some ((s.port p).seq.index.getD 0))) := by
  have hport := runEnded_port s p x
  have hstarter : ((s.runEnded p x).port p).seq.starter = some m := by
    rw [hport]
    dsimp only
    split <;> exact h
  have hruns : ((s.runEnded p x).port p).seq.runs = (s.port p).seq.runs := by
    rw [hport]
    dsimp only
    split <;> rfl
  have hlens : (((s.updSeq p (SeqCtx.ending x)).updStore
      (fun st => st.unreserve (s.port p).seq.reservedPages (s.port p).seq.reservedRecords)).port p).lens = (s.port p).lens := by simp
  have hfrees : (s.port p).lens.implicitFor (s.port p).seq.starter =
      ((s.port p).lens.implicit && decide ((s.port p).lens.holder = some m)) := by
    rw [h]
    unfold LensRec.implicitFor
    by_cases hh : (s.port p).lens.holder = some m <;> simp [hh]
  have hend : s.endRun p x y = (s.runEnded p x).seqEvent p x.urgent
      (.ended ⟨x, (((s.updSeq p (SeqCtx.ending x)).updStore (fun st => st.unreserve (s.port p).seq.reservedPages
        (s.port p).seq.reservedRecords)).port p).lens.implicitFor (s.port p).seq.starter, y.frame, y.lengths, y.axis, y.preset⟩)
      (some ((s.port p).seq.index.getD 0)) := rfl
  rw [hend, hlens, hfrees, seqEvent_of_starter hstarter, hruns]

theorem runEnded_now (s : State) (p : Port) (x : EndStatus) : (s.runEnded p x).now = s.now := by
  unfold State.runEnded
  dsimp only
  split <;> split <;> rfl

/-- The end of a run is the same whichever requests stand in the queues. -/
theorem RunEnded.of_taken {x : EndStatus} (h : RunEnded (s.taken m) t p x) : RunEnded s t p x := h

/-- Settles O50. -/
theorem sequencesResumeAndHalt : Obligations.SequencesResumeAndHalt := by
  refine fun s m e n p hp => ⟨fun hr => ⟨fun hstate => ?_, fun hstate hne => ?_, fun st hstate hstarter hst hn => ?_⟩,
    fun hr => ⟨fun ha => ?_, fun ha hne hc => ?_, fun ha hwho => ?_⟩⟩
  · exact congrArg Host.Outcome.next (takeRequest_onPort hr hp (if_pos hstate))
  · exact congrArg Host.Outcome.next (takeRequest_onPort hr hp ((if_neg (not_not_intro hstate)).trans (if_pos hne)))
  · refine ⟨fun time hk => ?_, fun l time hk => ?_, fun ex lines width close hk => ⟨fun hfill => ?_, fun hfill hup hroom => ?_⟩, ?_⟩
    · exact exec_resumeSequence_waits hr hp hstate hstarter hst hn (.inl ⟨time, hk, rfl, rfl⟩)
    · exact exec_resumeSequence_waits hr hp hstate hstarter hst hn (.inr (.inl ⟨l, time, hk, rfl, rfl⟩))
    · exact exec_resumeSequence_waits hr hp hstate hstarter hst hn (.inr (.inr ⟨ex, lines, width, close, hk, .inl ⟨hfill, rfl, rfl⟩⟩))
    · exact exec_resumeSequence_waits hr hp hstate hstarter hst hn
        (.inr (.inr ⟨ex, lines, width, close, hk, .inr ⟨hfill, hup, hroom, rfl, rfl⟩⟩))
    · intro started hstarted
      have hexec := exec_resumeSequence hr hp hstate hstarter hst
      have hsame : SameBut (s.taken m) started p := hstarted ▸ updPort_sameBut ..
      have hport : started.port p = { s.port p with seq := (s.port p).seq.stepRuns } := by
        rw [hstarted, updSeq_eq, State.updPort_port_self]
        rfl
      have hrun : started = (s.taken m).updSeq p SeqCtx.stepRuns := hstarted
      have hpresets : started.presets = s.presets := by rw [hstarted]; rfl
      have hcur : (started.port p).seq.currentStep = some st := by rw [hport]; exact hst
      have hstart : (started.port p).seq.starter = some m := by rw [hport]; exact hstarter
      refine ⟨fun preset targets allowance hk => ?_, fun timeout hk => ?_⟩
      · rw [startStep_lens hn hk, ← hrun] at hexec
        refine ⟨fun hchain hup hroom goto time hgoto => ?_, fun i hi => ⟨fun hw => ?_, fun hw hno => ?_⟩⟩
        · have hmoves := makeMove_moves started p goto time (some m) (by rw [hport]; exact hup) (by rw [hport]; exact hroom)
          refine ⟨_, _, hmoves, completeStep_ended (st := st) (by rw [makeMove_seq]; exact hcur) hchain, ?_⟩
          have hstep : started.lensStep p preset targets allowance = (started.makeMove p goto time (some m), true) := by
            rcases hgoto with ⟨rfl, rfl, rfl⟩ | ⟨i, x, rfl, hw, hx, hxport, rfl, rfl⟩
            · rw [← hstart]
              rfl
            · rw [← hpresets] at hw hx
              rw [lensStep_moves hw hx hxport, hstart]
          rw [hexec, hstep]
          rfl
        · subst hi
          rw [← hpresets] at hw
          rw [lensStep_writing hw, afterStart_waits] at hexec
          exact ⟨_, hexec, hsame.trans (updPort_sameBut ..), by rw [updSeq_eq, State.updPort_port_self, hport]; rfl⟩
        · subst hi
          rw [← hpresets] at hw hno
          rw [lensStep_missing hw fun c hc => ?_] at hexec
          · exact ⟨_, endRun_ended .., hexec⟩
          · rcases hno with h | ⟨x, q, hx, hq, hne⟩
            · rw [h] at hc
              cases hc
            · rw [hx] at hc
              cases hc
              exact ⟨q, hq, hne⟩
      · rw [startStep_settle hn hk, ← hrun] at hexec
        have hlens : (started.port p).lens = (s.port p).lens := by rw [hport]
        rw [← hlens]
        refine ⟨fun hstalled => ?_, fun hchain hidle => ?_, fun hstalled hmoving => ?_⟩
        · obtain ⟨x, hx⟩ := settleStep_stalled (timeout := timeout) hstalled
          rw [hx] at hexec
          exact ⟨_, endRun_ended .., hexec⟩
        · rw [settleStep_still hidle] at hexec
          exact ⟨_, completeStep_ended hcur hchain, hexec⟩
        · rw [settleStep_moving hstalled hmoving, afterStart_waits] at hexec
          refine ⟨_, hexec, hsame.trans (updPort_sameBut ..), ?_⟩
          have hnow : started.now = s.now := by rw [hstarted]; rfl
          rw [updSeq_eq, State.updPort_port_self, hport, hnow]
          rfl
  · exact congrArg Host.Outcome.next (takeRequest_onPort hr hp (if_pos (by rw [taken_port, ha]; rfl)))
  · refine congrArg Host.Outcome.next (takeRequest_onPort hr hp ((if_neg ?_).trans (if_pos ⟨hne, hc⟩)))
    rw [taken_port, ha]
    decide
  · refine ⟨_, congrArg Host.Outcome.next (takeRequest_onPort hr hp ((if_neg ?_).trans (if_neg ?_))),
      (endRun_ended (s.taken m) p .halted {}).of_taken, fun x hx hne => ?_⟩
    · rw [taken_port, ha]
      decide
    · rintro ⟨h1, h2⟩
      rcases hwho with h | h
      · exact h1 h
      · exact h2 h
    · rw [endRun_notice (s := s.taken m) hx]
      exact notify_masters_congr (runEnded_masters ..) (runEnded_now ..)

end Sys2Proof.Machine

end


section
/-! PROOFS. The fetch queues and the arbiter (5.7, 4.4). -/

namespace Sys2Proof.Machine

variable {s t u : State} {st : Store} {p q : Port} {m : Master} {a o : Analysis} {e : RequestEntry} {id frame first count n : Nat}
  {f : FrameRec}

/-! ## FETCH and RELEASE (R113, R118) -/

theorem PerAnalysis.set_set {α : Type} (v : PerAnalysis α) (a : Analysis) (x y : α) : (v.set a x).set a y = v.set a y := by
  cases a <;> rfl

theorem PerAnalysis.set_get {α : Type} (v : PerAnalysis α) (a : Analysis) : v.set a (v.get a) = v := by
  cases a <;> rfl

theorem frame?_taken (s : State) (m : Master) (id : Nat) : (s.taken m).frame? id = s.frame? id := rfl

theorem master_ne_of_ne {o a : Analysis} (h : o ≠ a) : o.master ≠ a.master := by
  cases o <;> cases a <;> first | exact absurd rfl h | exact nofun

theorem takeFetch_notReader {tag : Nat} (h : s.frame? frame = none ∨ frame ∉ (s.store.readers.get a).ready) :
    s.takeFetch a tag frame first count = ({ result := .notReader }, s) := by
  unfold State.takeFetch
  dsimp only
  split
  · rfl
  · next f hf =>
    have : frame ∉ (s.store.readers.get a).ready := by simpa [hf] using h
    simp [this, refusing]

theorem takeFetch_badRange {tag : Nat} (hf : s.frame? frame = some f) (hr : frame ∈ (s.store.readers.get a).ready)
    (h : f.stored ≤ first) : s.takeFetch a tag frame first count = ({ result := .badRange }, s) := by
  simp [State.takeFetch, hf, hr, h, refusing]

/-- R113: a FETCH of lines the frame has, with its count clamped to the lines left. -/
theorem takeFetch_of_lines {tag : Nat} {clamps : List (Nat × Nat)} (hf : s.frame? frame = some f)
    (hr : frame ∈ (s.store.readers.get a).ready) (h : first < f.stored)
    (hn : n = if count = 0 then f.stored - first else min count (f.stored - first))
    (hc : clamps = if count = 0 ∨ count = n then [] else [(2, n)]) :
    s.takeFetch a tag frame first count = if 4 ≤ (s.store.readers.get a).fetches.length then
        ({ result := .fetchQueueFull, clamped := clamps }, s)
      else ({ result := .accepted, clamped := clamps, body := .lineCount n },
        s.updStore (fun st => st.addFetch a ⟨tag, frame, first, n, first, 0⟩)) := by
  have hclamps : (if count = 0 then [] else clampEntry 2 count n) = clamps := by
    rw [hc]
    unfold clampEntry
    by_cases h0 : count = 0
    · simp [h0]
    · by_cases h1 : count = n <;> simp [h0, h1]
  simp only [State.takeFetch, hf, List.contains_iff_mem.mpr hr, Bool.not_true, Bool.false_eq_true, if_false,
    Nat.not_le.mpr h, ← hn, hclamps, Config.fetchEntries]

/-- The tag of the request being taken. -/
theorem tag_of_reaches {k : RequestKind} (h : Reaches s m k e) :
    (((s.master m).nextRequest.map RequestEntry.tag).getD 0) = e.tag := by
  rw [h.1.1]
  rfl

/-- R113: the frame of an accepted fetch is pinned once more, and no other frame changes. -/
theorem addFetch_frame? (st : Store) (a : Analysis) (x : Fetch) : (st.addFetch a x).frame? x.frame =
      (st.frame? x.frame).map (fun g => { g with pins := g.pins.set a (g.pins.get a + 1) }) ∧
    ∀ id, id ≠ x.frame → (st.addFetch a x).frame? id = st.frame? id :=
  ⟨Store.frame?_updFrame (by intro _; rfl), fun _ hid => Store.frame?_updFrame_of_ne (by intro _; rfl) hid⟩

/-- R118: fetches of a frame ended one by one: each unpins it once and hands its fetch-end message to the master. -/
theorem endFetches_spec (a : Analysis) (id : Nat) : ∀ (l : List Fetch) (s : State) (t : State),
    t = l.foldl (fun s f => (s.updStore (fun st => st.unpin id a)).handFetch a (.fetchEnd f.tag id false f.sent)) s →
    SameButMasters { s with store := t.store } t ∧ t.store = { s.store with frames := t.store.frames } ∧
    t.frame? id = (s.frame? id).map (fun f => { f with pins := f.pins.set a (f.pins.get a - l.length) }) ∧
    (∀ m : Master, m ≠ a.master → t.master m = s.master m) ∧
    (t.master a.master).fetchOut = (s.master a.master).fetchOut ++ l.map (fun x => .fetchEnd x.tag id false x.sent)
  | [], s, t, h => by
    subst h
    refine ⟨⟨fun _ => rfl, rfl, rfl, rfl, rfl, rfl, rfl, rfl, rfl⟩, rfl, ?_, fun _ _ => rfl, (List.append_nil _).symm⟩
    show t.frame? id = _
    cases t.frame? id <;> simp [PerAnalysis.set_get]
  | x :: l, s, t, h => by
    obtain ⟨hsame, hstore, hframe, hothers, hout⟩ := endFetches_spec a id l _ t h
    obtain ⟨h1, h2, h3, h4, h5, h6, h7, h8, h9⟩ := hsame
    refine ⟨⟨h1, h2, h3, h4, h5, h6, h7, h8, h9⟩, hstore, ?_, fun m hm => ?_, ?_⟩
    · rw [hframe]
      have hunpin : ((s.updStore (fun st => st.unpin id a)).handFetch a (.fetchEnd x.tag id false x.sent)).frame? id =
          (s.frame? id).map (fun f => { f with pins := f.pins.set a (f.pins.get a - 1) }) :=
        Store.frame?_updFrame (by intro _; rfl)
      rw [hunpin, Option.map_map]
      congr 1
      funext f
      simp only [Function.comp, PerAnalysis.set_set, PerAnalysis.get_set_self, List.length_cons, Nat.sub_sub, Nat.add_comm 1]
    · rw [hothers m hm]
      exact State.updMaster_master_of_ne _ _ (Ne.symm hm)
    · rw [hout]
      have : (((s.updStore (fun st => st.unpin id a)).handFetch a (.fetchEnd x.tag id false x.sent)).master a.master).fetchOut =
          (s.master a.master).fetchOut ++ [.fetchEnd x.tag id false x.sent] := by
        unfold State.handFetch
        rw [State.updMaster_master_self]
        rfl
      rw [this, List.map_cons, List.append_assoc, List.singleton_append]

/-- R118: the caller's fetches of a frame cancelled. -/
theorem cancelFetches_spec (s : State) (a : Analysis) (id : Nat) (t : State) (h : t = s.cancelFetches a id) :
    SameButMasters { s with store := t.store } t ∧
    t.store = { s.store with
      frames := t.store.frames
      readers := s.store.readers.set a { s.store.readers.get a with
        fetches := (s.store.readers.get a).fetches.filter (fun x => !(x.frame == id)) } } ∧
    t.frame? id = (s.frame? id).map (fun f => { f with
      pins := f.pins.set a (f.pins.get a - ((s.store.readers.get a).fetches.filter (fun x => x.frame == id)).length) }) ∧
    (∀ m : Master, m ≠ a.master → t.master m = s.master m) ∧
    (t.master a.master).fetchOut = (s.master a.master).fetchOut ++
      ((s.store.readers.get a).fetches.filter (fun x => x.frame == id)).map (fun x => .fetchEnd x.tag id false x.sent) := by
  obtain ⟨⟨h1, h2, h3, h4, h5, h6, h7, h8, h9⟩, hstore, hrest⟩ := endFetches_spec a id _ _ t h
  exact ⟨⟨h1, h2, h3, h4, h5, h6, h7, h8, h9⟩, hstore, hrest⟩

/-- R103, R101: a reader gives a frame up that another still reads. -/
theorem dropReader_read (hf : st.frame? id = some f) (h : (f.readers.set a false).isEmpty = false) :
    st.dropReader id a = { st with
      frames := (st.dropReader id a).frames
      readers := st.readers.set a { st.readers.get a with ready := (st.readers.get a).ready.filter (fun i => !(i == id)) } } ∧
    (st.dropReader id a).frame? id = some { f with readers := f.readers.set a false } := by
  have hnew : ((st.updFrame id (fun f => { f with readers := f.readers.set a false })).updReader a
      (fun r => { r with ready := r.ready.filter (fun i => !(i == id)) })).frame? id =
      some { f with readers := f.readers.set a false } := by
    refine (Store.frame?_updFrame (by intro _; rfl)).trans ?_
    rw [hf]
    rfl
  unfold Store.dropReader
  dsimp only
  rw [hnew]
  simp only [h, Bool.false_eq_true, if_false]
  exact ⟨rfl, hnew⟩

/-- R103, R101: the last reader gives a frame up: it is freed. -/
theorem dropReader_last (hf : st.frame? id = some f) (h : (f.readers.set a false).isEmpty = true) :
    st.dropReader id a = ((st.updFrame id (fun f => { f with readers := f.readers.set a false })).updReader a
      (fun r => { r with ready := r.ready.filter (fun i => !(i == id)) })).freeFrame id := by
  have hnew : ((st.updFrame id (fun f => { f with readers := f.readers.set a false })).updReader a
      (fun r => { r with ready := r.ready.filter (fun i => !(i == id)) })).frame? id =
      some { f with readers := f.readers.set a false } := by
    refine (Store.frame?_updFrame (by intro _; rfl)).trans ?_
    rw [hf]
    rfl
  unfold Store.dropReader
  dsimp only
  rw [hnew]
  simp only [h, if_true]

/-- R101: the pages of a freed frame join the free list. -/
theorem mem_freeList_freeFrame {x : Nat} (hf : st.frame? id = some f) (h : x ∈ f.pages) : x ∈ (st.freeFrame id).freeList := by
  refine List.mem_append.mpr (.inr (List.mem_flatMap.mpr ⟨f, ?_, h⟩))
  exact List.mem_filter.mpr ⟨List.mem_of_find?_eq_some hf, by simp [Store.id_of_frame? hf]⟩

/-- R101: a freed frame leaves every list. -/
theorem freeFrame_ready (st : Store) (id : Nat) (o : Analysis) :
    ((st.freeFrame id).readers.get o).ready = (st.readers.get o).ready.filter (fun i => !(i == id)) ∧
    ((st.freeFrame id).readers.get o).fetches = (st.readers.get o).fetches ∧
    ((st.freeFrame id).readers.get o).holdLimit = (st.readers.get o).holdLimit ∧
    ((st.freeFrame id).readers.get o).policy = (st.readers.get o).policy := by
  cases o <;> exact ⟨rfl, rfl, rfl, rfl⟩

/-- Whatever becomes of the frame a reader gives up, its lists and the DRAM are these. -/
theorem dropReader_lists (hf : st.frame? id = some f) :
    (st.dropReader id a).dram = st.dram ∧
    ((st.dropReader id a).readers.get a).ready = (st.readers.get a).ready.filter (fun i => !(i == id)) ∧
    ((st.dropReader id a).readers.get a).fetches = (st.readers.get a).fetches := by
  cases h : (f.readers.set a false).isEmpty with
  | false =>
    rw [(dropReader_read hf h).1]
    simp [PerAnalysis.get_set_self]
  | true =>
    rw [dropReader_last hf h]
    obtain ⟨hready, hfetches, -⟩ := freeFrame_ready ((st.updFrame id (fun f => { f with readers := f.readers.set a false })).updReader a
      (fun r => { r with ready := r.ready.filter (fun i => !(i == id)) })) id a
    rw [hready, hfetches]
    simp [Store.freeFrame, Store.updReader, Store.updFrame, PerAnalysis.get_set_self]

theorem isEmpty_set_false {r : PerAnalysis Bool} (h : o ≠ a) : (r.set a false).isEmpty = !(r.get o) := by
  obtain ⟨x, y⟩ := r
  cases o <;> cases a <;> first | exact absurd rfl h | (cases x <;> cases y <;> rfl)

/-- Settles O45. -/
theorem fetchesAreQueuedAndFramesReleased : Obligations.FetchesAreQueuedAndFramesReleased := by
  refine ⟨fun s a e frame first count hr => ?_, fun s a e frame hr => ?_⟩
  · have hexec : ∀ {x t}, (s.taken a.master).takeFetch a e.tag frame first count = (x, t) →
        exec (.fetch a.master frame first count) s = .next (t.reply a.master e x) := fun h => by
      refine congrArg Host.Outcome.next (takeRequest_onReader hr rfl ?_)
      rw [tag_of_reaches hr]
      exact h
    refine ⟨fun h => hexec (takeFetch_notReader h), fun f hf hmem => ⟨fun h => hexec (takeFetch_badRange hf hmem h),
      fun n clamps hfirst hn hc => ?_⟩⟩
    have hlines := takeFetch_of_lines (s := s.taken a.master) (tag := e.tag) hf hmem hfirst hn hc
    refine ⟨fun hfull => hexec (hlines.trans (if_pos hfull)), fun hroom =>
      ⟨_, hexec (hlines.trans (if_neg (Nat.not_le.mpr hroom))), rfl, rfl, ?_, ?_⟩⟩
    · refine (addFetch_frame? _ _ _).1.trans ?_
      show (s.frame? frame).map _ = _
      rw [hf]
      rfl
    · exact (addFetch_frame? s.store a ⟨e.tag, frame, first, n, first, 0⟩).2
  · have hexec : ∀ {x t}, (if !((s.taken a.master).store.readers.get a).ready.contains frame then
          refusing .notReader (s.taken a.master)
        else ({ result := .done }, ((s.taken a.master).cancelFetches a frame).updStore (fun st => st.dropReader frame a))) = (x, t) →
        exec (.release a.master frame) s = .next (t.reply a.master e x) :=
      fun h => congrArg Host.Outcome.next (takeRequest_onReader hr rfl h)
    refine ⟨fun hmem => hexec (if_pos (by simpa using hmem)), fun f hf hmem => ?_⟩
    generalize hu : (s.taken a.master).cancelFetches a frame = u at hexec
    obtain ⟨hsame, hstore, hframe, hothers, hout⟩ := cancelFetches_spec _ _ _ u hu.symm
    obtain ⟨h1, h2, h3, h4, h5, -, h7, h8, h9⟩ := hsame
    have hframe' : u.store.frame? frame = some { f with
        pins := f.pins.set a (f.pins.get a - ((s.store.readers.get a).fetches.filter (fun x => x.frame == frame)).length) } := by
      refine hframe.trans ?_
      rw [frame?_taken, hf]
      rfl
    obtain ⟨hdram, hready, hfetches⟩ := dropReader_lists (a := a) hframe'
    have hlists : u.store.readers.get a = { s.store.readers.get a with
        fetches := (s.store.readers.get a).fetches.filter (fun x => !(x.frame == frame)) } := by
      rw [hstore]
      exact PerAnalysis.get_set_self ..
    refine ⟨_, hexec (if_neg (by simpa using hmem)), ⟨h1, h2, h3, h4, h5, rfl, h7, h8, h9⟩, ?_, ?_, ?_, ?_, fun m hm => ?_,
      fun o ho hread => ?_, fun o ho hread => ?_⟩
    · refine hdram.trans ?_
      rw [hstore]
      rfl
    · refine hready.trans ?_
      rw [hlists]
    · refine hfetches.trans ?_
      rw [hlists]
    · refine hout.trans ?_
      rw [State.taken, State.updMaster_master_self]
      rfl
    · refine (hothers m hm).trans ?_
      exact State.updMaster_master_of_ne _ _ (Ne.symm hm)
    · obtain ⟨hkept, hnew⟩ := dropReader_read (a := a) hframe' ((isEmpty_set_false ho).trans (by simp [hread]))
      refine ⟨?_, hnew⟩
      show (u.store.dropReader frame a).freeList = _
      rw [hkept, hstore]
      rfl
    · have hlast := dropReader_last (a := a) hframe' ((isEmpty_set_false ho).trans (by simp [hread]))
      refine ⟨?_, fun x hx => ?_, ?_⟩
      · show (u.store.dropReader frame a).frame? frame = none
        rw [hlast]
        exact Store.frame?_freeFrame
      · show x ∈ (u.store.dropReader frame a).freeList
        rw [hlast]
        refine mem_freeList_freeFrame (f := { f with
          readers := f.readers.set a false
          pins := f.pins.set a (f.pins.get a - ((s.store.readers.get a).fetches.filter (fun x => x.frame == frame)).length) }) ?_ hx
        refine (Store.frame?_updFrame (by intro _; rfl)).trans ?_
        rw [hframe']
        rfl
      · show frame ∉ ((u.store.dropReader frame a).readers.get o).ready
        rw [hlast, (freeFrame_ready _ _ _).1]
        simp

/-! ## The arbiter (R88, R115 to R117) -/

/-- R82: different bytes of a frame have different places, its pages being different. -/
theorem frameAddr_inj {pages : List Nat} {b c x : Nat} (hn : pages.Nodup) (hb : frameAddr pages b = some x)
    (hc : frameAddr pages c = some x) : b = c := by
  obtain ⟨page, hpage, rfl⟩ := (frameAddr_eq _ _ _).1 hb
  obtain ⟨page', hpage', heq⟩ := (frameAddr_eq _ _ _).1 hc
  have hP : 0 < Config.pageBytes := by decide
  have hdiv : ∀ k b, (k * Config.pageBytes + b % Config.pageBytes) / Config.pageBytes = k := fun k b => by
    rw [Nat.mul_comm, Nat.mul_add_div hP, Nat.div_eq_of_lt (Nat.mod_lt b hP), Nat.add_zero]
  have hsame : page = page' := by rw [← hdiv page b, heq, hdiv]
  subst hsame
  obtain ⟨hlt, -⟩ := List.getElem?_eq_some_iff.1 hpage
  have hquot : b / Config.pageBytes = c / Config.pageBytes := (List.getElem?_inj hlt hn).1 (hpage.trans hpage'.symm)
  have hrem : b % Config.pageBytes = c % Config.pageBytes := Nat.add_left_cancel heq
  rw [← Nat.div_add_mod b Config.pageBytes, hquot, hrem, Nat.div_add_mod]

/-- R82: bytes written into a frame of different pages read back from their places, and every other byte is as before. -/
theorem writeFrameBytes_read {pages : List Nat} (hn : pages.Nodup) : ∀ (l : List Byte) (b : Nat) {m : Memory}, m.wf = true →
    (∀ i x, i < l.length → frameAddr pages (b + i) = some x → (writeFrameBytes pages b l m).read x = l.getD i 0) ∧
    (∀ x, (∀ i, i < l.length → frameAddr pages (b + i) ≠ some x) → (writeFrameBytes pages b l m).read x = m.read x)
  | [], b, m, hm => ⟨fun i x hi => absurd hi (Nat.not_lt_zero i), fun x _ => rfl⟩
  | y :: l, b, m, hm => by
    have hrest : ∀ {m : Memory}, m.wf = true →
        (∀ i x, i < l.length → frameAddr pages (b + (i + 1)) = some x →
          (writeFrameBytes pages (b + 1) l m).read x = l.getD i 0) ∧
        (∀ x, (∀ i, i < l.length → frameAddr pages (b + (i + 1)) ≠ some x) →
          (writeFrameBytes pages (b + 1) l m).read x = m.read x) := fun hm => by
      simpa only [Nat.add_assoc, Nat.add_comm 1] using writeFrameBytes_read hn l (b + 1) hm
    have hstep : (writeFrameBytes pages b (y :: l) m) =
        writeFrameBytes pages (b + 1) l (((frameAddr pages b).map (fun x => m.write x y)).getD m) := by
      rw [writeFrameBytes]
      cases frameAddr pages b <;> rfl
    rw [hstep]
    have hm' : (((frameAddr pages b).map (fun x => m.write x y)).getD m).wf = true := by
      cases frameAddr pages b with
      | none => exact hm
      | some x => exact Memory.wf_write hm x y
    obtain ⟨hhit, hmiss⟩ := hrest hm'
    refine ⟨fun i x hi hx => ?_, fun x hx => ?_⟩
    · cases i with
      | zero =>
        rw [hmiss x fun i _ hi => by have := frameAddr_inj hn hx hi; omega]
        rw [Nat.add_zero] at hx
        rw [hx]
        exact Memory.read_write_self hm x y
      | succ i => exact hhit i x (Nat.lt_of_succ_lt_succ hi) hx
    · rw [hmiss x fun i hi => hx (i + 1) (Nat.succ_lt_succ hi)]
      cases hb : frameAddr pages b with
      | none => rfl
      | some c => exact Memory.read_write_of_ne hm y fun h => hx 0 (Nat.succ_pos _) (by rw [Nat.add_zero, hb, h])

theorem readFrameBytes_length (pages : List Nat) (m : Memory) (n : Nat) : ∀ b, (readFrameBytes pages m b n).length = n := by
  induction n with
  | zero => exact fun _ => rfl
  | succ n ih => exact fun b => congrArg (· + 1) (ih (b + 1))

theorem readFrameBytes_getD (pages : List Nat) (m : Memory) {x : Nat} (n : Nat) : ∀ b i, i < n →
    frameAddr pages (b + i) = some x → (readFrameBytes pages m b n).getD i 0 = m.read x := by
  induction n with
  | zero => exact fun b i hi => absurd hi (Nat.not_lt_zero i)
  | succ n ih =>
    intro b i hi hx
    cases i with
    | zero =>
      rw [Nat.add_zero] at hx
      simp [readFrameBytes, hx]
    | succ i =>
      have := ih (b + 1) i (Nat.lt_of_succ_lt_succ hi) (by rwa [Nat.add_assoc, Nat.add_comm 1])
      simpa [readFrameBytes] using this

/-- R88: the arbiter's order puts port `p` after the ports that are nearer to the port served last. -/
theorem portsAfter_split : ∀ last p : Port,
    portsAfter last = (portsAfter last).take ((p.val + 7 - last.val) % 8) ++ p :: (portsAfter last).drop ((p.val + 7 - last.val) % 8 + 1) ∧
    ∀ q ∈ (portsAfter last).take ((p.val + 7 - last.val) % 8), (q.val + 7 - last.val) % 8 < (p.val + 7 - last.val) % 8 := by
  decide

theorem nextWaiting_of_first (h : (s.port p).intake.buffers ≠ [])
    (hfirst : ∀ q : Port, (q.val + 7 - s.store.lastPort.val) % 8 < (p.val + 7 - s.store.lastPort.val) % 8 →
      (s.port q).intake.buffers = []) : s.nextWaiting = some p := by
  obtain ⟨hsplit, hbefore⟩ := portsAfter_split s.store.lastPort p
  exact List.find?_eq_some_iff_append.2 ⟨by simpa using h, _, _, hsplit, fun q hq => by simp [hfirst q (hbefore q hq)]⟩

theorem nextWaiting_of_none (h : ∀ p : Port, (s.port p).intake.buffers = []) : s.nextWaiting = none :=
  List.find?_eq_none.2 fun q _ => by simp [h q]

theorem nextWaiting_isSome (h : (s.port p).intake.buffers ≠ []) : s.nextWaiting.isSome = true := by
  refine List.find?_isSome.2 ⟨p, ?_, by simpa using h⟩
  rw [(portsAfter_split s.store.lastPort p).1]
  simp

theorem activeFetch_of {x : Fetch} {rest : List Fetch} (h : (s.store.readers.get a).fetches = x :: rest) (hs : x.sent < x.count) :
    s.activeFetch a = some x := by
  simp [State.activeFetch, h, hs]

theorem wantsRead_of {x : Fetch} (ha : (s.master a.master).attached = true) (hs : (s.master a.master).sending = none)
    (ho : (s.master a.master).fetchOut = []) (hx : s.activeFetch a = some x) : s.wantsRead a = true := by
  simp [State.wantsRead, ha, hs, ho, hx]

theorem wantsRead_eq_false (h : (s.store.readers.get o).fetches = [] ∨ (s.master o.master).attached = false ∨
    (s.master o.master).sending ≠ none ∨ (s.master o.master).fetchOut ≠ []) : s.wantsRead o = false := by
  rcases h with h | h | h | h <;> simp [State.wantsRead, State.activeFetch, h]

/-- R116: a master that asks for a read is served where the other does not ask, or was served last. -/
theorem readServed_of (hoa : o ≠ a) (ha : s.wantsRead a = true) (ho : s.wantsRead o = false ∨ s.store.lastFetch = o) :
    s.readServed = some a := by
  unfold State.readServed
  cases a <;> cases o <;> first | exact absurd rfl hoa | skip
  all_goals
    rcases ho with ho | ho
    · simp [ha, ho]
    · cases h : s.wantsRead .A <;> cases h' : s.wantsRead .B <;> simp_all

/-- R115: the line read and handed over, more being left of the fetch. -/
theorem readLine_more {x : Fetch} {g : FrameRec} (hg : s.frame? x.frame = some g) (h : x.sent + 1 < x.count) :
    s.readLine a x = ((s.handFetch a (.data x.tag x.frame x.next
        (readFrameBytes g.pages s.store.dram (x.next * g.width) g.width))).updStore (fun st => { st with lastFetch := a })).updStore
      (fun st => st.updReader a (fun r => { r with fetches := { x with next := x.next + 1, sent := x.sent + 1 } :: r.fetches.drop 1 })) := by
  simp only [State.readLine, hg, if_neg (Nat.not_le.mpr h)]

/-- R117: the last line read and handed over, and the fetch complete. -/
theorem readLine_last {x : Fetch} {g : FrameRec} (hg : s.frame? x.frame = some g) (h : x.sent + 1 = x.count) :
    s.readLine a x = ((s.handFetch a (.data x.tag x.frame x.next
        (readFrameBytes g.pages s.store.dram (x.next * g.width) g.width))).updStore
      (fun st => { st with lastFetch := a })).completeFetch a x := by
  simp only [State.readLine, hg, if_pos (Nat.le_of_eq h.symm)]

/-- A message handed to a master's link joins its fetch messages and leaves the rest. -/
theorem handFetch_spec (s : State) (a : Analysis) (x : FetchMsg) :
    (∀ m : Master, m ≠ a.master → (s.handFetch a x).master m = s.master m) ∧
    ((s.handFetch a x).master a.master).requests = (s.master a.master).requests ∧
    ((s.handFetch a x).master a.master).replies = (s.master a.master).replies ∧
    ((s.handFetch a x).master a.master).notices = (s.master a.master).notices ∧
    ((s.handFetch a x).master a.master).fetchOut = (s.master a.master).fetchOut ++ [x] := by
  refine ⟨fun m hm => State.updMaster_master_of_ne _ _ (Ne.symm hm), ?_⟩
  unfold State.handFetch
  rw [State.updMaster_master_self]
  exact ⟨rfl, rfl, rfl, rfl⟩

/-- Settles O43. -/
theorem arbiterMovesLines : Obligations.ArbiterMovesLines := by
  refine ⟨fun s => ⟨fun h => ?_, fun p b rest f hb hfirst hf hn hwf => ?_⟩,
    fun s => ⟨fun ⟨p, hp⟩ => ?_, fun a o x rest g hnone hoa hatt hsend hout hx hsent ho hg => ?_⟩⟩
  · simp only [exec, execDramWriteGrant, nextWaiting_of_none h]
  · have hexec : exec .dramWriteGrant s = .next (s.writeOldest p) := by
      simp only [exec, execDramWriteGrant, nextWaiting_of_first (by simp [hb]) hfirst]
    have hwrite : s.writeOldest p = ((s.updStore (fun st => { st with
        dram := writeFrameBytes f.pages (b.index * f.width) b.bytes st.dram })).updIntake p
          (fun i => { i with buffers := rest })).updStore (fun st => { st with lastPort := p }) := by
      simp only [State.writeOldest, hb, State.writeBuffered, hf]
    rw [hwrite] at hexec
    refine ⟨_, hexec, ⟨fun q hq => State.updPort_port_of_ne s (fun r => { r with intake := { r.intake with buffers := rest } }) (Ne.symm hq),
      rfl, rfl, rfl, rfl, rfl, rfl, rfl, rfl, rfl⟩, rfl,
      State.updPort_port_self s p (fun r => { r with intake := { r.intake with buffers := rest } }), ?_⟩
    exact writeFrameBytes_read hn b.bytes (b.index * f.width) hwf
  · simp only [exec, execFetchReadGrant, nextWaiting_isSome hp, if_true]
  · have hactive := activeFetch_of hx hsent
    have hserved : s.readServed = some a := by
      refine readServed_of hoa (wantsRead_of hatt hsend hout hactive) ?_
      rw [← or_assoc, ← or_assoc, ← or_assoc] at ho
      exact ho.imp_left fun h => wantsRead_eq_false (by simpa only [or_assoc] using h)
    have hexec : exec .fetchReadGrant s = .next (s.readLine a x) := by
      simp [exec, execFetchReadGrant, nextWaiting_of_none hnone, hserved, hactive]
    obtain ⟨hothers, hreq, hrep, hnot, hdata⟩ := handFetch_spec s a
      (.data x.tag x.frame x.next (readFrameBytes g.pages s.store.dram (x.next * g.width) g.width))
    have hdrop : (s.store.readers.get a).fetches.drop 1 = rest := by rw [hx]; rfl
    refine ⟨_, readFrameBytes g.pages s.store.dram (x.next * g.width) g.width, hexec, ?_⟩
    rcases Nat.lt_or_eq_of_le hsent with hmore | hlast
    · rw [readLine_more hg hmore]
      refine ⟨⟨fun _ => rfl, rfl, rfl, rfl, rfl, rfl, rfl, rfl, rfl⟩, readFrameBytes_length .., fun i y hi => readFrameBytes_getD _ _ _ _ _ hi,
        rfl, rfl, rfl, hothers, hreq, hrep, hnot, fun _ => ⟨?_, rfl, ?_⟩, fun h => absurd h (Nat.ne_of_lt hmore)⟩
      · refine hdata.trans ?_
        rw [hout]
        rfl
      · rw [State.updStore_store, Store.updReader, PerAnalysis.get_set_self]
        exact congrArg _ hdrop
    · rw [readLine_last hg hlast]
      obtain ⟨hothers', hreq', hrep', hnot', hend⟩ := handFetch_spec
        (((((s.handFetch a (.data x.tag x.frame x.next
          (readFrameBytes g.pages s.store.dram (x.next * g.width) g.width))).updStore (fun st => { st with lastFetch := a })).updStore
            (fun st => st.updReader a (fun r => { r with fetches := r.fetches.drop 1 }))).updStore (fun st => st.unpin x.frame a)))
        a (.fetchEnd x.tag x.frame true x.count)
      refine ⟨⟨fun _ => rfl, rfl, rfl, rfl, rfl, rfl, rfl, rfl, rfl⟩, readFrameBytes_length .., fun i y hi => readFrameBytes_getD _ _ _ _ _ hi,
        rfl, rfl, rfl, fun m hm => (hothers' m hm).trans (hothers m hm), hreq'.trans hreq, hrep'.trans hrep, hnot'.trans hnot,
        fun h => absurd hlast (Nat.ne_of_lt h), fun _ => ⟨?_, ?_, ?_⟩⟩
      · refine hend.trans ?_
        show ((s.handFetch a _).master a.master).fetchOut ++ _ = _
        rw [hdata, hout]
        rfl
      · show ((s.store.readers.set a { s.store.readers.get a with fetches := (s.store.readers.get a).fetches.drop 1 }).get a).fetches = rest
        rw [PerAnalysis.get_set_self]
        exact hdrop
      · refine (Store.frame?_updFrame (by intro _; rfl)).trans ?_
        show (s.frame? x.frame).map _ = _
        rw [hg]
        rfl

end Sys2Proof.Machine

end


section
/-! PROOFS. Samples, edges and their delivery (9.2, 9.3). -/

namespace Sys2Proof.Machine

variable {s t u : State} {p q : Port} {l : LineNo} {v old : Level} {r : LineRec} {stamp : Time}

/-! ## One event at several ports -/

/-- No part of the hub but its ports, the frame store and the masters has changed. -/
def SameHub (s t : State) : Prop :=
  t.now = s.now ∧ t.lastReset = s.lastReset ∧ t.mgr = s.mgr ∧ t.engine = s.engine ∧ t.presets = s.presets ∧
  t.lines = s.lines ∧ t.pending = s.pending

theorem SameHub.refl (s : State) : SameHub s s := ⟨rfl, rfl, rfl, rfl, rfl, rfl, rfl⟩

theorem SameHub.trans (h : SameHub s t) (k : SameHub t u) : SameHub s u := by
  obtain ⟨h1, h2, h3, h4, h5, h6, h7⟩ := h
  obtain ⟨k1, k2, k3, k4, k5, k6, k7⟩ := k
  exact ⟨k1.trans h1, k2.trans h2, k3.trans h3, k4.trans h4, k5.trans h5, k6.trans h6, k7.trans h7⟩

theorem SameOutside.hub (h : SameOutside s t p) : SameHub s t := by
  obtain ⟨-, h1, h2, h3, h4, h5, h6, h7⟩ := h
  exact ⟨h1, h2, h3, h4, h5, h6, h7⟩

/-- An event taken at different ports, one after the other: each port ends as its own share of the event leaves it, found as it
was before the event. -/
theorem foldl_each_port {f : State → Port → State} (hf : ∀ s p, SameOutside s (f s p) p) : ∀ (l : List Port) (s : State), l.Nodup →
    SameHub s (l.foldl f s) ∧ ∀ q : Port, (q ∉ l → (l.foldl f s).port q = s.port q) ∧
      (q ∈ l → ∃ u, SameHub s u ∧ u.port q = s.port q ∧ (l.foldl f s).port q = (f u q).port q)
  | [], s, _ => ⟨.refl s, fun _ => ⟨fun _ => rfl, fun h => nomatch h⟩⟩
  | p :: l, s, hn => by
    obtain ⟨hp, hl⟩ := List.nodup_cons.1 hn
    obtain ⟨hhub, hports⟩ := foldl_each_port hf l (f s p) hl
    have hfirst := (hf s p).hub
    refine ⟨hfirst.trans hhub, fun q => ⟨fun hq => ?_, fun hq => ?_⟩⟩
    · obtain ⟨hqp, hql⟩ := not_or.1 (mt List.mem_cons.2 hq)
      exact ((hports q).1 hql).trans ((hf s p).1 q hqp)
    · rcases List.mem_cons.1 hq with rfl | hql
      · exact ⟨s, .refl s, rfl, (hports q).1 hp⟩
      · have hqp : q ≠ p := fun h => hp (h ▸ hql)
        obtain ⟨u, huhub, huport, heq⟩ := (hports q).2 hql
        exact ⟨u, hfirst.trans huhub, huport.trans ((hf s p).1 q hqp), heq⟩

/-! ## The filter of a line (R181) -/

theorem updLine_updLine (s : State) (l : LineNo) (f g : LineRec → LineRec) :
    (s.updLine l f).updLine l g = s.updLine l (fun r => g (f r)) := by
  simp only [State.updLine, vector_get_set_self]
  congr 1
  exact Vector.set_set ..

theorem updLine_congr {f g : LineRec → LineRec} (h : f (s.lines.get l) = g (s.lines.get l)) : s.updLine l f = s.updLine l g := by
  unfold State.updLine
  rw [h]

theorem sample_accepted (h : r.accepted = some v) : r.sample v = { r with sampled := v, runLevel := none, runCount := 0 } := if_pos h

theorem sample_runs (h : r.accepted ≠ some v) (hrun : r.runAfter v < r.settings.debounce) :
    r.sample v = { r with sampled := v, runLevel := some v, runCount := r.runAfter v } :=
  (if_neg h).trans (if_neg (Nat.not_le.mpr hrun))

theorem sample_completes (h : r.accepted ≠ some v) (hrun : r.settings.debounce ≤ r.runAfter v) :
    r.sample v = { r with sampled := v, accepted := some v, runLevel := none, runCount := 0 } :=
  (if_neg h).trans (if_pos hrun)

theorem transits_eq_false (h : r.accepted = none ∨ r.accepted = some v ∨ r.runAfter v < r.settings.debounce) :
    r.transits v = false := by
  rcases h with h | h | h
  · simp [LineRec.transits, h]
  · simp [LineRec.transits, h]
  · simp [LineRec.transits, h]

theorem transits_of (h : r.accepted = some old) (hne : old ≠ v) (hrun : r.settings.debounce ≤ r.runAfter v) :
    r.transits v = true := by
  simp [LineRec.transits, h, hne, hrun]

theorem isEdge_eq_false {x : LineSettings} (h : x.enable = false ∨ (x.polarity = .rising ∧ v = .low) ∨
    (x.polarity = .falling ∧ v = .high)) : x.isEdge v = false := by
  rcases h with h | ⟨h, rfl⟩ | ⟨h, rfl⟩ <;> simp [LineSettings.isEdge, h]

theorem isEdge_of {x : LineSettings} (he : x.enable = true) (h : (x.polarity = .rising ∧ v = .high) ∨
    (x.polarity = .falling ∧ v = .low)) : x.isEdge v = true := by
  rcases h with ⟨h, rfl⟩ | ⟨h, rfl⟩ <;> simp [LineSettings.isEdge, he, h]

/-- A sample that makes no edge changes its line alone. -/
theorem takeLevel_quiet (h : ((s.lines.get l).transits v && (s.lines.get l).settings.isEdge v) = false) :
    s.takeLevel l v = s.updLine l (fun _ => (s.lines.get l).sample v) := by
  unfold State.takeLevel
  dsimp only
  rw [h]
  exact updLine_congr rfl

theorem exec_acceptedTransition_none (h : (s.lines.get l).transits v = false) : exec (.acceptedTransition l v) s = .next s := by
  simp [exec, execAcceptedTransition, h]

/-! ## Edges (R182, R183) -/

theorem heldOff_iff : r.heldOff stamp = true ↔ ∃ last, r.lastEdge = some last ∧ stamp < last + r.settings.holdOff * 1000 := by
  unfold LineRec.heldOff
  cases h : r.lastEdge with
  | none => simp
  | some last =>
    rw [decide_eq_true_iff]
    exact ⟨fun h => ⟨last, rfl, h⟩, fun ⟨_, hl, h⟩ => Option.some.inj hl ▸ h⟩

theorem deliverEdge_only (s : State) (p : Port) : OnlyTraffic s (s.deliverEdge l stamp p) p :=
  ite_only ((updSeq_only ..).trans (completeStep_only ..)) (ite_only (updCounters_only ..) (ite_only (updCounters_only ..)
    ((handDown_only ..).trans (updIntake_only ..))))

theorem awaits_iff {c : SeqCtx} : c.awaits l = true ↔
    c.inPhase .awaiting = true ∧ ∃ st time, c.currentStep = some st ∧ st.kind = .await l.val time := by
  unfold SeqCtx.awaits
  rw [Bool.and_eq_true]
  refine and_congr_right fun _ => ?_
  cases hst : c.currentStep with
  | none => simp
  | some st => cases hk : st.kind <;> simp [hk]

theorem awaits_eq_false_of_idle {c : SeqCtx} (h : c.active = false) : c.awaits l = false := by
  rw [← Bool.not_eq_true, awaits_iff]
  rintro ⟨hphase, -⟩
  rw [inPhase_active hphase] at h
  cases h

/-- R183: the four things an accepted edge can be at a camera. -/
theorem deliverEdge_fires (hseq : (s.port p).seq.active = false) (hup : (s.port p).link.state = .up)
    (hin : (s.port p).intake.state ≠ .filling) (hroom : (s.port p).waiting.length < 16) :
    s.deliverEdge l stamp p = s.updPort p (fun r => { r with
      waiting := r.waiting ++ [.trigger none], intake := { r.intake with pendingOrigin := some (.triggerLine l) } }) := by
  rw [← fireUnsequenced_of_room hup hroom]
  simp [State.deliverEdge, awaits_eq_false_of_idle hseq, hseq, hup, hin]

theorem deliverEdge_notSent (hseq : (s.port p).seq.active = false)
    (h : (s.port p).link.state ≠ .up ∨ (s.port p).intake.state = .filling) :
    s.deliverEdge l stamp p = s.updCounters p (fun c => { c with triggersNotSent := satInc c.triggersNotSent }) := by
  simp only [State.deliverEdge, awaits_eq_false_of_idle hseq, hseq, Bool.false_eq_true, if_false, if_pos h]

theorem deliverEdge_early (hseq : (s.port p).seq.active = true) (h : (s.port p).seq.awaits l = false) :
    s.deliverEdge l stamp p = s.updCounters p (fun c => { c with earlyEdges := satInc c.earlyEdges }) := by
  simp only [State.deliverEdge, h, hseq, Bool.false_eq_true, if_false, if_true]

/-- R165: the edge a last AWAIT step waits for ends its run. -/
theorem deliverEdge_awaited {st : Step} (h : (s.port p).seq.awaits l = true) (hst : (s.port p).seq.currentStep = some st)
    (hchain : st.chain = false) :
    RunEnded (s.updSeq p (fun c => { c with lastEdge := some stamp })) (s.deliverEdge l stamp p) p .normal := by
  have hdeliver : s.deliverEdge l stamp p = (s.updSeq p (fun c => { c with lastEdge := some stamp })).completeStep p := if_pos h
  rw [hdeliver]
  refine completeStep_ended (st := st) ?_ hchain
  rw [State.updSeq_port_seq]
  exact hst

theorem satInc_of_lt {n : Nat} (h : n < 4294967295) : satInc n = n + 1 := if_pos h

/-- R183: what an accepted edge makes of a camera it is routed to. -/
theorem deliverEdge_port (s : State) (l : LineNo) (stamp : Time) (p : Port) :
    ((s.port p).seq.active = false → (s.port p).link.state = .up → (s.port p).intake.state ≠ .filling →
      (s.port p).waiting.length < 16 → (s.deliverEdge l stamp p).port p = { s.port p with
        waiting := (s.port p).waiting ++ [.trigger none]
        intake := { (s.port p).intake with pendingOrigin := some (.triggerLine l) } }) ∧
    ((s.port p).seq.active = false → ((s.port p).link.state ≠ .up ∨ (s.port p).intake.state = .filling) →
      (s.port p).counters.triggersNotSent < 4294967295 → (s.deliverEdge l stamp p).port p = { s.port p with counters :=
        { (s.port p).counters with triggersNotSent := (s.port p).counters.triggersNotSent + 1 } }) ∧
    ((s.port p).seq.active = true →
      ((s.port p).seq.inPhase .awaiting = false ∨
        ∀ st time, (s.port p).seq.currentStep = some st → st.kind ≠ .await l.val time) →
      (s.port p).counters.earlyEdges < 4294967295 → (s.deliverEdge l stamp p).port p = { s.port p with counters :=
        { (s.port p).counters with earlyEdges := (s.port p).counters.earlyEdges + 1 } }) ∧
    (∀ st time, (s.port p).seq.inPhase .awaiting = true → (s.port p).seq.currentStep = some st →
      st.kind = .await l.val time → st.chain = false →
      ((s.deliverEdge l stamp p).port p).seq.state = .ready ∧ ((s.deliverEdge l stamp p).port p).seq.lastEdge = some stamp ∧
      ((s.deliverEdge l stamp p).port p).seq.ended = some (.normal, (s.port p).seq.index.getD 0)) := by
  refine ⟨fun hseq hup hin hroom => ?_, fun hseq hcam hlt => ?_, fun hseq hphase hlt => ?_, fun st time hphase hst hk hchain => ?_⟩
  · rw [deliverEdge_fires hseq hup hin hroom]
    exact State.updPort_port_self ..
  · rw [deliverEdge_notSent hseq hcam]
    refine (State.updPort_port_self ..).trans ?_
    dsimp only
    rw [satInc_of_lt hlt]
  · have haway : (s.port p).seq.awaits l = false := by
      rw [← Bool.not_eq_true, awaits_iff]
      rintro ⟨hin, st, time, hst, hk⟩
      rcases hphase with h | h
      · rw [hin] at h
        cases h
      · exact h st time hst hk
    rw [deliverEdge_early hseq haway]
    refine (State.updPort_port_self ..).trans ?_
    dsimp only
    rw [satInc_of_lt hlt]
  · obtain ⟨-, -, hport⟩ := deliverEdge_awaited (stamp := stamp) (awaits_iff.mpr ⟨hphase, st, time, hst, hk⟩) hst hchain
    rw [hport, State.updSeq_port_seq]
    exact ⟨rfl, rfl, rfl⟩

/-- R182: an edge under the hold-off. -/
theorem takeEdge_ignored (h : (s.lines.get l).heldOff stamp = true) :
    s.takeEdge l stamp = s.updLine l (fun r => { r with ignoredCount := satInc r.ignoredCount }) := if_pos h

/-- R182, R183: an edge that is accepted, and delivered to each camera of its route. -/
theorem takeEdge_accepted {x : LineRec} (hx : s.lines.get l = x) (h : x.heldOff stamp = false) (hlt : x.acceptedCount < 4294967295) :
    (s.takeEdge l stamp).now = s.now ∧ (s.takeEdge l stamp).presets = s.presets ∧ (s.takeEdge l stamp).mgr = s.mgr ∧
    (s.takeEdge l stamp).engine = s.engine ∧
    (s.takeEdge l stamp).lines = s.lines.set l { x with lastEdge := some stamp, acceptedCount := x.acceptedCount + 1 } ∧
    ∀ p : Port, (x.settings.route.getLsbD p.val = false → (s.takeEdge l stamp).port p = s.port p) ∧
      (x.settings.route.getLsbD p.val = true →
        ∃ u : State, u.port p = s.port p ∧ (s.takeEdge l stamp).port p = (u.deliverEdge l stamp p).port p) := by
  have htake : s.takeEdge l stamp = (routePorts x.settings.route).foldl (State.deliverEdge l stamp)
      (s.updLine l (fun r => { r with lastEdge := some stamp, acceptedCount := satInc r.acceptedCount })) := by
    unfold State.takeEdge
    dsimp only
    rw [hx, h]
    rfl
  have hnodup : (routePorts x.settings.route).Nodup := List.Pairwise.filter _ (by decide : allPorts.Nodup)
  have hmem : ∀ p : Port, p ∈ routePorts x.settings.route ↔ x.settings.route.getLsbD p.val = true := fun p => by
    simp [routePorts, mem_allPorts]
  obtain ⟨⟨hnow, -, hmgr, hengine, hpresets, hlines, -⟩, hports⟩ := foldl_each_port (f := State.deliverEdge l stamp)
    (fun s p => (deliverEdge_only s p).1) _
    (s.updLine l (fun r => { r with lastEdge := some stamp, acceptedCount := satInc r.acceptedCount })) hnodup
  rw [htake]
  refine ⟨hnow, hpresets, hmgr, hengine, hlines.trans ?_, fun p => ⟨fun hp => (hports p).1 ?_, fun hp => ?_⟩⟩
  · show s.lines.set l _ = _
    dsimp only
    rw [hx, satInc_of_lt hlt]
  · rw [hmem, hp]
    exact Bool.false_ne_true
  · obtain ⟨u, -, hu, heq⟩ := (hports p).2 ((hmem p).2 hp)
    exact ⟨u, hu, heq⟩

/-- Settles O54. -/
theorem samplesAreDebounced : Obligations.SamplesAreDebounced := by
  intro s l v r run hr hrun
  have hrun' : (s.lines.get l).runAfter v = run := by rw [hrun, hr]; rfl
  have hsample : ∀ {x : LineRec}, ((s.lines.get l).transits v && (s.lines.get l).settings.isEdge v) = false →
      (s.lines.get l).sample v = x → exec (.triggerLineSample l v) s = .next (s.updLine l (fun _ => x)) :=
    fun hquiet hx => congrArg Host.Outcome.next ((takeLevel_quiet hquiet).trans (by rw [hx]))
  have hstill : (s.lines.get l).transits v = false →
      ((s.lines.get l).transits v && (s.lines.get l).settings.isEdge v) = false := fun h => by rw [h]; rfl
  subst hr
  refine ⟨fun hacc => ?_, fun hacc hlt => ?_, fun hacc hle hno => ?_, fun c old stamp hc hacc hne hle hen hpol hstamp => ?_⟩
  · have hnone := transits_eq_false (.inr (.inl hacc))
    exact ⟨hsample (hstill hnone) (sample_accepted hacc), exec_acceptedTransition_none hnone⟩
  · have hshort : (s.lines.get l).runAfter v < (s.lines.get l).settings.debounce := hrun' ▸ hlt
    have hnone := transits_eq_false (.inr (.inr hshort))
    refine ⟨hsample (hstill hnone) ?_, exec_acceptedTransition_none hnone⟩
    rw [sample_runs hacc hshort, hrun']
  · refine hsample ?_ (sample_completes hacc (hrun'.symm ▸ hle))
    rcases hno with hno | hno
    · exact hstill (transits_eq_false (.inl hno))
    · rw [isEdge_eq_false hno, Bool.and_false]
  · have htransits := transits_of hacc hne (hrun'.symm ▸ hle)
    have hsampled : (s.lines.get l).sample v =
        { s.lines.get l with sampled := v, accepted := some v, runLevel := none, runCount := 0 } :=
      sample_completes (by rw [hacc]; exact fun h => hne (Option.some.inj h)) (hrun'.symm ▸ hle)
    have hexec : exec c s = .next ((s.updLine l (LineRec.sample v)).takeEdge l stamp) := by
      have htake : s.takeLevel l v = (s.updLine l (LineRec.sample v)).takeEdge l stamp := by
        unfold State.takeLevel
        dsimp only
        rw [htransits, isEdge_of hen hpol, hstamp, LineRec.stampOf, hrun']
        rfl
      rcases hc with rfl | rfl
      · exact congrArg Host.Outcome.next htake
      · exact congrArg Host.Outcome.next ((if_pos htransits).trans htake)
    have hline : (s.updLine l (LineRec.sample v)).lines.get l =
        { s.lines.get l with sampled := v, accepted := some v, runLevel := none, runCount := 0 } := by
      rw [State.updLine_line_self, hsampled]
    refine ⟨fun last hlast hwithin hlt => ?_, fun hafter hlt => ?_⟩
    · rw [hexec, takeEdge_ignored (hline.symm ▸ heldOff_iff.mpr ⟨last, hlast, hwithin⟩), updLine_updLine]
      refine congrArg Host.Outcome.next (updLine_congr ?_)
      rw [hsampled, satInc_of_lt hlt]
    · have hfree : LineRec.heldOff stamp
          { s.lines.get l with sampled := v, accepted := some v, runLevel := none, runCount := 0 } = false := by
        rw [← Bool.not_eq_true, heldOff_iff]
        rintro ⟨last, hlast, hwithin⟩
        exact absurd hwithin (Nat.not_lt.mpr (hafter last hlast))
      obtain ⟨hnow, hpresets, hmgr, hengine, hlines, hports⟩ := takeEdge_accepted hline hfree hlt
      refine ⟨_, hexec, hnow, hpresets, hmgr, hengine, hlines.trans (Vector.set_set ..), fun p => ⟨(hports p).1, ?_⟩⟩
      by_cases hroute : (s.lines.get l).settings.route.getLsbD p.val = true
      · obtain ⟨u, hu, heq⟩ := (hports p).2 hroute
        have hu : u.port p = s.port p := hu
        obtain ⟨hfires, hnotSent, hearly, hawaited⟩ := deliverEdge_port u l stamp p
        rw [hu] at hfires hnotSent hearly hawaited
        rw [heq]
        exact ⟨fun _ => hfires, fun _ => hnotSent, fun _ => hearly, fun st time _ => hawaited st time⟩
      · exact ⟨fun h => absurd h hroute, fun h => absurd h hroute, fun h => absurd h hroute, fun _ _ h => absurd h hroute⟩

end Sys2Proof.Machine

end


section
/-! PROOFS. The teardown of a master (10.2, 10.6, 5.8, 6.2, 8.7). -/

namespace Sys2Proof.Machine

variable {s t u : State} {st : Store} {p q : Port} {m k : Master} {a o : Analysis} {e : RequestEntry} {r : PortRec} {own : Bool}

/-! ## What a teardown's notices leave of a master's record -/

/-- Notices offered to a master change nothing of these. -/
def SameOwn (r u : MasterRec) : Prop :=
  u.attached = r.attached ∧ u.requests = r.requests ∧ u.replies = r.replies ∧ u.mask = r.mask ∧ u.watermark = r.watermark ∧
  u.fetchOut = r.fetchOut ∧ u.sending = r.sending

theorem SameOwn.refl (r : MasterRec) : SameOwn r r := ⟨rfl, rfl, rfl, rfl, rfl, rfl, rfl⟩

theorem SameOwn.trans {x y z : MasterRec} (h : SameOwn x y) (k : SameOwn y z) : SameOwn x z := by
  obtain ⟨h1, h2, h3, h4, h5, h6, h7⟩ := h
  obtain ⟨k1, k2, k3, k4, k5, k6, k7⟩ := k
  exact ⟨k1.trans h1, k2.trans h2, k3.trans h3, k4.trans h4, k5.trans h5, k6.trans h6, k7.trans h7⟩

theorem notifyOpt_own (s : State) (x : Option Master) (urgent : Bool) (body : NoticeBody) (k : Master) :
    SameOwn (s.master k) ((s.notifyOpt x urgent body).master k) := by
  cases x with
  | none => exact .refl _
  | some m =>
    show SameOwn (s.master k) ((s.notify m urgent body).master k)
    by_cases h : m = k
    · subst h
      rw [notify_master_self]
      obtain ⟨h1, h2, h3, h4, h5, -, -, h6, h7, -, -⟩ := offer_fields ⟨urgent, s.now, body⟩ (s.master m)
      exact ⟨h1, h2, h3, h4, h5, h6, h7⟩
    · rw [notify_master_of_ne s urgent body h]
      exact .refl _

theorem endRun_own (s : State) (p : Port) (x : EndStatus) (y : EndExtras) (k : Master) :
    SameOwn (s.master k) ((s.endRun p x y).master k) := by
  obtain ⟨f, hf⟩ := endRun_eq s p x y
  have hm : (s.runEnded p x).master k = s.master k := by
    unfold State.master
    rw [runEnded_masters]
  rw [hf, ← hm]
  exact notifyOpt_own ..

/-! ## The lens and the sequence of one port (R129, R179) -/

/-- R129: a lens record after the teardown of master `m`. -/
def LensRec.torn (m : Master) (l : LensRec) : LensRec :=
  { l with
    holder := if l.holder = some m then none else l.holder
    implicit := if l.holder = some m then false else l.implicit
    mover := if l.mover = some m then none else l.mover }

/-- R129: a context after the teardown of the holder of its lens, `held` being whether it held it. -/
def SeqCtx.lapsed (held : Bool) (c : SeqCtx) : SeqCtx :=
  if held && c.active then (c.ending .holdLapsed).cancelCadence else c

/-- R179: a context after the teardown of master `m`. -/
def SeqCtx.forgets (m : Master) (c : SeqCtx) : SeqCtx :=
  if c.state = .ready ∧ c.starter = some m then c.cancelCadence else c

/-- Whether the teardown of master `m` ends the run of a port. -/
def PortRec.lapses (m : Master) (r : PortRec) : Bool := decide (r.lens.holder = some m) && r.seq.active

/-- R129, R128: one port's lens freed, and its run ended. -/
theorem lensTeardown_spec (s : State) (m : Master) (p : Port) :
    SameOutside s (s.lensTeardown m p) p ∧
    (s.lensTeardown m p).port p = { s.port p with
      lens := (s.port p).lens.torn m, seq := (s.port p).seq.lapsed (decide ((s.port p).lens.holder = some m)) } ∧
    (s.lensTeardown m p).store = s.store.unreserve (if (s.port p).lapses m then (s.port p).seq.reservedPages else 0)
      (if (s.port p).lapses m then (s.port p).seq.reservedRecords else 0) ∧
    ∀ k, SameOwn (s.master k) ((s.lensTeardown m p).master k) := by
  have hmover : ∀ t : State, (t.updLens p (fun l => if l.mover = some m then { l with mover := none } else l)) =
      t.updPort p (fun r => { r with lens := { r.lens with mover := if r.lens.mover = some m then none else r.lens.mover } }) :=
    fun t => updPort_congr (by dsimp only; split <;> rfl)
  unfold State.lensTeardown
  dsimp only
  rw [hmover]
  by_cases hheld : (s.port p).lens.holder = some m
  · rw [if_pos hheld]
    cases hactive : (s.port p).seq.active with
    | true =>
      have hends : (s.updLens p LensRec.freed).seqHoldLapsed p = (s.updLens p LensRec.freed).endRun p .holdLapsed :=
        if_pos (by rw [State.updLens_port_seq, hactive])
      obtain ⟨hsame, hstore, hport⟩ := endRun_ended (s.updLens p LensRec.freed) p .holdLapsed {}
      rw [hends]
      refine ⟨((updLens_only s p LensRec.freed).1.trans hsame.outside).trans (updPort_sameBut ..).outside, ?_, ?_,
        fun k => endRun_own (s.updLens p LensRec.freed) p .holdLapsed {} k⟩
      · rw [State.updPort_port_self, hport]
        simp [State.updLens, LensRec.freed, LensRec.torn, SeqCtx.lapsed, hheld, hactive, SeqCtx.ending, SeqCtx.cancelCadence]
      · refine hstore.trans ?_
        simp [State.updLens, PortRec.lapses, hheld, hactive, Store.unreserve]
    | false =>
      have hstays : (s.updLens p LensRec.freed).seqHoldLapsed p = s.updLens p LensRec.freed :=
        if_neg (by rw [State.updLens_port_seq, hactive]; exact Bool.false_ne_true)
      rw [hstays]
      refine ⟨(updLens_only s p LensRec.freed).1.trans (updPort_sameBut ..).outside, ?_, ?_, fun k => .refl _⟩
      · rw [State.updPort_port_self]
        simp [State.updLens, LensRec.freed, LensRec.torn, SeqCtx.lapsed, hheld, hactive]
      · simp [State.updLens, PortRec.lapses, hactive, Store.unreserve]
  · rw [if_neg hheld]
    refine ⟨(updPort_sameBut ..).outside, ?_, ?_, fun k => .refl _⟩
    · rw [State.updPort_port_self]
      simp [LensRec.torn, SeqCtx.lapsed, hheld]
    · simp [PortRec.lapses, hheld, Store.unreserve]

theorem seqTeardown_spec (s : State) (p : Port) (m : Master) : SameBut s (s.seqTeardown p m) p ∧
    (s.seqTeardown p m).port p = { s.port p with seq := (s.port p).seq.forgets m } := by
  unfold State.seqTeardown SeqCtx.forgets
  split
  · exact ⟨updPort_sameBut .., State.updPort_port_self ..⟩
  · exact ⟨.refl s p, rfl⟩

/-- R129: the lenses of all ports, one after the other: the reservations of the runs ended are returned. -/
theorem lensTeardowns_store (m : Master) : ∀ (l : List Port) (s : State), l.Nodup →
    (l.foldl (State.lensTeardown m) s).store = s.store.unreserve
      ((l.filter (fun p => (s.port p).lapses m)).map (fun p => (s.port p).seq.reservedPages)).sum
      ((l.filter (fun p => (s.port p).lapses m)).map (fun p => (s.port p).seq.reservedRecords)).sum
  | [], _, _ => rfl
  | p :: l, s, hn => by
    obtain ⟨hp, hl⟩ := List.nodup_cons.1 hn
    obtain ⟨hsame, -, hstore, -⟩ := lensTeardown_spec s m p
    have hport : ∀ q ∈ l, (s.lensTeardown m p).port q = s.port q := fun q hq => hsame.1 q fun h => hp (h ▸ hq)
    have hfilter : l.filter (fun q => ((s.lensTeardown m p).port q).lapses m) = l.filter (fun q => (s.port q).lapses m) :=
      List.filter_congr fun q hq => by rw [hport q hq]
    have hsum : ∀ f : PortRec → Nat, ((l.filter (fun q => (s.port q).lapses m)).map (fun q => f ((s.lensTeardown m p).port q))) =
        ((l.filter (fun q => (s.port q).lapses m)).map (fun q => f (s.port q))) := fun f =>
      List.map_congr_left fun q hq => by rw [hport q (List.mem_filter.1 hq).1]
    rw [List.foldl_cons, lensTeardowns_store m l _ hl, hfilter, hsum (fun r => r.seq.reservedPages),
      hsum (fun r => r.seq.reservedRecords), hstore]
    by_cases hlapses : (s.port p).lapses m = true
    · simp [hlapses, Store.unreserve, Nat.sub_sub]
    · simp [hlapses, Store.unreserve]

theorem lensTeardowns_own (m k : Master) (l : List Port) (s : State) :
    SameOwn (s.master k) ((l.foldl (State.lensTeardown m) s).master k) :=
  foldl_closed (P := fun u => SameOwn (s.master k) (u.master k)) (fun u p hu => hu.trans ((lensTeardown_spec u m p).2.2.2 k)) (.refl _)

/-- R179: no sequence's teardown touches the store or a master. -/
theorem seqTeardowns_kept (m : Master) (l : List Port) (s : State) :
    (l.foldl (fun t p => t.seqTeardown p m) s).store = s.store ∧ (l.foldl (fun t p => t.seqTeardown p m) s).masters = s.masters :=
  foldl_closed (P := fun u => u.store = s.store ∧ u.masters = s.masters) (fun u p hu => by
    obtain ⟨-, -, -, -, -, hstore, -, -, hmasters, -⟩ := (seqTeardown_spec u p m).1
    exact ⟨hstore.trans hu.1, hmasters.trans hu.2⟩) ⟨rfl, rfl⟩

/-! ## The store's side (R121) -/

/-- R121: what the store has of a master after its teardown, and what it keeps. -/
theorem teardown_store (st : Store) (a : Analysis) :
    (st.teardown a).readers.get a = ReaderRec.reset ∧ (∀ f ∈ (st.teardown a).frames, f.readers.get a = false ∧ f.pins.get a = 0) ∧
    (st.teardown a).reservedPages = st.reservedPages ∧ (st.teardown a).reservedRecords = st.reservedRecords ∧
    (st.teardown a).dram = st.dram := by
  unfold Store.teardown
  refine List.foldlRecOn (motive := fun u : Store => u.readers.get a = ReaderRec.reset ∧
    (∀ f ∈ u.frames, f.readers.get a = false ∧ f.pins.get a = 0) ∧ u.reservedPages = st.reservedPages ∧
    u.reservedRecords = st.reservedRecords ∧ u.dram = st.dram) _ _ ?_ ?_
  · refine ⟨PerAnalysis.get_set_self .., fun f hf => ?_, rfl, rfl, rfl⟩
    obtain ⟨g, -, rfl⟩ := List.mem_map.1 hf
    exact ⟨PerAnalysis.get_set_self .., PerAnalysis.get_set_self ..⟩
  · rintro u ⟨hreader, hframes, hpages, hrecords, hdram⟩ id -
    have hfreed : (u.freeFrame id).readers.get a = ReaderRec.reset := by
      obtain ⟨hready, hfetches, hlimit, hpolicy⟩ := freeFrame_ready u id a
      rw [hreader] at hready hfetches hlimit hpolicy
      generalize (u.freeFrame id).readers.get a = x at *
      obtain ⟨_, _, _, _⟩ := x
      cases hready
      cases hfetches
      cases hlimit
      cases hpolicy
      rfl
    have hcases : u.freeUnread id = u ∨ u.freeUnread id = u.freeFrame id := by
      unfold Store.freeUnread
      split
      · split
        · exact .inr rfl
        · exact .inl rfl
      · exact .inl rfl
    rcases hcases with h | h
    · rw [h]
      exact ⟨hreader, hframes, hpages, hrecords, hdram⟩
    · rw [h]
      exact ⟨hfreed, fun f hf => hframes f (List.mem_filter.1 hf).1, hpages, hrecords, hdram⟩

/-- R121: the subscriptions of a master at its teardown. -/
theorem storeTeardown_spec (s : State) (a : Analysis) : SameHub s (s.storeTeardown a) ∧
    (s.storeTeardown a).masters = s.masters ∧ (s.storeTeardown a).store = s.store.teardown a ∧
    ∀ q, (s.storeTeardown a).port q = { s.port q with subscribers := (s.port q).subscribers.set a false } := by
  unfold State.storeTeardown
  dsimp only
  obtain ⟨hhub, hports⟩ := foldl_each_port (f := fun s p => s.updPort p (fun r => { r with subscribers := r.subscribers.set a false }))
    (fun s p => (updPort_sameBut s p _).outside) allPorts (s.updStore (fun st => st.teardown a)) (by decide)
  obtain ⟨hstore, hmasters⟩ := foldl_closed (P := fun u => u.store = s.store.teardown a ∧ u.masters = s.masters)
    (f := fun s p => s.updPort p (fun r => { r with subscribers := r.subscribers.set a false })) (l := allPorts)
    (s := s.updStore (fun st => st.teardown a)) (fun u p hu => hu) ⟨rfl, rfl⟩
  refine ⟨hhub, hmasters, hstore, fun q => ?_⟩
  obtain ⟨v, -, hv, heq⟩ := (hports q).2 (mem_allPorts q)
  rw [heq, State.updPort_port_self, hv]
  rfl

/-! ## The teardown as a whole (R199) -/

/-- R199: a port's record after the teardown of master `m`. -/
def PortRec.torn (m : Master) (r : PortRec) : PortRec :=
  { r with
    subscribers := m.analysis.elim r.subscribers (fun a => r.subscribers.set a false)
    lens := r.lens.torn m
    seq := (r.seq.lapsed (decide (r.lens.holder = some m))).forgets m }

/-- The store's share of a teardown, before the runs it ends return their reservations. -/
def Store.tornFor (m : Master) (st : Store) : Store := m.analysis.elim st (fun a => st.teardown a)

theorem Store.tornFor_kept (m : Master) (st : Store) : (st.tornFor m).reservedPages = st.reservedPages ∧
    (st.tornFor m).reservedRecords = st.reservedRecords ∧ (st.tornFor m).dram = st.dram := by
  unfold Store.tornFor
  cases m.analysis with
  | none => exact ⟨rfl, rfl, rfl⟩
  | some a => exact (teardown_store st a).2.2

/-- R199: the teardown as one event: every port, the store, the torn-down master's record and the others'. -/
theorem teardown_spec (s : State) (m : Master) (own : Bool) :
    SameHub s (s.teardown m own) ∧ (∀ q, (s.teardown m own).port q = (s.port q).torn m) ∧
    (s.teardown m own).store = (s.store.tornFor m).unreserve
      ((allPorts.filter (fun p => (s.port p).lapses m)).map (fun p => (s.port p).seq.reservedPages)).sum
      ((allPorts.filter (fun p => (s.port p).lapses m)).map (fun p => (s.port p).seq.reservedRecords)).sum ∧
    SameOwn ((s.master m).emptied own) ((s.teardown m own).master m) ∧ ((s.teardown m own).master m).notices = [] ∧
    ((s.teardown m own).master m).overrun = false ∧ ∀ k, k ≠ m → SameOwn (s.master k) ((s.teardown m own).master k) := by
  obtain ⟨s2, hs2, hhub2, hmasters2, hstore2, hports2⟩ : ∃ s2 : State, s2 = (match m.analysis with
        | some a => (s.updMaster m (MasterRec.emptied own)).storeTeardown a
        | none => s.updMaster m (MasterRec.emptied own)) ∧ SameHub s s2 ∧ s2.masters = (s.updMaster m (MasterRec.emptied own)).masters ∧
      s2.store = s.store.tornFor m ∧ ∀ q, s2.port q = { s.port q with
        subscribers := m.analysis.elim (s.port q).subscribers (fun a => (s.port q).subscribers.set a false) } := by
    refine ⟨_, rfl, ?_⟩
    unfold Store.tornFor
    cases m.analysis with
    | none => exact ⟨.refl s, rfl, rfl, fun _ => rfl⟩
    | some a =>
      obtain ⟨hhub, hmasters, hstore, hports⟩ := storeTeardown_spec (s.updMaster m (MasterRec.emptied own)) a
      exact ⟨hhub, hmasters, hstore, hports⟩
  have heq : s.teardown m own = (allPorts.foldl (fun t p => t.seqTeardown p m) (allPorts.foldl (State.lensTeardown m) s2)).updMaster m
      (fun r => { r with notices := [], overrun := false }) := by
    rw [hs2]
    rfl
  have hnodup : allPorts.Nodup := by decide
  obtain ⟨hhub3, hports3⟩ := foldl_each_port (f := State.lensTeardown m) (fun s p => (lensTeardown_spec s m p).1) allPorts s2 hnodup
  have hstore3 := lensTeardowns_store m allPorts s2 hnodup
  have hown3 := fun k => lensTeardowns_own m k allPorts s2
  generalize allPorts.foldl (State.lensTeardown m) s2 = s3 at *
  obtain ⟨hhub4, hports4⟩ := foldl_each_port (f := fun t p => t.seqTeardown p m) (fun s p => (seqTeardown_spec s p m).1.outside)
    allPorts s3 hnodup
  obtain ⟨hstore4, hmasters4⟩ := seqTeardowns_kept m allPorts s3
  generalize allPorts.foldl (fun t p => t.seqTeardown p m) s3 = s4 at *
  have hmaster4 : ∀ k, SameOwn (s2.master k) (s4.master k) := fun k => by
    have : s4.master k = s3.master k := by unfold State.master; rw [hmasters4]
    rw [this]
    exact hown3 k
  have hmaster2 : ∀ k, s2.master k = (s.updMaster m (MasterRec.emptied own)).master k := fun k => by
    unfold State.master
    rw [hmasters2]
  rw [heq]
  refine ⟨(hhub2.trans hhub3).trans hhub4, fun q => ?_, ?_, ?_, ?_, ?_, fun k hk => ?_⟩
  · obtain ⟨v, -, hv, hq4⟩ := (hports4 q).2 (mem_allPorts q)
    obtain ⟨w, -, hw, hq3⟩ := (hports3 q).2 (mem_allPorts q)
    rw [State.updMaster_port, hq4, (seqTeardown_spec v q m).2, hv, hq3, (lensTeardown_spec w m q).2.1, hw, hports2]
    rfl
  · refine hstore4.trans (hstore3.trans ?_)
    simp only [hports2, hstore2, PortRec.lapses]
  · rw [State.updMaster_master_self]
    have := hmaster4 m
    rw [hmaster2, State.updMaster_master_self] at this
    exact this
  · rw [State.updMaster_master_self]
    rfl
  · rw [State.updMaster_master_self]
    rfl
  · rw [State.updMaster_master_of_ne _ _ (Ne.symm hk)]
    have := hmaster4 k
    rwa [hmaster2, State.updMaster_master_of_ne _ _ (Ne.symm hk)] at this

/-! ## FABRIC_LOCK_LOST, FABRIC_LOCK_RETURN and DETACH (R188, R199, R200) -/

/-- R129: a lens after the teardown of master `m`. -/
theorem LensRec.torn_spec (m : Master) (l : LensRec) : (l.torn m).holder ≠ some m ∧ (l.torn m).mover ≠ some m ∧
    (l.holder = some m → (l.torn m).holder = none ∧ (l.torn m).implicit = false) ∧
    (l.holder ≠ some m → (l.torn m).holder = l.holder) ∧ (l.torn m).axes = l.axes := by
  refine ⟨?_, ?_, fun h => ⟨if_pos h, if_pos h⟩, fun h => if_neg h, rfl⟩
  · by_cases h : l.holder = some m <;> simp [LensRec.torn, h]
  · by_cases h : l.mover = some m <;> simp [LensRec.torn, h]

theorem lapsed_eq {held : Bool} {c : SeqCtx} (h : held = true → c.active = false) : c.lapsed held = c := by
  unfold SeqCtx.lapsed
  cases held with
  | false => rfl
  | true => rw [h rfl]; rfl

theorem lapsed_of {held : Bool} {c : SeqCtx} (hheld : held = true) (hactive : c.active = true) :
    c.lapsed held = (c.ending .holdLapsed).cancelCadence := if_pos (by rw [hheld, hactive]; rfl)

theorem not_active_of_ready {c : SeqCtx} (h : c.state = .ready ∨ c.state = .empty) : c.active = false := by
  rcases h with h | h <;> simp [SeqCtx.active, h]

theorem forgets_active (m : Master) (c : SeqCtx) : (c.forgets m).active = c.active := by
  unfold SeqCtx.forgets
  split <;> rfl

/-- R128, R179: a context after the teardown of master `m`, with the lens held by it or not. -/
theorem SeqCtx.torn_spec {held : Bool} (m : Master) (c : SeqCtx) :
    (held = true → ((c.lapsed held).forgets m).active = false) ∧
    (held = true → c.active = true → (c.lapsed held).forgets m = { c with
      state := .ready, ended := some (.holdLapsed, c.index.getD 0), index := none, phase := none, deadline := none
      bound := none, reservedPages := 0, reservedRecords := 0, period := 0, cadence := none }) ∧
    (c.state = .ready → c.starter = some m → (c.lapsed held).forgets m = { c with period := 0, cadence := none }) ∧
    ((held = false ∨ c.active = false) → (c.state = .empty ∨ c.starter ≠ some m) → (c.lapsed held).forgets m = c) := by
  refine ⟨fun hheld => ?_, fun hheld hactive => ?_, fun hready hstarter => ?_, fun hrun hfree => ?_⟩
  · rw [forgets_active]
    cases hactive : c.active with
    | false => rw [lapsed_eq fun _ => hactive, hactive]
    | true =>
      rw [lapsed_of hheld hactive]
      rfl
  · rw [lapsed_of hheld hactive]
    unfold SeqCtx.forgets
    split <;> rfl
  · rw [lapsed_eq fun _ => not_active_of_ready (.inl hready)]
    exact if_pos ⟨hready, hstarter⟩
  · have hsame : c.lapsed held = c := lapsed_eq fun hheld => hrun.resolve_left (by simp [hheld])
    rw [hsame]
    refine if_neg fun ⟨hready, hstarter⟩ => ?_
    rcases hfree with h | h
    · rw [hready] at h
      cases h
    · exact h hstarter

/-- The commands that tear a master down: the state it starts on, and the end with the reply of a DETACH. -/
theorem exec_teardown {c : Instr} (h : exec c s = .next t)
    (hc : (∃ (a : Analysis) (us : Nat), c = .fabricLockLost a us ∧ 1000 < us ∧ m = a.master ∧ (s.master m).attached = true) ∨
      (∃ e, c = .detach m ∧ Reaches s m .detach e)) :
    ∃ (b : State) (own : Bool), SameButMasters s b ∧ (∀ x, x ≠ m → b.master x = s.master x) ∧
      SameButMasters (b.teardown m own) t ∧ (∀ x, x ≠ m → t.master x = (b.teardown m own).master x) ∧
      ∃ l att, t.master m = { (b.teardown m own).master m with replies := l, attention := att } := by
  rcases hc with ⟨a, us, rfl, hus, rfl, hatt⟩ | ⟨e, rfl, hr⟩
  · have hexec : exec (.fabricLockLost a us) s = .next ((s.updMaster a.master MasterRec.detach).teardown a.master false) :=
      congrArg Host.Outcome.next (if_pos ⟨hatt, hus⟩)
    obtain rfl := Host.Outcome.next.inj (hexec.symm.trans h)
    exact ⟨_, false, updMaster_same .., fun x hx => State.updMaster_master_of_ne _ _ (Ne.symm hx),
      ⟨fun _ => rfl, rfl, rfl, rfl, rfl, rfl, rfl, rfl, rfl⟩, fun _ _ => rfl, _, _, rfl⟩
  · have hexec : exec (.detach m) s = .next (((s.taken m).teardown m true).reply m e { result := .done }) :=
      congrArg Host.Outcome.next (takeRequest_of_reaches_fits hr rfl)
    obtain rfl := Host.Outcome.next.inj (hexec.symm.trans h)
    exact ⟨_, true, taken_same .., fun x hx => State.updMaster_master_of_ne _ _ (Ne.symm hx), reply_same ..,
      fun x hx => State.updMaster_master_of_ne _ _ (Ne.symm hx), _, _, reply_master_self⟩

/-- R199, R200: the entry a DETACH leaves in its master's request queue: its own. -/
theorem emptied_requests {done rest : List RequestEntry} (hdone : ∀ x ∈ done, x.waiting = false)
    (hrest : ∀ x ∈ rest, x.waiting = true) (he : e.waiting = true) {r : MasterRec} (hr : r.requests = takeFirst (done ++ e :: rest)) :
    (r.emptied true).requests = [{ e with waiting := false }] := by
  have htake : takeFirst (done ++ e :: rest) = done ++ { e with waiting := false } :: rest := by
    clear hr
    induction done with
    | nil => simp [takeFirst, he]
    | cons x l ih =>
      have hx := hdone x List.mem_cons_self
      have := ih fun y hy => hdone y (List.mem_cons_of_mem _ hy)
      rw [List.cons_append, takeFirst, hx, if_neg Bool.false_ne_true, this]
      rfl
  have hfilter : (done ++ { e with waiting := false } :: rest).filter (fun x => !x.waiting) = done ++ [{ e with waiting := false }] := by
    rw [List.filter_append, List.filter_eq_self.2 fun x hx => by simp [hdone x hx], List.filter_cons_of_pos (by rfl),
      List.filter_eq_nil_iff.2 fun x hx => by simp [hrest x hx]]
  show (if true = true then (r.requests.filter (fun e => !e.waiting)).getLast?.toList else []) = _
  rw [if_pos rfl, hr, htake, hfilter, List.getLast?_append]
  rfl

/-- Settles O57. -/
theorem teardownsEmptyTheirMaster : Obligations.TeardownsEmptyTheirMaster := by
  refine fun s m => ⟨fun c t hexec hc => ?_, fun a us hm => ⟨fun h => ?_, fun hus hatt => ?_, fun hatt => ?_, fun hatt => ?_⟩,
    fun e done rest hr hreq hdone hrest => ?_⟩
  · obtain ⟨b, own, hb, hbothers, hsame, hothers, l, att, hrec⟩ := exec_teardown hexec hc
    obtain ⟨⟨-, -, hmgr, hengine, hpresets, hlines, -⟩, hports, hstore, hown, hnotices, hoverrun, hkept⟩ := teardown_spec b m own
    obtain ⟨hbport, -, -, hbmgr, hbengine, hbstore, hbpresets, hblines, -⟩ := hb
    obtain ⟨hport, -, -, htmgr, htengine, htstore, htpresets, htlines, -⟩ := hsame
    obtain ⟨-, -, -, hmask, hwater, hfetch, -⟩ := hown
    have hp : ∀ p, t.port p = (s.port p).torn m := fun p => by rw [hport, hports, hbport]
    have hst : t.store = _ := htstore.trans hstore
    simp only [hbport, hbstore] at hst
    obtain ⟨hpages, hrecords, hdram⟩ := s.store.tornFor_kept m
    refine ⟨by rw [hrec]; exact hnotices, by rw [hrec]; exact hoverrun, by rw [hrec]; exact hfetch, by rw [hrec]; exact hmask,
      by rw [hrec]; exact hwater, fun x hx => ?_, fun p => ?_, fun a ha => ?_, fun p c hc => ?_, fun ended hended => ?_,
      by rw [hst]; exact hdram, htmgr.trans (hmgr.trans hbmgr), htengine.trans (hengine.trans hbengine),
      htpresets.trans (hpresets.trans hbpresets), htlines.trans (hlines.trans hblines)⟩
    · obtain ⟨-, hrequests, hreplies, -⟩ := hkept x hx
      rw [hothers x hx, hrequests, hreplies, hbothers x hx]
      exact ⟨rfl, rfl⟩
    · obtain ⟨hholder, hmover, hfreed, hheld, haxes⟩ := (s.port p).lens.torn_spec m
      rw [hp]
      exact ⟨hholder, hmover, fun h => ⟨(hfreed h).1, (hfreed h).2, ((s.port p).seq.torn_spec m).1 (decide_eq_true h)⟩, hheld, haxes,
        rfl, rfl, rfl, rfl⟩
    · subst ha
      have htorn : s.store.tornFor a.master = s.store.teardown a := by
        unfold Store.tornFor
        rw [analysis_master]
        rfl
      obtain ⟨hreader, hframes, -⟩ := teardown_store s.store a
      rw [hst, htorn]
      refine ⟨hreader, hframes, fun p => ?_⟩
      rw [hp]
      unfold PortRec.torn
      rw [analysis_master]
      rfl
    · subst hc
      obtain ⟨-, hlapsed, hforgets, hkeeps⟩ := (s.port p).seq.torn_spec (held := decide ((s.port p).lens.holder = some m)) m
      rw [hp]
      exact ⟨fun h => hlapsed (decide_eq_true h), hforgets, fun h => hkeeps (h.imp_left fun h => decide_eq_false h)⟩
    · rw [hended, hst]
      exact ⟨congrArg (· - _) hpages, congrArg (· - _) hrecords⟩
  · subst hm
    refine congrArg Host.Outcome.next (if_neg ?_)
    rintro ⟨hatt, hus⟩
    rcases h with h | h
    · exact absurd hus (Nat.not_lt.mpr h)
    · rw [hatt] at h
      cases h
  · subst hm
    obtain ⟨-, -, -, hown, -⟩ := teardown_spec (s.updMaster a.master MasterRec.detach) a.master false
    obtain ⟨hattached, hrequests, hreplies, -, -, -, hsending⟩ := hown
    rw [State.updMaster_master_self] at hattached hrequests hreplies hsending
    exact ⟨_, congrArg Host.Outcome.next (if_pos ⟨hatt, hus⟩), hattached, hrequests, hreplies, hsending⟩
  · subst hm
    exact congrArg Host.Outcome.next (if_pos hatt)
  · subst hm
    obtain ⟨t, hexec, hsame, hothers, hrec⟩ := next_updMaster (s := s) (m := a.master) (f := MasterRec.attach)
      (o := exec (.fabricLockReturn a) s) (congrArg Host.Outcome.next (if_neg (by rw [hatt]; exact Bool.false_ne_true)))
    refine ⟨t, hexec, hsame, ?_, ?_, ?_, hothers⟩ <;> rw [hrec] <;> rfl
  · have hexec : exec (.detach m) s = .next (((s.taken m).teardown m true).reply m e { result := .done }) :=
      congrArg Host.Outcome.next (takeRequest_of_reaches_fits hr rfl)
    obtain ⟨-, -, -, hown, -⟩ := teardown_spec (s.taken m) m true
    obtain ⟨hattached, hrequests, hreplies, -⟩ := hown
    have hwaits : e.waiting = true := by simpa using List.find?_some hr.1.1
    refine ⟨_, hexec, ?_, ?_, ?_⟩
    · rw [reply_master_self]
      refine hattached.trans ?_
      rw [State.taken, State.updMaster_master_self]
      rfl
    · rw [reply_master_self]
      show _ ++ _ = _
      rw [hreplies, replyParts_of_no_list _ _ rfl]
      rfl
    · rw [reply_master_self]
      refine hrequests.trans (emptied_requests hdone hrest hwaits ?_)
      rw [State.taken, State.updMaster_master_self, ← hreq]
      rfl

end Sys2Proof.Machine

end


section
/-! PROOFS. The handover of a frame to its readers (4.7, 5.4). -/

namespace Sys2Proof.Machine

variable {s t u : State} {st : Store} {p q : Port} {m : Master} {a o : Analysis} {id x n : Nat} {f g : FrameRec}

/-! ## Store operations and the pages of a frame -/

theorem frame?_updFrame_state {k : FrameRec → FrameRec} (h : ∀ r, (k r).id = r.id) (hf : s.frame? id = some f) :
    (s.updFrame id k).frame? id = some (k f) := by
  refine (Store.frame?_updFrame h).trans ?_
  show (s.frame? id).map k = _
  rw [hf]
  rfl

/-- The pages of the records of one id. -/
def Store.pagesOf (st : Store) (id : Nat) : List Nat := (st.frames.filter (fun f => f.id == id)).flatMap FrameRec.pages

theorem pagesOf_updFrame {k : FrameRec → FrameRec} (hid : ∀ r, (k r).id = r.id) (hpages : ∀ r, (k r).pages = r.pages) :
    (st.updFrame x k).pagesOf id = st.pagesOf id := by
  unfold Store.pagesOf Store.updFrame
  dsimp only
  induction st.frames with
  | nil => rfl
  | cons r l ih =>
    unfold updFirst
    split
    · by_cases h : r.id = id <;> simp [hid, hpages, h]
    · by_cases h : r.id = id
      · simpa [h] using ih
      · simpa [h] using ih

theorem freeList_freeFrame (st : Store) (id : Nat) : (st.freeFrame id).freeList = st.freeList ++ st.pagesOf id := rfl

theorem pagesOf_unique (h : st.frames.filter (fun x => x.id == id) = [f]) : st.pagesOf id = f.pages := by
  simp [Store.pagesOf, h]

/-! ## One reader of a new frame (R104, R105) -/

/-- R104, R106: a frame appended to a reader's list, and announced. -/
theorem listFrame_eq (hf : s.frame? id = some f) : s.listFrame a id =
    (s.updStore (fun st => st.updReader a (fun r => { r with ready := r.ready ++ [id] }))).notify a.master false
      (.frameReady (f.entry a) ((s.store.readers.get a).ready.length + 1)) := by
  have hlen : (((s.updStore (fun st => st.updReader a (fun r => { r with ready := r.ready ++ [id] }))).store.readers.get a).ready.length) =
      (s.store.readers.get a).ready.length + 1 := by
    show ((s.store.readers.set a { s.store.readers.get a with ready := (s.store.readers.get a).ready ++ [id] }).get a).ready.length = _
    rw [PerAnalysis.get_set_self]
    exact List.length_append ..
  have hfound : (s.updStore (fun st => st.updReader a (fun r => { r with ready := r.ready ++ [id] }))).frame? id = some f := hf
  simp only [State.listFrame, hfound, hlen]

theorem listFrame_spec (hf : s.frame? id = some f) :
    (s.listFrame a id).store = s.store.updReader a (fun r => { r with ready := r.ready ++ [id] }) ∧
    (∀ x, (s.listFrame a id).frame? x = s.frame? x) ∧
    (s.listFrame a id).masters = (s.notify a.master false
      (.frameReady (f.entry a) ((s.store.readers.get a).ready.length + 1))).masters := by
  rw [listFrame_eq hf]
  exact ⟨rfl, fun _ => rfl, notify_masters_congr rfl rfl⟩

theorem judgeReader_other (hf : s.frame? id = some f) (h : f.readers.get a = false) : s.judgeReader a id = s := by
  simp [State.judgeReader, hf, h]

theorem judgeReader_room (hf : s.frame? id = some f) (h : f.readers.get a = true)
    (hroom : (s.store.readers.get a).ready.length < (s.store.readers.get a).holdLimit) : s.judgeReader a id = s.listFrame a id := by
  simp [State.judgeReader, hf, h, hroom]

/-- R105: the reader gives the new frame up: under KEEP_OLDEST, or where it has pinned every frame of its list. -/
theorem judgeReader_givesUp (hf : s.frame? id = some f) (h : f.readers.get a = true)
    (hfull : (s.store.readers.get a).holdLimit ≤ (s.store.readers.get a).ready.length)
    (hno : (s.store.readers.get a).policy = .keepOldest ∨ s.store.unpinnedOf a = []) : s.judgeReader a id = s.giveUp a id := by
  unfold State.judgeReader
  rw [hf]
  simp only [h, Bool.not_true, Bool.false_eq_true, if_false, Nat.not_lt.mpr hfull]
  cases hp : (s.store.readers.get a).policy with
  | keepOldest => rfl
  | keepNewest =>
    have hnone : s.store.unpinnedOf a = [] := hno.resolve_left (by simp [hp])
    simp [hnone, hfull]

theorem giveUp_eq (hf : s.frame? id = some f) : s.giveUp a id =
    (s.updFrame id (fun f => { f with readers := f.readers.set a false })).notify a.master false
      (.frameDropped f.id f.port .holdLimit false) := by
  simp [State.giveUp, hf, State.dropNotice]

/-- R105: the oldest frame of a full list, unpinned, makes place for the new one. -/
theorem judgeReader_replaces {rest : List Nat} (hf : s.frame? id = some f) (h : f.readers.get a = true)
    (hready : (s.store.readers.get a).ready = x :: rest) (hfull : (x :: rest).length = (s.store.readers.get a).holdLimit)
    (hp : (s.store.readers.get a).policy = .keepNewest) (hx : s.store.pinsOf x a = 0) :
    s.judgeReader a id = (s.holdRelease a x).listFrame a id := by
  have hfree : s.store.unpinnedOf a = x :: rest.filter (fun i => decide (s.store.pinsOf i a = 0)) := by
    simp [Store.unpinnedOf, hready, hx]
  have hlimit : (s.store.readers.get a).ready.length = (s.store.readers.get a).holdLimit := by rw [hready, hfull]
  have hpos : 0 < (s.store.readers.get a).holdLimit := by rw [← hfull]; exact Nat.succ_pos _
  have htake : ∀ (n : Nat) (l : List Nat), (x :: l).take (n + 1 - n) = [x] := fun n l => by simp
  unfold State.judgeReader
  rw [hf]
  simp only [h, Bool.not_true, Bool.false_eq_true, if_false, hp, hfree, hlimit, Nat.lt_irrefl, List.length_cons, htake,
    List.foldl_cons, List.foldl_nil]
  exact if_neg (by omega)

/-! ## The handover (R92, R104) -/

/-- R99: a frame's record once it is READY; `k` is its place among the handovers. -/
def FrameRec.readied (k : Nat) (f : FrameRec) : FrameRec :=
  { f with state := .ready, readyTime := f.closeTime, handover := some k }

/-- R92: the count of the next handover. -/
def Store.nextHandover (st : Store) : Nat := (st.handovers + 1) % 18446744073709551616

/-- R92, R99: the state in which a frame is READY and its readers are still to be judged. -/
def State.readied (s : State) (id : Nat) : State :=
  (s.updStore (fun st => { st with handovers := st.nextHandover })).updFrame id (FrameRec.readied s.store.nextHandover)

theorem readied_spec (hf : s.frame? id = some f) : (s.readied id).frame? id = some (f.readied s.store.nextHandover) ∧
    (∀ x, x ≠ id → (s.readied id).frame? x = s.frame? x) ∧
    (s.readied id).store = { s.store with frames := (s.readied id).store.frames, handovers := s.store.nextHandover } ∧
    (s.readied id).store.pagesOf x = s.store.pagesOf x :=
  ⟨frame?_updFrame_state (by intro _; rfl) hf, fun _ hx => Store.frame?_updFrame_of_ne (by intro _; rfl) hx, rfl,
    pagesOf_updFrame (by intro _; rfl) (by intro _; rfl)⟩

/-- R92: a frame with lines stored and readers: what its readers make of it, and its end where none is left. -/
theorem handover_eq (hf : s.frame? id = some f) (hs : 0 < f.stored) (hr : f.readers.isEmpty = false)
    (hu : u = ((s.readied id).judgeReader .A id).judgeReader .B id) (hg : u.frame? id = some g) :
    s.handover id = if g.readers.isEmpty then u.updStore (fun st => st.freeFrame id) else u := by
  have hfound : (s.updStore (fun st => { st with handovers := (st.handovers + 1) % 2 ^ 64 })).frame? id = some f := hf
  have hu' : ((((s.updStore (fun st => { st with handovers := (st.handovers + 1) % 2 ^ 64 })).updFrame id (fun f =>
      { f with state := .ready, readyTime := f.closeTime
               handover := some (s.updStore (fun st => { st with handovers := (st.handovers + 1) % 2 ^ 64 })).store.handovers })).judgeReader
      .A id).judgeReader .B id) = u := hu.symm
  unfold State.handover
  simp only [hfound, Nat.ne_of_gt hs, hr, if_false, Bool.false_eq_true, hu', hg]

/-- R92: a frame without a line is freed. -/
theorem handover_unstored (hf : s.frame? id = some f) (hs : f.stored = 0) :
    s.handover id = s.updStore (fun st => { st with handovers := st.nextHandover }.freeFrame id) := by
  have hfound : (s.updStore (fun st => { st with handovers := (st.handovers + 1) % 2 ^ 64 })).frame? id = some f := hf
  unfold State.handover
  simp only [hfound, hs, if_true]
  rfl

/-- The set of one reader. -/
theorem one_reader {r : PerAnalysis Bool} (h : r = (⟨false, false⟩ : PerAnalysis Bool).set a true) :
    r.get a = true ∧ (∀ o, o ≠ a → r.get o = false) ∧ r.isEmpty = false ∧ (r.set a false).isEmpty = true := by
  subst h
  refine ⟨PerAnalysis.get_set_self .., fun o ho => ?_, ?_, ?_⟩
  · rw [PerAnalysis.get_set_of_ne _ _ (Ne.symm ho)]
    cases o <;> rfl
  · cases a <;> rfl
  · cases a <;> rfl

/-- R104: of a frame with one reader, that reader's judgement is all. -/
theorem judgeBoth_one (hf : s.frame? id = some f) (hother : ∀ o, o ≠ a → f.readers.get o = false)
    (hkept : ∀ g, (s.judgeReader a id).frame? id = some g → ∀ o, o ≠ a → g.readers.get o = false)
    (hsome : (s.judgeReader a id).frame? id = some g) : (s.judgeReader .A id).judgeReader .B id = s.judgeReader a id := by
  cases a with
  | A => exact judgeReader_other hsome (hkept g hsome .B (by decide))
  | B => rw [judgeReader_other hf (hother .A (by decide))]

/-- R104: the one reader has room. -/
theorem handover_listed (hf : s.frame? id = some f) (hs : 0 < f.stored)
    (hr : f.readers = (⟨false, false⟩ : PerAnalysis Bool).set a true)
    (hroom : (s.store.readers.get a).ready.length < (s.store.readers.get a).holdLimit) :
    (s.handover id).frame? id = some (f.readied s.store.nextHandover) ∧ (∀ x, x ≠ id → (s.handover id).frame? x = s.frame? x) ∧
    (s.handover id).store = { s.store with
      frames := (s.handover id).store.frames, handovers := s.store.nextHandover
      readers := s.store.readers.set a { s.store.readers.get a with ready := (s.store.readers.get a).ready ++ [id] } } ∧
    (s.handover id).masters = (s.notify a.master false (.frameReady ((f.readied s.store.nextHandover).entry a)
      ((s.store.readers.get a).ready.length + 1))).masters := by
  obtain ⟨hown, hother, hne, -⟩ := one_reader hr
  obtain ⟨hnew, hothers, hstore, -⟩ := readied_spec (x := id) hf
  have hjudge : (s.readied id).judgeReader a id = (s.readied id).listFrame a id := judgeReader_room hnew hown hroom
  obtain ⟨lstore, lframes, lmasters⟩ := listFrame_spec (a := a) hnew
  have hlisted : ((s.readied id).listFrame a id).frame? id = some (f.readied s.store.nextHandover) := (lframes id).trans hnew
  have hboth := judgeBoth_one (a := a) hnew hother (by
    intro g hg
    rw [hjudge, hlisted] at hg
    cases hg
    exact hother) (hjudge ▸ hlisted)
  have heq : s.handover id = (s.readied id).listFrame a id := by
    refine (handover_eq hf hs hne rfl ((hboth.trans hjudge).symm ▸ hlisted)).trans ?_
    rw [hboth, hjudge]
    exact if_neg (by rw [show (f.readied s.store.nextHandover).readers = f.readers from rfl, hne]; exact Bool.false_ne_true)
  rw [heq]
  refine ⟨hlisted, fun x hx => (lframes x).trans (hothers x hx), ?_, ?_⟩
  · rw [lstore, hstore]
    rfl
  · exact lmasters.trans (notify_masters_congr rfl rfl)

/-- R104: both readers have room. -/
theorem handover_listed_both (hf : s.frame? id = some f) (hs : 0 < f.stored) (hr : f.readers = ⟨true, true⟩)
    (hroom : ∀ a, (s.store.readers.get a).ready.length < (s.store.readers.get a).holdLimit) :
    (s.handover id).frame? id = some (f.readied s.store.nextHandover) ∧
    (s.handover id).store.freeList = s.store.freeList ∧
    (∀ a, ((s.handover id).store.readers.get a).ready = (s.store.readers.get a).ready ++ [id]) ∧
    (s.handover id).masters = ((s.notify .A false (.frameReady ((f.readied s.store.nextHandover).entry .A)
        ((s.store.readers.get .A).ready.length + 1))).notify .B false (.frameReady ((f.readied s.store.nextHandover).entry .B)
        ((s.store.readers.get .B).ready.length + 1))).masters := by
  obtain ⟨hnew, -, -, -⟩ := readied_spec (x := id) hf
  have hown : ∀ a, (f.readied s.store.nextHandover).readers.get a = true := fun a => by
    rw [show (f.readied s.store.nextHandover).readers = f.readers from rfl, hr]
    cases a <;> rfl
  have hjudgeA : (s.readied id).judgeReader .A id = (s.readied id).listFrame .A id := judgeReader_room hnew (hown .A) (hroom .A)
  obtain ⟨astore, aframes, amasters⟩ := listFrame_spec (a := .A) hnew
  have hA : ((s.readied id).listFrame .A id).frame? id = some (f.readied s.store.nextHandover) := (aframes id).trans hnew
  have hreaderB : ((s.readied id).listFrame .A id).store.readers.get .B = s.store.readers.get .B := by
    rw [astore]
    rfl
  have hjudgeB : ((s.readied id).listFrame .A id).judgeReader .B id = ((s.readied id).listFrame .A id).listFrame .B id :=
    judgeReader_room hA (hown .B) (by rw [hreaderB]; exact hroom .B)
  obtain ⟨bstore, bframes, bmasters⟩ := listFrame_spec (a := .B) hA
  have hB := (bframes id).trans hA
  have heq : s.handover id = ((s.readied id).listFrame .A id).listFrame .B id := by
    refine (handover_eq hf hs (by rw [hr]; rfl) (by rw [hjudgeA, hjudgeB]) hB).trans (if_neg ?_)
    rw [show (f.readied s.store.nextHandover).readers = f.readers from rfl, hr]
    exact Bool.false_ne_true
  have hnowA : ((s.readied id).listFrame .A id).now = (s.notify .A false (.frameReady ((f.readied s.store.nextHandover).entry .A)
      ((s.store.readers.get .A).ready.length + 1))).now := (listFrame_only (s.readied id) 0 .A id).1.2.1
  rw [heq]
  refine ⟨hB, ?_, fun a => ?_, ?_⟩
  · rw [bstore, astore]
    rfl
  · rw [bstore, astore]
    cases a <;> rfl
  · rw [hreaderB] at bmasters
    exact bmasters.trans (notify_masters_congr (amasters.trans (notify_masters_congr rfl rfl)) hnowA)

/-- R105, R101: the one reader gives the frame up, and it is freed. -/
theorem handover_given_up (hf : s.frame? id = some f) (hs : 0 < f.stored)
    (hr : f.readers = (⟨false, false⟩ : PerAnalysis Bool).set a true)
    (hfull : (s.store.readers.get a).holdLimit ≤ (s.store.readers.get a).ready.length)
    (hno : (s.store.readers.get a).policy = .keepOldest ∨ (s.readied id).store.unpinnedOf a = []) :
    (s.handover id).frame? id = none ∧ (s.handover id).store.freeList = s.store.freeList ++ s.store.pagesOf id ∧
    ((s.handover id).store.readers.get a).ready = (s.store.readers.get a).ready.filter (fun i => !(i == id)) ∧
    (s.handover id).masters = (s.notify a.master false (.frameDropped id f.port .holdLimit false)).masters := by
  obtain ⟨hown, hother, hne, hlast⟩ := one_reader hr
  obtain ⟨hnew, -, hstore, hpages⟩ := readied_spec (x := id) hf
  have hjudge : (s.readied id).judgeReader a id = _ := (judgeReader_givesUp hnew hown hfull hno).trans (giveUp_eq hnew)
  have hgiven : ((s.readied id).judgeReader a id).frame? id =
      some { f.readied s.store.nextHandover with readers := f.readers.set a false } := by
    rw [hjudge]
    exact frame?_updFrame_state (by intro _; rfl) hnew
  have hboth := judgeBoth_one (a := a) hnew hother (by
    intro g hg o ho
    rw [hgiven] at hg
    cases hg
    show (f.readers.set a false).get o = false
    rw [PerAnalysis.get_set_of_ne _ _ (Ne.symm ho)]
    exact hother o ho) hgiven
  have heq : s.handover id = ((s.readied id).judgeReader a id).updStore (fun st => st.freeFrame id) :=
    (handover_eq hf hs hne rfl (hboth.symm ▸ hgiven)).trans ((if_pos hlast).trans (by rw [hboth]))
  rw [heq, hjudge]
  refine ⟨Store.frame?_freeFrame, ?_, ?_, ?_⟩
  · refine (freeList_freeFrame _ _).trans ?_
    refine congrArg (s.store.freeList ++ ·) (Eq.trans ?_ hpages)
    exact pagesOf_updFrame (by intro _; rfl) (by intro _; rfl)
  · exact (freeFrame_ready _ id a).1
  · have hid : (f.readied s.store.nextHandover).id = id := (Store.id_of_frame? (st := s.store) hf : f.id = id)
    rw [hid]
    exact notify_masters_congr rfl rfl

theorem dropReader_frame?_of_ne (hf : st.frame? id = some f) (hx : x ≠ id) : (st.dropReader id a).frame? x = st.frame? x := by
  have hnew : ((st.updFrame id (fun f => { f with readers := f.readers.set a false })).updReader a
      (fun r => { r with ready := r.ready.filter (fun i => !(i == id)) })).frame? x = st.frame? x :=
    Store.frame?_updFrame_of_ne (by intro _; rfl) hx
  cases h : (f.readers.set a false).isEmpty with
  | true =>
    rw [dropReader_last hf h]
    exact (Store.frame?_freeFrame_of_ne hx).trans hnew
  | false =>
    have hfound : ((st.updFrame id (fun f => { f with readers := f.readers.set a false })).updReader a
        (fun r => { r with ready := r.ready.filter (fun i => !(i == id)) })).frame? id =
        some { f with readers := f.readers.set a false } := by
      refine (Store.frame?_updFrame (by intro _; rfl)).trans ?_
      rw [hf]
      rfl
    unfold Store.dropReader
    dsimp only
    rw [hfound]
    simp only [h, Bool.false_eq_true, if_false]
    exact hnew

/-- R105: a frame released for a new one. -/
theorem holdRelease_eq (hf : s.frame? id = some f) : s.holdRelease a id =
    (s.notify a.master false (.frameDropped id f.port .holdLimit true)).updStore (fun st => st.dropReader id a) := by
  have hid : f.id = id := Store.id_of_frame? (st := s.store) hf
  simp [State.holdRelease, hf, State.dropNotice, hid]

/-- R105: the one reader's oldest frame makes place for the new one. -/
theorem handover_replaces {rest : List Nat} {y : FrameRec} (hf : s.frame? id = some f) (hs : 0 < f.stored)
    (hr : f.readers = (⟨false, false⟩ : PerAnalysis Bool).set a true) (hready : (s.store.readers.get a).ready = x :: rest)
    (hfull : (x :: rest).length = (s.store.readers.get a).holdLimit) (hp : (s.store.readers.get a).policy = .keepNewest)
    (hrest : x ∉ rest) (hx : x ≠ id) (hy : s.frame? x = some y) (hpins : y.pins.get a = 0) :
    (s.handover id).frame? id = some (f.readied s.store.nextHandover) ∧
    ((s.handover id).store.readers.get a).ready = rest ++ [id] ∧
    (∀ b, b ≠ a → y.readers.get b = false → (s.handover id).frame? x = none) ∧
    (∀ b, b ≠ a → y.readers.get b = true → (s.handover id).frame? x = some { y with readers := y.readers.set a false } ∧
      (s.handover id).store.freeList = s.store.freeList) ∧
    (s.handover id).masters = ((s.notify a.master false (.frameDropped x y.port .holdLimit true)).notify a.master false
      (.frameReady ((f.readied s.store.nextHandover).entry a) (s.store.readers.get a).holdLimit)).masters := by
  obtain ⟨hown, hother, hne, -⟩ := one_reader hr
  obtain ⟨hnew, hothers, hstore, -⟩ := readied_spec (x := id) hf
  have hold : (s.readied id).frame? x = some y := (hothers x hx).trans hy
  have hjudge : (s.readied id).judgeReader a id = ((s.readied id).holdRelease a x).listFrame a id :=
    judgeReader_replaces hnew hown hready hfull hp (by
      have : (s.readied id).store.frame? x = some y := hold
      simp [Store.pinsOf, this, hpins])
  have hrelease := holdRelease_eq (a := a) hold
  have hkept : ((s.readied id).holdRelease a x).frame? id = some (f.readied s.store.nextHandover) := by
    rw [hrelease]
    exact (dropReader_frame?_of_ne hold (Ne.symm hx)).trans hnew
  have hlist : (((s.readied id).holdRelease a x).store.readers.get a).ready = rest := by
    rw [hrelease]
    refine (dropReader_lists hold).2.1.trans ?_
    show (s.store.readers.get a).ready.filter _ = rest
    rw [hready, List.filter_cons_of_neg (by simp), List.filter_eq_self.2 fun i hi => by
      simpa using (ne_of_mem_of_not_mem hi hrest)]
  obtain ⟨lstore, lframes, lmasters⟩ := listFrame_spec (a := a) hkept
  have hlisted := (lframes id).trans hkept
  have hboth := judgeBoth_one (a := a) hnew hother (by
    intro g hg
    rw [hjudge, hlisted] at hg
    cases hg
    exact hother) (hjudge ▸ hlisted)
  have heq : s.handover id = ((s.readied id).holdRelease a x).listFrame a id := by
    refine (handover_eq hf hs hne rfl ((hboth.trans hjudge).symm ▸ hlisted)).trans ?_
    rw [hboth, hjudge]
    exact if_neg (by rw [show (f.readied s.store.nextHandover).readers = f.readers from rfl, hne]; exact Bool.false_ne_true)
  rw [heq]
  refine ⟨hlisted, ?_, fun b hb hread => ?_, fun b hb hread => ⟨?_, ?_⟩, ?_⟩
  · rw [lstore, Store.updReader, PerAnalysis.get_set_self]
    exact congrArg (· ++ [id]) hlist
  · rw [lframes, hrelease]
    show ((s.readied id).store.dropReader x a).frame? x = none
    rw [dropReader_last hold ((isEmpty_set_false hb).trans (by simp [hread]))]
    exact Store.frame?_freeFrame
  · rw [lframes, hrelease]
    exact (dropReader_read hold ((isEmpty_set_false hb).trans (by simp [hread]))).2
  · rw [lstore, hrelease]
    show ((s.readied id).store.dropReader x a).freeList = _
    rw [(dropReader_read hold ((isEmpty_set_false hb).trans (by simp [hread]))).1]
    rfl
  · rw [hlist] at lmasters
    rw [← hfull, List.length_cons]
    refine lmasters.trans (notify_masters_congr ?_ ?_)
    · rw [hrelease]
      exact notify_masters_congr rfl rfl
    · rw [hrelease]
      rfl

end Sys2Proof.Machine

end


section
/-! PROOFS. The end of a frame (4.5, 4.6, 8.4). -/

namespace Sys2Proof.Machine

variable {s t u : State} {st : Store} {p q : Port} {m : Master} {a o : Analysis} {id x n : Nat} {f g f' : FrameRec} {e : EndTags}
  {reports : Bool}

/-! ## The buffered lines of a frame (R91, step 1) -/

/-- The bytes of a frame's buffered lines written to their places. -/
def flushBytes (f : FrameRec) (l : List BufferedLine) (m : Memory) : Memory :=
  l.foldl (fun m b => writeFrameBytes f.pages (b.index * f.width) b.bytes m) m

theorem foldl_writeBuffered : ∀ (l : List BufferedLine) (s : State), (∀ b ∈ l, b.frame = id) → s.frame? id = some f →
    l.foldl State.writeBuffered s = s.updStore (fun st => { st with dram := flushBytes f l st.dram })
  | [], _, _, _ => rfl
  | b :: l, s, hl, hf => by
    have hb : s.writeBuffered b = s.updStore (fun st => { st with dram := writeFrameBytes f.pages (b.index * f.width) b.bytes st.dram }) := by
      simp only [State.writeBuffered, hl b List.mem_cons_self, hf]
    rw [List.foldl_cons, hb]
    exact foldl_writeBuffered l _ (fun c hc => hl c (List.mem_cons_of_mem _ hc)) hf

/-- R91, step 1: the buffered lines of the frame written, and their buffers emptied. -/
theorem flushFrame_eq (hf : s.frame? id = some f) : s.flushFrame p id =
    (s.updStore (fun st => { st with
      dram := flushBytes f ((s.port p).intake.buffers.filter (fun b => b.frame == id)) st.dram })).updIntake p
      (fun i => { i with buffers := i.buffers.filter (fun b => !(b.frame == id)) }) := by
  unfold State.flushFrame
  rw [foldl_writeBuffered _ s (fun b hb => by simpa using (List.mem_filter.1 hb).2) hf]

/-! ## A frame closed (R91) -/

/-- R91: the tags of a cause of finalization joined to a frame's. -/
def FrameRec.endTagged (e : EndTags) (f : FrameRec) : FrameRec :=
  { f with tags := { f.tags with isPartial := f.tags.isPartial || e.isPartial, missingClose := f.tags.missingClose || e.missingClose } }

/-- R91, steps 1 and 2: the open frame tagged, its buffers written, and padded where it is. -/
def State.frameEnding (s : State) (p : Port) (id : Nat) (e : EndTags) : State :=
  ((s.updFrame id (FrameRec.endTagged e)).flushFrame p id).padFrame p id

/-- R91, steps 3 to 5: the frame closed and its intake IDLE, before the handover. -/
def State.frameClosed (s : State) (p : Port) (id : Nat) (e : EndTags) : State :=
  (((s.frameEnding p id e).updFrame id (fun f => { f with closeTime := some s.now })).updStore (fun st => st.releaseStep id)).updIntake p
    IntakeRec.toIdle

/-- R91, R93: the end of an open frame: its handover, and its report where a step in progress waits for it. -/
theorem finalize_eq (hopen : (s.port p).intake.openFrame = some id)
    (hf : ((s.updFrame id (FrameRec.endTagged e)).flushFrame p id).frame? id = some f) (hg : (s.frameEnding p id e).frame? id = some g) :
    s.finalize p e reports = if (s.port p).boundLive && reports then ((s.frameClosed p id e).handover id).seqReport p (g.report f.stored)
      else (s.frameClosed p id e).handover id := by
  have hstored : ((((s.updFrame id (FrameRec.endTagged e)).flushFrame p id).frame? id).map FrameRec.stored).getD 0 = f.stored := by
    rw [hf]
    rfl
  have hreport : ((s.frameEnding p id e).frame? id).elim (FrameReport.stored 0 0 0 0 Tags.none none) (FrameRec.report f.stored) =
      g.report f.stored := by
    rw [hg]
    rfl
  rw [← hreport, ← hstored]
  unfold State.finalize
  rw [hopen]
  rfl

theorem releaseStep_spec (hf : st.frame? id = some f) : (st.releaseStep id).frame? id = some { f with stepReserved := 0 } ∧
    (∀ x, x ≠ id → (st.releaseStep id).frame? x = st.frame? x) ∧
    st.releaseStep id = { st with frames := (st.releaseStep id).frames, reservedPages := st.reservedPages - f.stepReserved } ∧
    (st.releaseStep id).pagesOf x = st.pagesOf x := by
  have heq : st.releaseStep id = { st.updFrame id (fun g => { g with stepReserved := 0 }) with
      reservedPages := st.reservedPages - f.stepReserved } := by
    simp [Store.releaseStep, hf]
  rw [heq]
  refine ⟨?_, fun x hx => Store.frame?_updFrame_of_ne (by intro _; rfl) hx, rfl, pagesOf_updFrame (by intro _; rfl) (by intro _; rfl)⟩
  refine (Store.frame?_updFrame (by intro _; rfl)).trans ?_
  rw [hf]
  rfl

/-- R91: a closed frame's record. -/
def FrameRec.closedAt (now : Time) (f : FrameRec) : FrameRec := { f with closeTime := some now, stepReserved := 0 }

/-- R91, steps 3 to 5, on the state `v` the first two leave. -/
theorem frameClosed_of_ending {v : State} (hv : s.frameEnding p id e = v) (hg : v.frame? id = some g) :
    SameOutside v (s.frameClosed p id e) p ∧ (s.frameClosed p id e).masters = v.masters ∧
    (s.frameClosed p id e).port p = { v.port p with intake := (v.port p).intake.toIdle } ∧
    (s.frameClosed p id e).frame? id = some (g.closedAt s.now) ∧
    (∀ x, x ≠ id → (s.frameClosed p id e).frame? x = v.frame? x) ∧
    (s.frameClosed p id e).store = { v.store with
      frames := (s.frameClosed p id e).store.frames, reservedPages := v.store.reservedPages - g.stepReserved } ∧
    ∀ x, (s.frameClosed p id e).store.pagesOf x = v.store.pagesOf x := by
  have hclose : (v.updFrame id (fun f => { f with closeTime := some s.now })).frame? id = some { g with closeTime := some s.now } :=
    frame?_updFrame_state (by intro _; rfl) hg
  have hrelease := fun x => releaseStep_spec (x := x) hclose
  obtain ⟨hnew, hothers, hstore, -⟩ := hrelease id
  have heq : s.frameClosed p id e = ((v.updFrame id (fun f => { f with closeTime := some s.now })).updStore
      (fun st => st.releaseStep id)).updIntake p IntakeRec.toIdle := by
    unfold State.frameClosed
    rw [hv]
  rw [heq]
  refine ⟨((updFrame_only v p id _).trans ((updStore_only _ p _).trans (updIntake_only _ p _))).1, rfl,
    State.updPort_port_self .., hnew, fun x hx => ?_, hstore, fun x => ?_⟩
  · exact (hothers x hx).trans (Store.frame?_updFrame_of_ne (by intro _; rfl) hx)
  · exact (hrelease x).2.2.2.trans (pagesOf_updFrame (by intro _; rfl) (by intro _; rfl))

/-- R91, step 2: which frames are not padded. -/
theorem padFrame_none (hf : s.frame? id = some f) (h : ((s.port p).intake.bound.map BoundStep.lenient).getD false = false ∨
    f.tags.isPartial = true ∨ f.lines ≤ f.stored) : s.padFrame p id = s := by
  have hno : (((s.port p).intake.bound.map BoundStep.lenient).getD false && !f.tags.isPartial && decide (f.stored < f.lines)) = false := by
    rcases h with h | h | h
    · simp [h]
    · simp [h]
    · simp [Nat.not_lt.mpr h]
  simp only [State.padFrame, hf, hno, Bool.false_eq_true, if_false]

/-- R91: what the buffers of a frame come to before its padding. -/
theorem flushed_spec (hf : s.frame? id = some f) :
    ((s.updFrame id (FrameRec.endTagged e)).flushFrame p id).frame? id = some (f.endTagged e) ∧
    (∀ x, x ≠ id → ((s.updFrame id (FrameRec.endTagged e)).flushFrame p id).frame? x = s.frame? x) ∧
    SameOutside s ((s.updFrame id (FrameRec.endTagged e)).flushFrame p id) p ∧
    ((s.updFrame id (FrameRec.endTagged e)).flushFrame p id).masters = s.masters ∧
    ((s.updFrame id (FrameRec.endTagged e)).flushFrame p id).port p = { s.port p with
      intake := { (s.port p).intake with buffers := (s.port p).intake.buffers.filter (fun b => !(b.frame == id)) } } ∧
    ((s.updFrame id (FrameRec.endTagged e)).flushFrame p id).store = { s.store with
      frames := ((s.updFrame id (FrameRec.endTagged e)).flushFrame p id).store.frames
      dram := flushBytes f ((s.port p).intake.buffers.filter (fun b => b.frame == id)) s.store.dram } ∧
    ∀ x, ((s.updFrame id (FrameRec.endTagged e)).flushFrame p id).store.pagesOf x = s.store.pagesOf x := by
  have htagged : (s.updFrame id (FrameRec.endTagged e)).frame? id = some (f.endTagged e) :=
    frame?_updFrame_state (by intro _; rfl) hf
  rw [flushFrame_eq htagged]
  exact ⟨htagged, fun x hx => Store.frame?_updFrame_of_ne (by intro _; rfl) hx,
    ((updFrame_only s p id _).trans ((updStore_only _ p _).trans (updIntake_only _ p _))).1, rfl,
    State.updPort_port_self .., rfl, fun x => pagesOf_updFrame (by intro _; rfl) (by intro _; rfl)⟩

/-- R91: an unpadded frame closed. -/
theorem frameClosed_unpadded (hf : s.frame? id = some f) (h : ((s.port p).intake.bound.map BoundStep.lenient).getD false = false ∨
    (f.endTagged e).tags.isPartial = true ∨ f.lines ≤ f.stored) :
    s.frameEnding p id e = (s.updFrame id (FrameRec.endTagged e)).flushFrame p id ∧
    SameOutside s (s.frameClosed p id e) p ∧ (s.frameClosed p id e).masters = s.masters ∧
    (s.frameClosed p id e).port p = { s.port p with
      intake := { (s.port p).intake.toIdle with buffers := (s.port p).intake.buffers.filter (fun b => !(b.frame == id)) } } ∧
    (s.frameClosed p id e).frame? id = some ((f.endTagged e).closedAt s.now) ∧
    (∀ x, x ≠ id → (s.frameClosed p id e).frame? x = s.frame? x) ∧
    (s.frameClosed p id e).store = { s.store with
      frames := (s.frameClosed p id e).store.frames
      dram := flushBytes f ((s.port p).intake.buffers.filter (fun b => b.frame == id)) s.store.dram
      reservedPages := s.store.reservedPages - f.stepReserved } ∧
    ∀ x, (s.frameClosed p id e).store.pagesOf x = s.store.pagesOf x := by
  obtain ⟨hnew, hothers, hsame, hmasters, hport, hstore, hpages⟩ := flushed_spec (p := p) (e := e) hf
  have hending : s.frameEnding p id e = (s.updFrame id (FrameRec.endTagged e)).flushFrame p id :=
    padFrame_none hnew (by rw [hport]; exact h)
  obtain ⟨hsame', hmasters', hport', hnew', hothers', hstore', hpages'⟩ := frameClosed_of_ending hending hnew
  refine ⟨hending, hsame.trans hsame', hmasters'.trans hmasters, ?_, hnew', fun x hx => (hothers' x hx).trans (hothers x hx), ?_,
    fun x => (hpages' x).trans (hpages x)⟩
  · rw [hport', hport]
    rfl
  · rw [hstore', hstore]
    rfl

/-- R91: the end of an unpadded frame, with its report. -/
theorem finalize_unpadded (hopen : (s.port p).intake.openFrame = some id) (hf : s.frame? id = some f)
    (h : ((s.port p).intake.bound.map BoundStep.lenient).getD false = false ∨ (f.endTagged e).tags.isPartial = true ∨ f.lines ≤ f.stored) :
    s.finalize p e reports = if (s.port p).boundLive && reports then
        ((s.frameClosed p id e).handover id).seqReport p ((f.endTagged e).report f.stored)
      else (s.frameClosed p id e).handover id := by
  obtain ⟨hnew, -⟩ := flushed_spec (p := p) (e := e) hf
  have hending := (frameClosed_unpadded hf h).1
  exact finalize_eq (f := f.endTagged e) hopen hnew (hending ▸ hnew)

/-- R92, R104: an unpadded frame closed and handed to its one reader, which has room. -/
theorem frameClosed_listed {v : State} (hv : (s.frameClosed p id e).handover id = v) (hf : s.frame? id = some f)
    (hpad : ((s.port p).intake.bound.map BoundStep.lenient).getD false = false ∨ (f.endTagged e).tags.isPartial = true ∨ f.lines ≤ f.stored)
    (hs : 0 < f.stored) (hr : f.readers = (⟨false, false⟩ : PerAnalysis Bool).set a true)
    (hroom : (s.store.readers.get a).ready.length < (s.store.readers.get a).holdLimit) :
    SameOutside s v p ∧ v.port p = { s.port p with
      intake := { (s.port p).intake.toIdle with buffers := (s.port p).intake.buffers.filter (fun b => !(b.frame == id)) } } ∧
    v.frame? id = some (((f.endTagged e).closedAt s.now).readied s.store.nextHandover) ∧ (∀ x, x ≠ id → v.frame? x = s.frame? x) ∧
    v.store = { s.store with
      frames := v.store.frames, handovers := s.store.nextHandover, reservedPages := s.store.reservedPages - f.stepReserved
      readers := s.store.readers.set a { s.store.readers.get a with ready := (s.store.readers.get a).ready ++ [id] }
      dram := flushBytes f ((s.port p).intake.buffers.filter (fun b => b.frame == id)) s.store.dram } ∧
    v.masters = (s.notify a.master false (.frameReady ((((f.endTagged e).closedAt s.now).readied s.store.nextHandover).entry a)
      ((s.store.readers.get a).ready.length + 1))).masters := by
  obtain ⟨-, hsame, hmasters, hport, hframe, hothers, hstore, -⟩ := frameClosed_unpadded (p := p) (e := e) hf hpad
  subst hv
  generalize s.frameClosed p id e = c at *
  have hreaders : c.store.readers = s.store.readers := by rw [hstore]
  have hnext : c.store.nextHandover = s.store.nextHandover := by rw [hstore]; rfl
  have hlisted := handover_listed (a := a) hframe hs hr (by rw [hreaders]; exact hroom)
  have hports : ∀ q, (c.handover id).port q = c.port q := handover_port c id
  have honly := (handover_only c p id).1
  generalize c.handover id = v at *
  obtain ⟨hnew, hkept, hstore', hmasters'⟩ := hlisted
  rw [hnext, hreaders] at hmasters'
  rw [hnext] at hnew
  refine ⟨hsame.trans honly, (hports p).trans hport, hnew, fun x hx => (hkept x hx).trans (hothers x hx), ?_, ?_⟩
  · rw [hstore', hnext, hstore]
  · exact hmasters'.trans (notify_masters_congr hmasters hsame.2.1)

/-! ## The deadlines of a step (R164, R165, R169, R96) -/

theorem inPhase_ne {c : SeqCtx} {x y : Phase} (h : c.inPhase x = true) (hne : x ≠ y) : c.inPhase y = false := by
  obtain ⟨-, hphase⟩ := Bool.and_eq_true_iff.1 h
  have hphase : c.phase = some x := of_decide_eq_true hphase
  have : ¬ (some x = some y) := fun h => hne (Option.some.inj h)
  simp [SeqCtx.inPhase, hphase, this]

theorem boundLive_of (hb : (s.port p).intake.bound.isSome = true) (hphase : (s.port p).seq.inPhase .frameWait = true)
    (hbound : (s.port p).seq.bound = some (.frame id)) (hstate : (s.port p).intake.state = .filling)
    (hopen : (s.port p).intake.openFrame = some id) : (s.port p).boundLive = true := by
  simp [PortRec.boundLive, hb, hphase, hbound, hstate, hopen]

theorem boundLive_unbound (h : (s.port p).intake.bound = none) : (s.port p).boundLive = false := by
  simp [PortRec.boundLive, h]

theorem exec_closeTimeout_openWait (h : (s.port p).seq.due s.now .openWait = true) :
    exec (.closeTimeout p) s = .next (s.endRun p .frameTimeout) := congrArg Host.Outcome.next (if_pos h)

theorem exec_closeTimeout_frameWait (hno : (s.port p).seq.due s.now .openWait = false) (h : (s.port p).seq.due s.now .frameWait = true) :
    exec (.closeTimeout p) s = .next (s.frameTimedOut p) := by
  simp [exec, execCloseTimeout, hno, h]

/-- Settles O51. -/
theorem stepDeadlinesEndRuns : Obligations.StepDeadlinesEndRuns := by
  refine fun s p c phase status hc => ⟨fun hearly => ?_, fun hne hphase => ?_, fun d hphase hd hnow hcase => ?_,
    fun d id f hph hphase hd hnow hbound hstate hopen hib hf hreaders hstored hroom => ?_⟩
  · rcases hc with ⟨rfl, -, -⟩ | ⟨rfl, -, -⟩ | ⟨rfl, -, -⟩ | ⟨rfl, -, -⟩ <;>
      simp [exec, execSettleTimeout, execAwaitTimeout, execCloseTimeout, due_eq_false (.inr hearly)]
  · rcases hc with ⟨rfl, rfl, -⟩ | ⟨rfl, rfl, -⟩ | ⟨rfl, -, -⟩ | ⟨rfl, -, -⟩
    · simp [exec, execSettleTimeout, due_eq_false (.inl hphase)]
    · simp [exec, execAwaitTimeout, due_eq_false (.inl hphase)]
    · exact absurd rfl hne
    · exact absurd rfl hne
  · have hdue := due_of hphase hd hnow
    rcases hc with ⟨rfl, rfl, rfl⟩ | ⟨rfl, rfl, rfl⟩ | ⟨rfl, rfl, rfl⟩ | ⟨rfl, rfl, rfl⟩
    · exact ⟨_, congrArg Host.Outcome.next (if_pos hdue), endRun_ended ..⟩
    · exact ⟨_, congrArg Host.Outcome.next (if_pos hdue), endRun_ended ..⟩
    · exact ⟨_, exec_closeTimeout_openWait hdue, endRun_ended ..⟩
    · have hdiscarded : s.frameTimedOut p = s.endRun p .frameTimeout := by
        simp [State.frameTimedOut, hcase.resolve_left (fun h => h rfl)]
      exact ⟨_, (exec_closeTimeout_frameWait (due_eq_false (.inl (inPhase_ne hphase (by decide)))) hdue).trans (by rw [hdiscarded]),
        endRun_ended ..⟩
  · subst hph
    obtain ⟨rfl, -, rfl⟩ : c = .closeTimeout p ∧ True ∧ status = .frameTimeout := by
      rcases hc with ⟨-, h, -⟩ | ⟨-, h, -⟩ | ⟨-, h, -⟩ | ⟨hc, -, hs⟩
      · cases h
      · cases h
      · cases h
      · exact ⟨hc, trivial, hs⟩
    have hlive := boundLive_of hib hphase hbound hstate hopen
    have hpartial : (f.endTagged ⟨true, false⟩).tags.isPartial = true := Bool.or_true _
    obtain ⟨v, hv⟩ : ∃ v, (s.frameClosed p id ⟨true, false⟩).handover id = v := ⟨_, rfl⟩
    obtain ⟨hsame, hport, hframe, -, hstore, -⟩ := frameClosed_listed (a := .A) hv hf (.inr (.inl hpartial)) hstored hreaders hroom
    have hfinal : s.finalize p ⟨true, false⟩ false = v := by
      rw [finalize_unpadded hopen hf (.inr (.inl hpartial)), Bool.and_false, hv]
      rfl
    have hexec : exec (.closeTimeout p) s = .next (v.endRun p .frameTimeout { frame := if f.stored = 0 then none else some id }) := by
      refine (exec_closeTimeout_frameWait (due_eq_false (.inl (inPhase_ne hphase (by decide)))) (due_of hphase hd hnow)).trans ?_
      simp only [State.frameTimedOut, hbound, hlive, if_true, hf, hfinal]
      rfl
    obtain ⟨hrest, hstore', hport'⟩ := endRun_ended v p .frameTimeout { frame := if f.stored = 0 then none else some id }
    refine ⟨_, ((f.endTagged ⟨true, false⟩).closedAt s.now).readied s.store.nextHandover, hexec,
      fun q hq => (hrest.1 q hq).trans (hsame.1 q hq), ?_, ?_, ?_, ?_, ?_, rfl, hpartial, rfl, rfl⟩
    · rw [hport']
    · rw [hport', hport]
    · rw [hport', hport]
      rfl
    · rw [hstore', hstore]
      rfl
    · refine Eq.trans ?_ hframe
      unfold State.frame? Store.frame?
      rw [hstore']

end Sys2Proof.Machine

end


section
/-! PROOFS. Frames reach their readers (4.5 to 4.7, 5.4). -/

namespace Sys2Proof.Machine

variable {s t u : State} {st : Store} {p q : Port} {m : Master} {a o : Analysis} {id x n cc : Nat} {f g : FrameRec} {e : EndTags}
  {late : Bool}

/-! ## What reaches the intake of an UP port (R2) -/

/-- R2: a packet heard at a port that is in no training attempt. -/
theorem hear_spec (h : (s.port p).link.attempt = none) : SameBut s (s.hear p) p ∧
    (s.hear p).port p = { s.port p with link := { (s.port p).link with lastPacket := some s.now } } := by
  rw [hear_eq]
  refine ⟨updPort_sameBut .., (State.updPort_port_self ..).trans ?_⟩
  dsimp only
  rw [heardPacket_of_none h]

theorem routed_up {act : State → State} (h : (s.port p).link.state = .up) : s.routed p act = act (s.hear p) := if_pos h

theorem receives_up (h : (s.port p).link.state = .up) : s.receives p (s.port p).link.listen = true :=
  receives_listen (by rw [h]; rfl)

theorem exec_frameClose_up (h : (s.port p).link.state = .up) :
    exec (.frameClose p (s.port p).link.listen cc) s = .next ((s.hear p).closeFrame p cc) := by
  simp [exec, execFrameClose, receives_up h, routed_up h]

theorem inactive_of {d : Time} (h : (s.port p).intake.lastActivity = some d) (hd : d + 250000 ≤ s.now) :
    (s.port p).intake.inactive s.now = true := by
  unfold IntakeRec.inactive
  rw [h]
  exact decide_eq_true hd

theorem inactive_eq_false (h : ∀ d, (s.port p).intake.lastActivity = some d → s.now < d + 250000) :
    (s.port p).intake.inactive s.now = false := by
  unfold IntakeRec.inactive
  cases hd : (s.port p).intake.lastActivity with
  | none => rfl
  | some d => exact decide_eq_false (Nat.not_le.mpr (h d hd))

theorem nextIndex_eq (i : IntakeRec) : i.nextIndex = i.highest.elim 0 (fun h => h + 1) := by
  unfold IntakeRec.nextIndex
  cases i.highest <;> rfl

/-- R90: a close that counts no more lines than are stored, nor than the capacity. -/
theorem closeFilling_none {cap : Nat} (hopen : (s.port p).intake.openFrame = some id) (hcap : (s.port p).intake.capacity = some cap)
    (hcc : cc ≤ cap) (hnext : cc ≤ (s.port p).intake.highest.elim 0 (fun h => h + 1)) : s.closeFilling p cc = s := by
  rw [← nextIndex_eq] at hnext
  simp [State.closeFilling, hopen, hcap, Nat.not_lt.mpr hcc, Nat.not_lt.mpr hnext]

theorem endDiscard_unbound {x : DiscardEnd} (h : (s.port p).intake.bound = none) : s.endDiscard p x = s.updIntake p IntakeRec.toIdle := by
  simp [State.endDiscard, State.reportDiscard, boundLive_unbound h]

/-! ## FRAME_CLOSE and INACTIVITY_TIMEOUT (R89, R90) -/

/-- The two commands that end a frame, `late` being whether it is the timeout. -/
def EndsFrame (s : State) (p : Port) (c : Instr) (cc : Nat) (late : Bool) : Prop :=
  (late = false ∧ c = .frameClose p (s.port p).link.listen cc ∧ (s.port p).link.state = .up ∧ (s.port p).link.attempt = none) ∨
  (late = true ∧ c = .inactivityTimeout p ∧ ∃ d, (s.port p).intake.lastActivity = some d ∧ d + 250000 ≤ s.now)

theorem exec_endsFrame_discarding {c : Instr} (hc : EndsFrame s p c cc late) (hstate : (s.port p).intake.state = .discarding)
    (hbound : (s.port p).intake.bound = none) : ∃ v : State, exec c s = .next (v.updIntake p IntakeRec.toIdle) ∧ SameBut s v p ∧
      (v.port p).intake = (s.port p).intake := by
  rcases hc with ⟨-, rfl, hup, hatt⟩ | ⟨-, rfl, d, hd, hnow⟩
  · obtain ⟨hsame, hport⟩ := hear_spec hatt
    have hintake : ((s.hear p).port p).intake = (s.port p).intake := by rw [hport]
    refine ⟨s.hear p, (exec_frameClose_up hup).trans ?_, hsame, hintake⟩
    rw [← endDiscard_unbound (x := .close cc) (by rw [hintake]; exact hbound)]
    simp only [State.closeFrame, hintake, hstate]
  · refine ⟨s, ?_, .refl s p, rfl⟩
    rw [← endDiscard_unbound (x := .inactivity) hbound]
    simp [exec, execInactivityTimeout, inactive_of hd hnow, hstate]

/-- R91: the frame FILLING is finalized, on the state `v` in which the packet has been heard. -/
theorem exec_endsFrame_filling {c : Instr} (hc : EndsFrame s p c cc late) (hstate : (s.port p).intake.state = .filling)
    (hopen : (s.port p).intake.openFrame = some id) (hclose : late = false → cc = (s.port p).intake.highest.elim 0 (fun h => h + 1) ∧
      ∃ cap, (s.port p).intake.capacity = some cap ∧ cc ≤ cap) :
    ∃ v : State, exec c s = .next (v.finalize p ⟨late, late⟩ true) ∧ SameBut s v p ∧ (v.port p).intake = (s.port p).intake := by
  rcases hc with ⟨rfl, rfl, hup, hatt⟩ | ⟨rfl, rfl, d, hd, hnow⟩
  · obtain ⟨hcc, cap, hcap, hle⟩ := hclose rfl
    obtain ⟨hsame, hport⟩ := hear_spec hatt
    have hintake : ((s.hear p).port p).intake = (s.port p).intake := by rw [hport]
    refine ⟨s.hear p, (exec_frameClose_up hup).trans ?_, hsame, hintake⟩
    have hnone : (s.hear p).closeFilling p cc = s.hear p :=
      closeFilling_none (by rw [hintake]; exact hopen) (by rw [hintake]; exact hcap) hle (by rw [hintake]; exact Nat.le_of_eq hcc)
    simp only [State.closeFrame, hintake, hstate, hnone]
  · refine ⟨s, ?_, .refl s p, rfl⟩
    simp [exec, execInactivityTimeout, inactive_of hd hnow, hstate]

/-- An unbound frame's end: the frame closed and handed over. -/
theorem finalize_unbound (hopen : (s.port p).intake.openFrame = some id) (hf : s.frame? id = some f)
    (hbound : (s.port p).intake.bound = none) : s.finalize p e true = (s.frameClosed p id e).handover id := by
  rw [finalize_unpadded hopen hf (.inl (by rw [hbound]; rfl)), boundLive_unbound hbound]
  rfl

theorem filter_buffers_none (h : (s.port p).intake.buffers = []) : ((s.port p).intake.buffers.filter (fun b => b.frame == id)) = [] := by
  rw [h]
  rfl

/-- R103: the pins a reader has on the frames of its list, unchanged, leave none unpinned. -/
theorem unpinnedOf_nil {l : List Nat} (hready : (st.readers.get a).ready = l) (h : ∀ i ∈ l, 0 < st.pinsOf i a) : st.unpinnedOf a = [] := by
  unfold Store.unpinnedOf
  rw [hready, List.filter_eq_nil_iff]
  intro i hi
  simpa using Nat.ne_of_gt (h i hi)

/-- R91, R92: an unbound frame with its lines written ends: closed in the state `v`, and handed over. -/
theorem exec_endsFrame_closed {c : Instr} (hc : EndsFrame s p c cc late) (hstate : (s.port p).intake.state = .filling)
    (hopen : (s.port p).intake.openFrame = some id) (hbound : (s.port p).intake.bound = none) (hbuf : (s.port p).intake.buffers = [])
    (hf : s.frame? id = some f) (hclose : late = false → cc = (s.port p).intake.highest.elim 0 (fun h => h + 1) ∧
      ∃ cap, (s.port p).intake.capacity = some cap ∧ cc ≤ cap) :
    ∃ v : State, exec c s = .next (v.handover id) ∧ SameOutside s v p ∧ v.masters = s.masters ∧
      (v.port p).intake = (s.port p).intake.toIdle ∧ v.frame? id = some ((f.endTagged ⟨late, late⟩).closedAt s.now) ∧
      (∀ x, x ≠ id → v.frame? x = s.frame? x) ∧
      v.store = { s.store with frames := v.store.frames, reservedPages := s.store.reservedPages - f.stepReserved } ∧
      ∀ x, v.store.pagesOf x = s.store.pagesOf x := by
  obtain ⟨u, hexec, hsame, hintake⟩ := exec_endsFrame_filling hc hstate hopen hclose
  have hall := hsame
  obtain ⟨-, hnow, -, -, -, hstore, -, -, hmasters, -⟩ := hall
  have hframes : ∀ x, u.frame? x = s.frame? x := fun x => by unfold State.frame?; rw [hstore]
  have hunbound : (u.port p).intake.bound = none := by rw [hintake]; exact hbound
  obtain ⟨-, csame, cmasters, cport, cframe, cothers, cstore, cpages⟩ :=
    frameClosed_unpadded (p := p) (e := ⟨late, late⟩) ((hframes id).trans hf) (.inl (by rw [hunbound]; rfl))
  rw [finalize_unbound (by rw [hintake]; exact hopen) ((hframes id).trans hf) hunbound] at hexec
  refine ⟨_, hexec, hsame.outside.trans csame, cmasters.trans hmasters, ?_, by rw [← hnow]; exact cframe,
    fun x hx => (cothers x hx).trans (hframes x), ?_, fun x => (cpages x).trans (by rw [hstore])⟩
  · rw [cport, hintake, hbuf]
    show { (s.port p).intake.toIdle with buffers := [] } = _
    rw [← hbuf]
    rfl
  · rw [cstore, hintake, hbuf, hstore]
    rfl

/-- The record of an ended frame, once it is READY. -/
theorem readied_closed {k : Nat} (hres : f.stepReserved = 0) (now : Time) :
    ((f.endTagged e).closedAt now).readied k = { f with
      state := .ready, closeTime := some now, readyTime := some now, handover := some k
      tags := { f.tags with isPartial := f.tags.isPartial || e.isPartial, missingClose := f.tags.missingClose || e.missingClose } } := by
  have : f = { f with stepReserved := 0 } := by rw [← hres]
  rw [this]
  rfl

/-- Settles O42. -/
theorem framesReachTheirReaders : Obligations.FramesReachTheirReaders := by
  refine fun s p c => ⟨fun d hd hnow => ?_, fun cc late hc => ⟨fun hstate hbound => ?_,
    fun id f g entry hstate hopen hbound hbuf hf hres hclose hg hentry => ?_⟩⟩
  · simp [exec, execInactivityTimeout, inactive_eq_false (fun d' hd' => Option.some.inj (hd.symm.trans hd') ▸ hnow)]
  · obtain ⟨v, hexec, hsame, hintake⟩ := exec_endsFrame_discarding hc hstate hbound
    refine ⟨_, hexec, hsame.trans (updPort_sameBut ..), ?_⟩
    rw [State.updIntake_port_intake, hintake]
    exact ⟨rfl, rfl, rfl⟩
  · obtain ⟨v, hexec, hsame, hmasters, hintake, hframe, hothers, hstore, hpages⟩ :=
      exec_endsFrame_closed hc hstate hopen hbound hbuf hf hclose
    have hnow : v.now = s.now := hsame.2.1
    have hreaders : v.store.readers = s.store.readers := by rw [hstore]
    have hfree : v.store.freeList = s.store.freeList := by rw [hstore]
    have hnext : v.store.nextHandover = (s.store.handovers + 1) % 18446744073709551616 := by rw [hstore]; rfl
    have houtside := hsame.trans (handover_only v p id).1
    have hidle : ((v.handover id).port p).intake = (s.port p).intake.toIdle := by rw [handover_port, hintake]
    have hready : ((f.endTagged ⟨late, late⟩).closedAt s.now).readied v.store.nextHandover = g := by
      rw [readied_closed hres, hnext, hg]
    have hentry' : ∀ a, g.entry a = entry a := fun a => by
      rw [hentry, hg]
      rfl
    have hclosed : ((f.endTagged ⟨late, late⟩).closedAt s.now).stored = f.stored ∧
        ((f.endTagged ⟨late, late⟩).closedAt s.now).readers = f.readers ∧
        ((f.endTagged ⟨late, late⟩).closedAt s.now).port = f.port ∧
        ((f.endTagged ⟨late, late⟩).closedAt s.now).pages = f.pages ∧
        ((f.endTagged ⟨late, late⟩).closedAt s.now).pins = f.pins := ⟨rfl, rfl, rfl, rfl, rfl⟩
    generalize (f.endTagged ⟨late, late⟩).closedAt s.now = k at *
    obtain ⟨hstored, hkreaders, hkport, hkpages, hkpins⟩ := hclosed
    refine ⟨fun hs a hr hroom => ?_, fun hs hr hroom => ?_, fun a hs hr hfull hno honly => ?_,
      fun a o rest x hs hr hlist hfull hpol hrest hne hx hpins => ?_, fun hs _ => ?_⟩
    · obtain ⟨tframe, -, tstore, tmasters⟩ := handover_listed (a := a) hframe (by rwa [hstored]) (by rwa [hkreaders])
        (by rw [hreaders]; exact hroom)
      rw [hready, hentry', hreaders] at tmasters
      rw [hready] at tframe
      refine ⟨_, hexec, houtside.sameBut, by rw [hidle]; rfl, by rw [hidle]; rfl, ?_, ?_, ?_, tframe,
        tmasters.trans (notify_masters_congr hmasters hnow)⟩
      · rw [tstore, PerAnalysis.get_set_self, hreaders]
      · rw [tstore, hstore]
      · rw [tstore, hfree]
    · obtain ⟨tframe, tfree, tlists, tmasters⟩ := handover_listed_both hframe (by rwa [hstored]) (by rwa [hkreaders])
        (fun a => by rw [hreaders]; exact hroom a)
      rw [hready, hentry', hentry', hreaders] at tmasters
      rw [hready] at tframe
      refine ⟨_, hexec, houtside.sameBut, by rw [hidle]; rfl, tfree.trans hfree, tframe, fun a => ?_,
        tmasters.trans (notify_masters_congr (notify_masters_congr hmasters hnow) hnow)⟩
      rw [tlists, hreaders]
    · have hunpinned : (v.store.readers.get a).policy = .keepOldest ∨ (v.readied id).store.unpinnedOf a = [] := by
        rw [hreaders]
        refine hno.imp_right fun hno => unpinnedOf_nil (l := (s.store.readers.get a).ready) ?_ fun i hi => ?_
        · exact congrArg (fun x => (PerAnalysis.get x a).ready) hreaders
        · obtain ⟨y, hy, hpin⟩ := hno i hi
          obtain ⟨hnew, hkept, -, -⟩ := readied_spec (x := id) hframe
          have : ∃ z, (v.readied id).store.frame? i = some z ∧ z.pins = y.pins := by
            by_cases hi : i = id
            · subst hi
              obtain rfl : f = y := Option.some.inj (hf.symm.trans hy)
              exact ⟨_, hnew, hkpins⟩
            · exact ⟨y, (hkept i hi).trans ((hothers i hi).trans hy), rfl⟩
          obtain ⟨z, hz, hzpins⟩ := this
          simp only [Store.pinsOf, hz, hzpins, hpin]
      obtain ⟨tframe, tfree, tlist, tmasters⟩ := handover_given_up (a := a) hframe (by rwa [hstored]) (by rwa [hkreaders])
        (by rw [hreaders]; exact hfull) hunpinned
      refine ⟨_, hexec, houtside.sameBut, by rw [hidle]; rfl, tframe, ?_, ?_, ?_⟩
      · rw [tfree, hfree, hpages, pagesOf_unique honly]
      · rw [tlist, hreaders]
      · rw [tmasters, hkport]
        exact notify_masters_congr hmasters hnow
    · obtain ⟨tframe, tlist, tgone, tkept, tmasters⟩ := handover_replaces (a := a) (rest := rest) hframe (by rwa [hstored])
        (by rwa [hkreaders]) (by rw [hreaders]; exact hlist) (by rw [hreaders]; exact hfull) (by rw [hreaders]; exact hpol) hrest hne
        ((hothers o hne).trans hx) hpins
      rw [hready, hentry', hreaders] at tmasters
      rw [hready] at tframe
      refine ⟨_, hexec, houtside.sameBut, by rw [hidle]; rfl, tframe, tlist, tgone,
        fun b hb hread => ⟨(tkept b hb hread).1, (tkept b hb hread).2.trans hfree⟩,
        tmasters.trans (notify_masters_congr (notify_masters_congr hmasters hnow) hnow)⟩
    · have heq := handover_unstored hframe (hstored.trans hs)
      have hvfound : v.store.frame? id = some k := hframe
      refine ⟨_, hexec, ?_, by rw [hidle]; rfl, ?_, ?_, fun q hq => ?_⟩
      · have hm : (v.handover id).masters = s.masters := by
          rw [heq]
          exact hmasters
        have := houtside.sameBut
        rwa [hm] at this
      · rw [heq]
        exact Store.frame?_freeFrame
      · rw [heq]
        show v.store.dram = _
        rw [hstore]
      · rw [heq]
        exact mem_freeList_freeFrame (st := { v.store with handovers := v.store.nextHandover }) hvfound (by rwa [hkpages])

end Sys2Proof.Machine

end


section
/-! PROOFS. What the intake reports to the sequencer, frame ids, and reclaim (4.6, 5.2, 5.5, 8.4). -/

namespace Sys2Proof.Machine

variable {s t u : State} {sto : Store} {p q : Port} {m : Master} {a : Analysis} {st : Step} {id i n k lines : Nat} {f v : FrameRec}
  {status : EndStatus} {frame : Option Nat} {lengths : Option (Nat × Nat)} {x : DiscardEnd}

/-! ## The end of the run a frame was bound to (R168, R172, R177) -/

/-- The end of a run touches nothing outside its port, the store and the masters. -/
theorem RunEnded.outside (h : RunEnded s t p status) : SameOutside s t p := by
  obtain ⟨⟨h0, h1, h2, h3, h4, -, h6, h7, -, h9⟩, -, -⟩ := h
  exact ⟨h0, h1, h2, h3, h4, h6, h7, h9⟩

/-- R177: the notice of the end of port `p`'s run, as the run stands. -/
def State.endNotice (s : State) (p : Port) (m : Master) (i : Nat) (status : EndStatus) (frame : Option Nat)
    (lengths : Option (Nat × Nat)) : NoticeBody :=
  .sequenceEvent p
    (.ended { status := status, holdFreed := (s.port p).lens.implicit && decide ((s.port p).lens.holder = some m), frame := frame
              lengths := lengths, axis := none, preset := none })
    (s.port p).seq.runs (some i)

/-- R168: a report ends the run of port `p`: NORMAL or LENGTH_MISMATCH, the starter told. -/
def ReportEnds (s t : State) (p : Port) (m : Master) (i : Nat) (status : EndStatus) (frame : Option Nat)
    (lengths : Option (Nat × Nat)) : Prop :=
  RunEnded s t p status ∧ t.masters = (s.notify m (decide (status ≠ .normal)) (s.endNotice p m i status frame lengths)).masters

theorem endRun_reports (hstarter : (s.port p).seq.starter = some m) (hindex : (s.port p).seq.index = some i)
    (hstatus : status = .normal ∨ status = .lengthMismatch) :
    ReportEnds s (s.endRun p status { frame := frame, lengths := lengths }) p m i status frame lengths := by
  refine ⟨endRun_ended .., ?_⟩
  have hurgent : status.urgent = decide (status ≠ .normal) := by rcases hstatus with rfl | rfl <;> rfl
  rw [endRun_notice hstarter, hurgent, hindex]
  exact notify_masters_congr (runEnded_masters ..) (runEnded_now ..)

theorem completeStep_reports (hst : (s.port p).seq.currentStep = some st) (hchain : st.chain = false)
    (hstarter : (s.port p).seq.starter = some m) (hindex : (s.port p).seq.index = some i) :
    ReportEnds s (s.completeStep p) p m i .normal none none := by
  refine ⟨completeStep_ended hst hchain, ?_⟩
  have hport : ((s.updSeq p SeqCtx.stepDone).port p).seq = (s.port p).seq.stepDone := State.updSeq_port_seq ..
  have heq : s.completeStep p = (s.updSeq p SeqCtx.stepDone).endRun p .normal := by simp [State.completeStep, hst, hchain]
  have hends := (endRun_reports (s := s.updSeq p SeqCtx.stepDone) (p := p) (m := m) (i := i) (status := .normal) (frame := none)
    (lengths := none) (by rw [hport]; exact hstarter) (by rw [hport]; exact hindex) (.inl rfl)).2
  have hnotice : (s.updSeq p SeqCtx.stepDone).endNotice p m i .normal none none = s.endNotice p m i .normal none none := by
    unfold State.endNotice
    rw [hport, State.updSeq_port_lens]
    rfl
  rw [heq]
  refine hends.trans ?_
  rw [hnotice]
  exact notify_masters_congr rfl rfl

/-- R168: what the report of a stored frame makes of the run's last step. -/
theorem seqReport_stored {delivered missing damaged : Nat} {tags : Tags} (hst : (s.port p).seq.currentStep = some st)
    (hchain : status = .normal → st.chain = false) (hstarter : (s.port p).seq.starter = some m) (hindex : (s.port p).seq.index = some i)
    (hstatus : status = if st.lenient = true ∨ (delivered = lines ∧ tags.truncated = false) then .normal else .lengthMismatch) :
    ReportEnds s (s.seqReport p (.stored delivered lines missing damaged tags frame)) p m i status
      (if status = .normal then none else frame) (if status = .normal then none else some (delivered, lines)) := by
  have hlenient : ((s.port p).seq.currentStep.map Step.lenient).getD false = st.lenient := by rw [hst]; rfl
  have htest : (st.lenient || (decide (delivered = lines) && !tags.truncated)) = true ↔
      st.lenient = true ∨ (delivered = lines ∧ tags.truncated = false) := by simp
  unfold State.seqReport
  dsimp only
  rw [hlenient]
  by_cases hok : st.lenient = true ∨ (delivered = lines ∧ tags.truncated = false)
  · rw [if_pos hok] at hstatus
    subst hstatus
    rw [if_pos (htest.mpr hok)]
    exact completeStep_reports hst (hchain rfl) hstarter hindex
  · rw [if_neg hok] at hstatus
    subst hstatus
    rw [if_neg (mt htest.mp hok)]
    exact endRun_reports hstarter hindex (.inr rfl)

/-! ## The end of a discarding (R94) -/

theorem boundLive_discarded (hb : (s.port p).intake.bound.isSome = true) (hphase : (s.port p).seq.inPhase .frameWait = true)
    (hbound : (s.port p).seq.bound = some .discarded) (hstate : (s.port p).intake.state = .discarding) :
    (s.port p).boundLive = true := by
  simp [PortRec.boundLive, hb, hphase, hbound, hstate]

theorem boundLive_other (hstate : (s.port p).intake.state = .discarding)
    (h : (s.port p).seq.inPhase .frameWait = false ∨ (s.port p).seq.bound ≠ some .discarded) : (s.port p).boundLive = false := by
  unfold PortRec.boundLive
  rw [hstate]
  rcases h with h | h
  · simp [h]
  · cases hb : (s.port p).seq.bound with
    | none => simp
    | some b =>
      cases b with
      | frame id => simp
      | discarded => exact absurd hb h

theorem endDiscard_unbound_of (h : (s.port p).boundLive = false) : s.endDiscard p x = s.updIntake p IntakeRec.toIdle := by
  simp [State.endDiscard, State.reportDiscard, h]

/-- R94, R168: the end of a frame discarded for the last step of a run; `told` is the state in which the starter has its summary. -/
theorem reportDiscard_ends (hlive : (s.port p).boundLive = true) (hx : x ≠ .linkLeft) (hlines : (s.port p).intake.lines = some lines)
    (hst : (s.port p).seq.currentStep = some st) (hchain : st.chain = false) (hstarter : (s.port p).seq.starter = some m)
    (hindex : (s.port p).seq.index = some i)
    (hcase : (((s.port p).intake.cause = some .discardStep ∨ (s.port p).intake.cause = some .noReaders) ∧ status = .normal ∧
        lengths = none ∧ t = s.notify m false (.frameSummary p (((s.port p).intake.closeTail x).getD ⟨0, 0, 0⟩))) ∨
      ((s.port p).intake.cause = some .widthMismatch ∧ status = .lengthMismatch ∧ lengths = some (0, lines) ∧ t = s)) :
    SameButMasters s t ∧ ReportEnds t (s.reportDiscard p x) p m i status none lengths := by
  have hno : (!((s.port p).boundLive && decide (x ≠ .linkLeft))) = false := by simp [hlive, hx]
  rcases hcase with ⟨hcause, rfl, rfl, rfl⟩ | ⟨hcause, rfl, rfl, rfl⟩
  · have heq : s.reportDiscard p x =
        (s.notify m false (.frameSummary p (((s.port p).intake.closeTail x).getD ⟨0, 0, 0⟩))).completeStep p := by
      unfold State.reportDiscard
      rcases hcause with hcause | hcause <;> simp only [hno, Bool.false_eq_true, if_false, hcause, hstarter] <;> rfl
    rw [heq]
    exact ⟨notify_same .., completeStep_reports hst hchain hstarter hindex⟩
  · have heq : t.reportDiscard p x = t.endRun p .lengthMismatch { lengths := some (0, lines) } := by
      unfold State.reportDiscard
      simp only [hno, Bool.false_eq_true, if_false, hcause, hlines]
      rfl
    rw [heq]
    exact ⟨⟨fun _ => rfl, rfl, rfl, rfl, rfl, rfl, rfl, rfl, rfl⟩, endRun_reports hstarter hindex (.inr rfl)⟩

/-! ## Frame ids (R100) -/

/-- The id `k` places after an id. -/
def idAfter (n : Nat) : Nat → Nat
  | 0 => n
  | k + 1 => idAfter (succId n) k

theorem idAfter_eq (hk : k ≤ 512) : idAfter n k = if n ≤ 4294967295 then (if n + k ≤ 4294967295 then n + k else n + k - 4294967295)
    else if k = 0 then n else k := by
  induction k generalizing n with
  | zero =>
    unfold idAfter
    repeat' split
    all_goals omega
  | succ k ih =>
    have hsucc : succId n = if n < 4294967295 then n + 1 else 1 := rfl
    show idAfter (succId n) k = _
    rw [ih (by omega), hsucc]
    repeat' split
    all_goals omega

/-- R100: 513 ids in a row are different. -/
theorem idAfter_inj {j : Nat} (hk : k ≤ 512) (hj : j ≤ 512) (h : idAfter n k = idAfter n j) : k = j := by
  rw [idAfter_eq hk, idAfter_eq hj] at h
  repeat' split at h
  all_goals omega

/-- R100: the search ends at an id that is free, or has found all it tried taken. -/
theorem pickId_spec (sto : Store) : ∀ fuel n, (∀ g ∈ sto.frames, g.id ≠ sto.pickId fuel n) ∨
    ∀ k, k < fuel → ∃ g ∈ sto.frames, g.id = idAfter n k
  | 0, _ => .inr fun _ h => absurd h (Nat.not_lt_zero _)
  | fuel + 1, n => by
    unfold Store.pickId
    by_cases hn : sto.frames.any (fun f => f.id == n) = true
    · rw [if_pos hn]
      refine (pickId_spec sto fuel (succId n)).imp_right fun h k hk => ?_
      cases k with
      | zero => simpa [idAfter] using hn
      | succ k => exact h k (Nat.lt_of_succ_lt_succ hk)
    · rw [if_neg hn]
      exact .inl (by simpa using hn)

/-- R100: among fewer than 512 records the id found is one that no record holds. -/
theorem newId_fresh (h : sto.frames.length < 512) : ∀ g ∈ sto.frames, g.id ≠ sto.newId := by
  refine (pickId_spec sto (sto.frames.length + 1) sto.nextId).resolve_right fun hall => ?_
  have hnodup : ((List.range (sto.frames.length + 1)).map (fun k => idAfter sto.nextId k)).Nodup := by
    refine List.pairwise_map.2 (List.Pairwise.imp_of_mem (fun hk hj hlt heq => Nat.ne_of_lt hlt (idAfter_inj ?_ ?_ heq))
      List.pairwise_lt_range)
    · have := List.mem_range.1 hk
      omega
    · have := List.mem_range.1 hj
      omega
  have hsub : (List.range (sto.frames.length + 1)).map (fun k => idAfter sto.nextId k) ⊆ sto.frames.map FrameRec.id := by
    intro y hy
    obtain ⟨k, hk, rfl⟩ := List.mem_map.1 hy
    obtain ⟨g, hg, heq⟩ := hall k (List.mem_range.1 hk)
    exact List.mem_map.2 ⟨g, hg, heq⟩
  have := hnodup.length_le_of_subset hsub
  simp only [List.length_map, List.length_range] at this
  omega

theorem newId_next (h : ∀ g ∈ sto.frames, g.id ≠ sto.nextId) : sto.newId = sto.nextId := by
  unfold Store.newId Store.pickId
  exact if_neg (by simpa using h)

/-! ## Reclaim (R111, R112) -/

theorem NoVictim.victim (h : NoVictim sto) : sto.victim = none := by
  have : sto.frames.filter FrameRec.reclaimable = [] := by
    refine List.filter_eq_nil_iff.2 fun y hy hr => ?_
    obtain ⟨hready, hpins⟩ := Bool.and_eq_true_iff.1 hr
    have := h y hy (of_decide_eq_true hready)
    simp [FrameRec.pinned] at hpins
    omega
  simp [Store.victim, this]

theorem reclaimOne_none (h : NoVictim s.store) : s.reclaimOne = none := by
  simp [State.reclaimOne, h.victim]

/-- R112: the oldest unpinned frame reclaimed: its readers told, and the frame freed. -/
theorem reclaimOne_eq (h : OldestUnpinned s.store v) :
    s.reclaimOne = some ((s.toldReclaimed v).updStore (fun sto => sto.freeFrame v.id)) := by
  simp only [State.reclaimOne, h.victim]
  rfl

theorem toldReclaimed_same (s : State) (v : FrameRec) : SameButMasters s (s.toldReclaimed v) := by
  unfold State.toldReclaimed
  dsimp only
  have refl : SameButMasters s s := ⟨fun _ => rfl, rfl, rfl, rfl, rfl, rfl, rfl, rfl, rfl⟩
  have told : ∀ (b : Bool) (t : State) (m : Master), SameButMasters s t →
      SameButMasters s (if b = true then t.notify m false (.frameDropped v.id v.port .reclaimed true) else t) := fun b t m ht => by
    cases b with
    | false => exact ht
    | true => exact ht.trans (notify_same ..)
  exact told _ _ _ (told _ _ _ refl)

theorem toldReclaimed_masters (hm : t.masters = s.masters) (hn : t.now = s.now) : (t.toldReclaimed v).masters = (s.toldReclaimed v).masters := by
  unfold State.toldReclaimed
  dsimp only
  have told : ∀ (b : Bool) (x y : State) (m : Master), x.masters = y.masters → x.now = y.now →
      (if b = true then x.notify m false (.frameDropped v.id v.port .reclaimed true) else x).masters =
        (if b = true then y.notify m false (.frameDropped v.id v.port .reclaimed true) else y).masters := fun b x y m h k => by
    cases b with
    | false => exact h
    | true => exact notify_masters_congr h k
  refine told _ _ _ _ (told _ _ _ _ hm hn) ?_
  cases v.readers.a <;> exact hn

end Sys2Proof.Machine

end


section
/-! PROOFS. FRAME_OPEN (4.1, 4.2, 5.2, 5.5). -/

namespace Sys2Proof.Machine

variable {s t u v : State} {sto : Store} {p q : Port} {m : Master} {a : Analysis} {st : Step} {id i no w n lines width : Nat} {f : FrameRec}
  {ex cl : Option Nat}

/-! ## Taking a FRAME_OPEN (R75, R76) -/

/-- R75, R76: a FRAME_OPEN judged at the time `now`, the previous frame having ended. -/
def State.opens (s : State) (p : Port) (now : Time) (no w n : Nat) : State :=
  let v := s.updIntake p (IntakeRec.opening now)
  match (v.port p).seq.inPhase .openWait, (v.port p).seq.currentStep with
  | true, some st =>
    match st.kind with
    | .trigger _ lines width _ => v.openSequenced p st no w n lines width
    | _ => v.openUnsequenced p (s.port p).intake.pendingOrigin no w n
  | _, _ => v.openUnsequenced p (s.port p).intake.pendingOrigin no w n

theorem openFrame_eq (s : State) : s.openFrame p no w n = (s.endPrevious p).opens p s.now no w n := rfl

theorem endPrevious_idle (h : (s.port p).intake.state = .idle) : s.endPrevious p = s := by
  unfold State.endPrevious
  rw [h]

/-- The state in which a FRAME_OPEN has been heard and recorded. -/
def State.opening (s : State) (p : Port) : State :=
  s.updPort p (fun r => { r with link := { r.link with lastPacket := some s.now }, intake := r.intake.opening s.now })

theorem opening_sameBut (s : State) (p : Port) : SameBut s (s.opening p) p := updPort_sameBut ..

theorem opening_port (s : State) (p : Port) : (s.opening p).port p = { s.port p with
    link := { (s.port p).link with lastPacket := some s.now }, intake := (s.port p).intake.opening s.now } := State.updPort_port_self ..

theorem exec_frameOpen_up (hup : (s.port p).link.state = .up) :
    exec (.frameOpen p (s.port p).link.listen no w n) s = .next ((s.hear p).openFrame p no w n) := by
  simp [exec, execFrameOpen, receives_up hup, routed_up hup]

theorem hear_updIntake_opening (hatt : (s.port p).link.attempt = none) :
    (s.hear p).updIntake p (IntakeRec.opening s.now) = s.opening p := by
  unfold State.opening
  rw [hear_eq, State.updIntake, updPort_updPort]
  exact updPort_congr (by dsimp only; rw [heardPacket_of_none hatt])

/-- R75: at an IDLE intake, outside OPEN_WAIT, a FRAME_OPEN opens an unsequenced frame. -/
theorem exec_frameOpen_unbound (hup : (s.port p).link.state = .up) (hatt : (s.port p).link.attempt = none)
    (hidle : (s.port p).intake.state = .idle) (hphase : (s.port p).seq.inPhase .openWait = false) :
    exec (.frameOpen p (s.port p).link.listen no w n) s =
      .next ((s.opening p).openUnsequenced p (s.port p).intake.pendingOrigin no w n) := by
  have hport := (hear_spec hatt).2
  have hseq : ((s.opening p).port p).seq.inPhase .openWait = false := by rw [opening_port]; exact hphase
  rw [exec_frameOpen_up hup, openFrame_eq, endPrevious_idle (by rw [hport]; exact hidle)]
  show Host.Outcome.next ((s.hear p).opens p s.now no w n) = _
  unfold State.opens
  rw [hear_updIntake_opening hatt]
  simp only [hseq, hport]

/-- R76: in OPEN_WAIT it opens the frame of the TRIGGER step. -/
theorem exec_frameOpen_bound (hup : (s.port p).link.state = .up) (hatt : (s.port p).link.attempt = none)
    (hidle : (s.port p).intake.state = .idle) (hphase : (s.port p).seq.inPhase .openWait = true)
    (hst : (s.port p).seq.currentStep = some st) (hk : st.kind = .trigger ex lines width cl) :
    exec (.frameOpen p (s.port p).link.listen no w n) s = .next ((s.opening p).openSequenced p st no w n lines width) := by
  have hport := (hear_spec hatt).2
  have hseq : ((s.opening p).port p).seq = (s.port p).seq := by rw [opening_port]
  rw [exec_frameOpen_up hup, openFrame_eq, endPrevious_idle (by rw [hport]; exact hidle)]
  show Host.Outcome.next ((s.hear p).opens p s.now no w n) = _
  unfold State.opens
  rw [hear_updIntake_opening hatt]
  simp only [hseq, hphase, hst, hk]

theorem pickId_congr {sto' : Store} (h : sto.frames = sto'.frames) : ∀ fuel n, sto.pickId fuel n = sto'.pickId fuel n
  | 0, _ => rfl
  | fuel + 1, n => by
    unfold Store.pickId
    rw [h, pickId_congr h fuel]

theorem newId_congr {sto' : Store} (h : sto.frames = sto'.frames) (hn : sto.nextId = sto'.nextId) : sto.newId = sto'.newId := by
  unfold Store.newId
  rw [pickId_congr h, h, hn]

/-! ## The frame opened (R77, R79 to R81) -/

theorem isEmpty_of_ne {r : PerAnalysis Bool} (h : r ≠ ⟨false, false⟩) : r.isEmpty = false := by
  obtain ⟨x, y⟩ := r
  cases x <;> cases y <;> first | exact absurd rfl h | rfl

theorem unreservedRecords_pos : 1 ≤ sto.unreservedRecords ↔ sto.reservedRecords + sto.frames.length < 512 := by
  unfold Store.unreservedRecords Store.freeRecords Config.recordCount
  omega

/-- R77: the shapes an unsequenced frame may have. -/
def shapeFits (w n : Nat) : Bool := within 16 32768 w && decide (w % 16 = 0) && within 1 16384 n

theorem shapeFits_iff : shapeFits w n = true ↔ 16 ≤ w ∧ w ≤ 32768 ∧ w % 16 = 0 ∧ 1 ≤ n ∧ n ≤ 16384 := by
  simp [shapeFits, within, and_assoc]

/-- R81: the record of a frame being opened. -/
def State.newFrame (s : State) (p : Port) (o : Opening) (share : Nat) : FrameRec :=
  { id := s.store.newId, port := p, origin := o.origin, state := .filling, openTime := s.now, closeTime := none, width := o.width,
    lines := o.lines, stored := 0, cameraNo := o.frameNo, cameraLines := o.declaredLines, missing := 0, damaged := 0,
    firstDamaged := none, tags := { Tags.none with shapeFitted := o.fitted, lensMoving := (s.port p).lens.anyMoving },
    snapshot := (s.port p).lens.snapshot, pages := [], readers := o.readers, pins := ⟨0, 0⟩, readyTime := none, handover := none,
    stepReserved := share }

theorem openRecord_eq (s : State) (p : Port) (o : Opening) (share : Nat) : s.openRecord p o share =
    (s.updStore (fun sto => { sto with frames := sto.frames ++ [s.newFrame p o share], nextId := succId s.store.newId })).updIntake p
      (fun i => { i with state := .filling, openFrame := some s.store.newId, capacity := some (lineCapacity o.lines o.width)
                         highest := none, cutOff := false, cause := none, counts := none }) := rfl

/-- R79: the frame an unsequenced FRAME_OPEN asks for. -/
def openingOf (s : State) (p : Port) (pending : Option PendingOrigin) (no w n : Nat) : Opening :=
  { frameNo := no, declaredWidth := w, declaredLines := n, width := w, lines := n, origin := originOf pending
    readers := (s.port p).subscribers, fitted := false }

variable {pending : Option PendingOrigin}

theorem openUnsequenced_refused (h : shapeFits w n = false) : s.openUnsequenced p pending no w n =
    ((s.updIntake p (IntakeRec.shaped w w n none)).countRefused p).discard p .refused none := by
  unfold State.openUnsequenced
  dsimp only
  rw [if_pos]
  rw [show (within 16 32768 w && decide (w % 16 = 0) && within 1 16384 n) = shapeFits w n from rfl, h]
  rfl

/-- R79 to R81: what an unsequenced FRAME_OPEN of a shape that fits does. -/
theorem openUnsequenced_fits (h : shapeFits w n = true) : s.openUnsequenced p pending no w n =
    let s1 := s.updIntake p (IntakeRec.shaped w w n none)
    if (s.port p).subscribers.isEmpty then s1.discard p .noReaders none
    else if 1 ≤ s.store.unreservedRecords then s1.openRecord p (openingOf s p pending no w n) 0
    else (s1.reclaimOne.map (fun s2 => s2.openRecord p (openingOf s p pending no w n) 0)).getD
      ((s1.countRefused p).discard p .refused none) := by
  have hno : ¬ ((!(within 16 32768 w && decide (w % 16 = 0) && within 1 16384 n)) = true) := by
    rw [show (within 16 32768 w && decide (w % 16 = 0) && within 1 16384 n) = shapeFits w n from rfl, h]
    exact Bool.false_ne_true
  unfold State.openUnsequenced
  dsimp only
  rw [if_neg hno]
  cases (s.updIntake p (IntakeRec.shaped w w n none)).reclaimOne <;> rfl

/-- A discarding that begins at port `p`, the refusals counted or not. -/
theorem discarded_spec {cause : DiscardCause} {counts : Option DiscardCounts} {k : IntakeRec → IntakeRec} {c : Counters → Counters} :
    SameBut s (((s.updIntake p k).updCounters p c).discard p cause counts) p ∧
    ((((s.updIntake p k).updCounters p c).discard p cause counts).port p) = { s.port p with
      counters := c (s.port p).counters
      intake := { k (s.port p).intake with state := .discarding, cause := some cause, counts := counts, highest := none, cutOff := false
                                           capacity := none, openFrame := none } } := by
  refine ⟨((updPort_sameBut ..).trans (updPort_sameBut ..)).trans (updPort_sameBut ..), ?_⟩
  simp [State.discard, State.updIntake, State.updCounters]

theorem updCounters_id (s : State) (p : Port) : s.updCounters p (fun c => c) = s := updPort_self rfl

/-- R77, R79: the three discardings of an unsequenced frame; a refusal is counted. -/
theorem openUnsequenced_discards {cause : DiscardCause}
    (h : (cause = .refused ∧ shapeFits w n = false) ∨
      (cause = .noReaders ∧ shapeFits w n = true ∧ (s.port p).subscribers = ⟨false, false⟩) ∨
      (cause = .refused ∧ shapeFits w n = true ∧ (s.port p).subscribers ≠ ⟨false, false⟩ ∧
        512 ≤ s.store.reservedRecords + s.store.frames.length ∧ NoVictim s.store)) :
    SameBut s (s.openUnsequenced p pending no w n) p ∧ (s.openUnsequenced p pending no w n).port p = { s.port p with
      counters := if cause = .refused then { (s.port p).counters with framesRefused := satInc (s.port p).counters.framesRefused }
        else (s.port p).counters
      intake := { (s.port p).intake.shaped w w n none with
        state := .discarding, cause := some cause, counts := none, highest := none, cutOff := false, capacity := none, openFrame := none } } := by
  have hrefused : s.openUnsequenced p pending no w n =
        ((s.updIntake p (IntakeRec.shaped w w n none)).countRefused p).discard p .refused none →
      SameBut s (s.openUnsequenced p pending no w n) p ∧ (s.openUnsequenced p pending no w n).port p = { s.port p with
        counters := { (s.port p).counters with framesRefused := satInc (s.port p).counters.framesRefused }
        intake := { (s.port p).intake.shaped w w n none with
          state := .discarding, cause := some .refused, counts := none, highest := none, cutOff := false, capacity := none
          openFrame := none } } := fun heq => by
    rw [heq]
    exact discarded_spec
  rcases h with ⟨rfl, hshape⟩ | ⟨rfl, hshape, hsubs⟩ | ⟨rfl, hshape, hsubs, hfull, hno⟩
  · exact hrefused (openUnsequenced_refused hshape)
  · have heq : s.openUnsequenced p pending no w n =
        ((s.updIntake p (IntakeRec.shaped w w n none)).updCounters p (fun c => c)).discard p .noReaders none := by
      rw [openUnsequenced_fits hshape, hsubs, updCounters_id]
      rfl
    rw [heq]
    exact discarded_spec
  · refine hrefused ?_
    have hnone : (s.updIntake p (IntakeRec.shaped w w n none)).reclaimOne = none := reclaimOne_none hno
    rw [openUnsequenced_fits hshape]
    simp only [isEmpty_of_ne hsubs, Bool.false_eq_true, if_false, unreservedRecords_pos, Nat.not_lt.mpr hfull, hnone, Option.map_none,
      Option.getD_none]

/-- R80, R81: an unsequenced frame opened, with a record to spare or after a reclaim. -/
theorem openUnsequenced_opens (hshape : shapeFits w n = true) (hsubs : (s.port p).subscribers ≠ ⟨false, false⟩)
    (hroom : s.store.reservedRecords + s.store.frames.length < 512) : s.openUnsequenced p pending no w n =
      (s.updIntake p (IntakeRec.shaped w w n none)).openRecord p (openingOf s p pending no w n) 0 := by
  rw [openUnsequenced_fits hshape]
  simp only [isEmpty_of_ne hsubs, Bool.false_eq_true, if_false, unreservedRecords_pos, hroom, if_true]

theorem openUnsequenced_reclaims {y : FrameRec} (hshape : shapeFits w n = true) (hsubs : (s.port p).subscribers ≠ ⟨false, false⟩)
    (hfull : 512 ≤ s.store.reservedRecords + s.store.frames.length) (hy : OldestUnpinned s.store y) :
    s.openUnsequenced p pending no w n =
      (((s.updIntake p (IntakeRec.shaped w w n none)).toldReclaimed y).updStore (fun sto => sto.freeFrame y.id)).openRecord p
        (openingOf s p pending no w n) 0 := by
  have hsome : (s.updIntake p (IntakeRec.shaped w w n none)).reclaimOne = _ := reclaimOne_eq hy
  rw [openUnsequenced_fits hshape]
  simp only [isEmpty_of_ne hsubs, Bool.false_eq_true, if_false, unreservedRecords_pos, Nat.not_lt.mpr hfull, hsome, Option.map_some,
    Option.getD_some]

/-! ## The frame of a TRIGGER step (R78 to R81) -/

/-- R79: the readers of a step's frame. -/
theorem readerSet_eq (subs : PerAnalysis Bool) (m : Master) :
    readerSet subs (some m) = ⟨subs.a || decide (m = .A), subs.b || decide (m = .B)⟩ := by
  simp [readerSet]

/-- The step entering FRAME_WAIT on a frame that is discarded, until it is opened. -/
def State.frameAwaited (s : State) (p : Port) (st : Step) (declared lines width : Nat) : State :=
  (s.updIntake p (IntakeRec.shaped width declared lines (some ⟨(s.port p).seq.index.getD 0, st.lenient⟩))).updSeq p
    (fun c => { c with phase := some .frameWait, bound := some .discarded })

theorem frameAwaited_spec (s : State) (p : Port) (st : Step) (declared lines width : Nat) :
    SameBut s (s.frameAwaited p st declared lines width) p ∧ (s.frameAwaited p st declared lines width).port p = { s.port p with
      intake := (s.port p).intake.shaped width declared lines (some ⟨(s.port p).seq.index.getD 0, st.lenient⟩)
      seq := { (s.port p).seq with phase := some .frameWait, bound := some .discarded } } := by
  refine ⟨(updPort_sameBut ..).trans (updPort_sameBut ..), ?_⟩
  simp [State.frameAwaited, State.updIntake, State.updSeq]

/-- Nothing outside port `p` and the frame store has changed, whatever becomes of the store after it. -/
theorem SameBut.with_store (h : SameBut s t p) (k : Store → Store) : SameBut { s with store := (t.updStore k).store } (t.updStore k) p := by
  obtain ⟨h0, h1, h2, h3, h4, -, h6, h7, h8, h9⟩ := h
  exact ⟨h0, h1, h2, h3, h4, rfl, h6, h7, h8, h9⟩

theorem SameBut.own_store (h : SameBut s t p) : SameBut { s with store := t.store } t p := h.with_store id

theorem SameBut.then_store (h : SameBut { s with store := t.store } t p) (k : SameBut { t with store := u.store } u p) :
    SameBut { s with store := u.store } u p := by
  obtain ⟨h0, h1, h2, h3, h4, -, h6, h7, h8, h9⟩ := h
  obtain ⟨k0, k1, k2, k3, k4, k5, k6, k7, k8, k9⟩ := k
  exact ⟨fun q hq => (k0 q hq).trans (h0 q hq), k1.trans h1, k2.trans h2, k3.trans h3, k4.trans h4, k5, k6.trans h6, k7.trans h7,
    k8.trans h8, k9.trans h9⟩

theorem updSeq_port_eq (s : State) (p : Port) (k : SeqCtx → SeqCtx) :
    (s.updSeq p k).port p = { s.port p with seq := k (s.port p).seq } := State.updPort_port_self ..

/-- R78, R79: the three discardings of a step's frame. -/
theorem openSequenced_discards {declared declaredLines : Nat} {cause : DiscardCause} {counts : Option DiscardCounts}
    (h : (cause = .widthMismatch ∧ declared ≠ width ∧ st.lenient = false ∧ counts = none) ∨
      (cause = .discardStep ∧ (declared = width ∨ st.lenient = true) ∧ st.discard = true ∧ counts = some ⟨0, 0, 0⟩) ∨
      (cause = .noReaders ∧ (declared = width ∨ st.lenient = true) ∧ st.discard = false ∧
        readerSet (s.port p).subscribers (s.port p).seq.starter = ⟨false, false⟩ ∧ counts = some ⟨0, 0, 0⟩)) :
    s.openSequenced p st no declared declaredLines lines width = (s.frameAwaited p st declared lines width).discard p cause counts := by
  have hfits : (declared = width ∨ st.lenient = true) → ¬ (declared ≠ width ∧ st.lenient = false) := by
    rintro h ⟨hw, hl⟩
    exact h.elim hw (by rw [hl]; exact Bool.false_ne_true)
  unfold State.openSequenced
  rcases h with ⟨rfl, hw, hl, rfl⟩ | ⟨rfl, hw, hd, rfl⟩ | ⟨rfl, hw, hd, hr, rfl⟩
  · exact if_pos ⟨hw, hl⟩
  · exact (if_neg (hfits hw)).trans (if_pos hd)
  · exact (if_neg (hfits hw)).trans ((if_neg (by rw [hd]; exact Bool.false_ne_true)).trans (if_pos (by rw [hr]; rfl)))

/-- R80, R81: the shape of a step's frame. -/
def stepOpening (s : State) (p : Port) (no declared declaredLines lines width : Nat) : Opening :=
  { frameNo := no, declaredWidth := declared, declaredLines := declaredLines, width := width, lines := lines
    origin := .sequence ((s.port p).seq.starter.getD .C) ((s.port p).seq.index.getD 0)
    readers := readerSet (s.port p).subscribers (s.port p).seq.starter, fitted := decide (declared ≠ width) }

/-- R80: the step's share taken from the run's reservation for its frame. -/
def State.shareTaken (s : State) (p : Port) (st : Step) (declared lines width : Nat) : State :=
  ((s.frameAwaited p st declared lines width).updSeq p (fun c =>
    { c with bound := some (.frame s.store.newId), reservedPages := c.reservedPages - pagesFor lines width
             reservedRecords := c.reservedRecords - 1 })).updStore (fun sto => { sto with reservedRecords := sto.reservedRecords - 1 })

theorem openSequenced_opens {declared declaredLines : Nat} (hw : declared = width ∨ st.lenient = true) (hd : st.discard = false)
    (hr : readerSet (s.port p).subscribers (s.port p).seq.starter ≠ ⟨false, false⟩) :
    s.openSequenced p st no declared declaredLines lines width =
      (s.shareTaken p st declared lines width).openRecord p (stepOpening s p no declared declaredLines lines width) (pagesFor lines width) := by
  have hfits : ¬ (declared ≠ width ∧ st.lenient = false) := by
    rintro ⟨hne, hl⟩
    exact hw.elim hne (by rw [hl]; exact Bool.false_ne_true)
  unfold State.openSequenced
  exact (if_neg hfits).trans ((if_neg (by rw [hd]; exact Bool.false_ne_true)).trans
    (if_neg (by rw [isEmpty_of_ne hr]; exact Bool.false_ne_true)))

theorem shareTaken_spec (s : State) (p : Port) (st : Step) (declared lines width : Nat) :
    SameBut { s with store := (s.shareTaken p st declared lines width).store } (s.shareTaken p st declared lines width) p ∧
    (s.shareTaken p st declared lines width).store = { s.store with reservedRecords := s.store.reservedRecords - 1 } ∧
    (s.shareTaken p st declared lines width).port p = { s.port p with
      intake := (s.port p).intake.shaped width declared lines (some ⟨(s.port p).seq.index.getD 0, st.lenient⟩)
      seq := { (s.port p).seq with
        phase := some .frameWait, bound := some (.frame s.store.newId)
        reservedPages := (s.port p).seq.reservedPages - pagesFor lines width
        reservedRecords := (s.port p).seq.reservedRecords - 1 } } := by
  obtain ⟨hsame, hport⟩ := frameAwaited_spec s p st declared lines width
  refine ⟨?_, rfl, ?_⟩
  · exact (hsame.trans (updPort_sameBut ..)).with_store _
  · unfold State.shareTaken
    rw [State.updStore_port, updSeq_port_eq, hport]

theorem pagesFor_eq (lines width : Nat) : pagesFor lines width = (lines * width + 65535) / 65536 := by
  simp [pagesFor, ceilDiv, Config.pageBytes]

/-- R81: a record opened: the store, the port and what is left. -/
theorem openRecord_spec (s : State) (p : Port) (o : Opening) (share : Nat) :
    SameBut { s with store := (s.openRecord p o share).store } (s.openRecord p o share) p ∧
    (s.openRecord p o share).store = { s.store with frames := s.store.frames ++ [s.newFrame p o share], nextId := succId s.store.newId } ∧
    (s.openRecord p o share).port p = { s.port p with intake := { (s.port p).intake with
      state := .filling, openFrame := some s.store.newId, capacity := some (lineCapacity o.lines o.width), highest := none
      cutOff := false, cause := none, counts := none } } := by
  rw [openRecord_eq]
  exact ⟨⟨fun q hq => State.updPort_port_of_ne _ _ (Ne.symm hq), rfl, rfl, rfl, rfl, rfl, rfl, rfl, rfl, rfl⟩, rfl,
    State.updPort_port_self ..⟩

theorem snapshot_get (l : LensRec) (x : Axis) : l.snapshot.get x = (l.axes.get x).bind AxisRec.position := PerAxis.get_map ..

/-- R77, R79 to R81: an unsequenced frame opened at an IDLE intake, with a record to spare or after a reclaim. -/
theorem unsequencedFramesOpen (hup : (s.port p).link.state = .up) (hatt : (s.port p).link.attempt = none)
    (hidle : (s.port p).intake.state = .idle) (hphase : (s.port p).seq.inPhase .openWait = false)
    (hshape : shapeFits w n = true) (hsubs : (s.port p).subscribers ≠ ⟨false, false⟩) :
    (s.store.reservedRecords + s.store.frames.length < 512 →
      ∃ t f, exec (.frameOpen p (s.port p).link.listen no w n) s = .next t ∧
        SameBut { s with store := t.store } t p ∧
        t.store = { s.store with frames := s.store.frames ++ [f], nextId := t.store.nextId } ∧
        f = (s.opening p).newFrame p (openingOf s p (s.port p).intake.pendingOrigin no w n) 0 ∧
        t.port p = { s.port p with
          link := { (s.port p).link with lastPacket := some s.now }
          intake := { (s.port p).intake with
            state := .filling, openFrame := some f.id, bound := none, width := some w, declaredWidth := some w,
            lines := some n, capacity := some (min n (67108864 / w)), highest := none, cutOff := false, cause := none,
            counts := none, lastActivity := some s.now, pendingOrigin := none } }) ∧
    (∀ v, 512 ≤ s.store.reservedRecords + s.store.frames.length → OldestUnpinned s.store v →
      ∃ t f, exec (.frameOpen p (s.port p).link.listen no w n) s = .next t ∧
        SameBut { s with store := t.store, masters := t.masters } t p ∧ t.masters = (s.toldReclaimed v).masters ∧
        t.store.frames = s.store.frames.filter (fun x => !(x.id == v.id)) ++ [f] ∧
        t.store.freeList = s.store.freeList ++ v.pages ∧ f.port = p ∧ f.state = .filling ∧ f.width = w ∧ f.lines = n ∧
        f.pages = [] ∧ f.readers = (s.port p).subscribers ∧ (t.port p).intake.state = .filling ∧
        (t.port p).intake.openFrame = some f.id) := by
  obtain ⟨hsame, hport⟩ := And.intro (opening_sameBut s p) (opening_port s p)
  have hsubs' : ((s.opening p).port p).subscribers ≠ ⟨false, false⟩ := by rw [hport]; exact hsubs
  have hopening : openingOf (s.opening p) p (s.port p).intake.pendingOrigin no w n =
      openingOf s p (s.port p).intake.pendingOrigin no w n := by
    unfold openingOf
    rw [hport]
  have hexec := exec_frameOpen_unbound (no := no) (w := w) (n := n) hup hatt hidle hphase
  refine ⟨fun hroom => ?_, fun v hfull hv => ?_⟩
  · rw [openUnsequenced_opens hshape hsubs' hroom, hopening] at hexec
    obtain ⟨osame, ostore, oport⟩ := openRecord_spec ((s.opening p).updIntake p (IntakeRec.shaped w w n none)) p
      (openingOf s p (s.port p).intake.pendingOrigin no w n) 0
    refine ⟨_, _, hexec, ?_, ?_, rfl, ?_⟩
    · exact (hsame.trans (updPort_sameBut ..)).own_store.then_store osame
    · have hnew : ((s.opening p).updIntake p (IntakeRec.shaped w w n none)).newFrame p
          (openingOf s p (s.port p).intake.pendingOrigin no w n) 0 =
          (s.opening p).newFrame p (openingOf s p (s.port p).intake.pendingOrigin no w n) 0 := by
        unfold State.newFrame
        rw [State.updIntake_port_lens]
        rfl
      rw [ostore, hnew]
      rfl
    · rw [oport, State.updIntake, State.updPort_port_self, hport]
      rfl
  · rw [openUnsequenced_reclaims hshape hsubs' hfull hv, hopening] at hexec
    obtain ⟨vports, vnow, vreset, vmgr, vengine, vstore, vpresets, vlines, vpending⟩ :=
      toldReclaimed_same ((s.opening p).updIntake p (IntakeRec.shaped w w n none)) v
    have vmasters : (((s.opening p).updIntake p (IntakeRec.shaped w w n none)).toldReclaimed v).masters = (s.toldReclaimed v).masters :=
      toldReclaimed_masters rfl rfl
    generalize ((s.opening p).updIntake p (IntakeRec.shaped w w n none)).toldReclaimed v = y at *
    obtain ⟨⟨oports, onow, oreset, omgr, oengine, -, opresets, olines, omasters, opending⟩, ostore, oport⟩ :=
      openRecord_spec (y.updStore (fun sto => sto.freeFrame v.id)) p (openingOf s p (s.port p).intake.pendingOrigin no w n) 0
    have hstore : y.store = s.store := vstore
    refine ⟨_, (y.updStore (fun sto => sto.freeFrame v.id)).newFrame p (openingOf s p (s.port p).intake.pendingOrigin no w n) 0,
      hexec, ⟨fun q hq => ?_, onow.trans vnow, oreset.trans vreset, omgr.trans vmgr, oengine.trans vengine, rfl,
        opresets.trans vpresets, olines.trans vlines, rfl, opending.trans vpending⟩,
      omasters.trans vmasters, ?_, ?_, rfl, rfl, rfl, rfl, rfl, rfl, by rw [oport], by rw [oport]; rfl⟩
    · refine (oports q hq).trans ((vports q).trans ?_)
      exact (hsame.trans (updPort_sameBut ..)).1 q hq
    · rw [ostore]
      show (y.store.freeFrame v.id).frames ++ _ = _
      rw [hstore]
      rfl
    · rw [ostore]
      show (y.store.freeFrame v.id).freeList = _
      rw [hstore, freeList_freeFrame, pagesOf_unique hv.2.2.1]

/-- R76, R80, R81: the frame of a TRIGGER step opened. -/
theorem sequencedFramesOpen {rd : PerAnalysis Bool} (hup : (s.port p).link.state = .up) (hatt : (s.port p).link.attempt = none)
    (hidle : (s.port p).intake.state = .idle) (hphase : (s.port p).seq.inPhase .openWait = true)
    (hst : (s.port p).seq.currentStep = some st) (hi : (s.port p).seq.index = some i) (hk : st.kind = .trigger ex lines width cl)
    (hm : (s.port p).seq.starter = some m)
    (hrd : rd = ⟨(s.port p).subscribers.a || decide (m = .A), (s.port p).subscribers.b || decide (m = .B)⟩)
    (hw : w = width ∨ st.lenient = true) (hd : st.discard = false) (hne : rd ≠ ⟨false, false⟩) :
    ∃ t f, exec (.frameOpen p (s.port p).link.listen no w n) s = .next t ∧ SameBut { s with store := t.store } t p ∧
      t.store = { s.store with
        frames := s.store.frames ++ [f], nextId := t.store.nextId, reservedRecords := s.store.reservedRecords - 1 } ∧
      f.id = s.store.newId ∧ f.origin = .sequence m i ∧ f.width = width ∧ f.lines = lines ∧
      f.readers = rd ∧ f.state = .filling ∧ f.stored = 0 ∧ f.pages = [] ∧ f.cameraNo = no ∧ f.cameraLines = n ∧
      f.stepReserved = (lines * width + 65535) / 65536 ∧ f.tags.shapeFitted = decide (w ≠ width) ∧
      (t.port p).intake.state = .filling ∧ (t.port p).intake.openFrame = some f.id ∧
      (t.port p).intake.bound = some ⟨i, st.lenient⟩ ∧
      (t.port p).intake.capacity = some (min lines (67108864 / width)) ∧
      (t.port p).seq = { (s.port p).seq with
        phase := some .frameWait, bound := some (.frame f.id)
        reservedPages := (s.port p).seq.reservedPages - (lines * width + 65535) / 65536
        reservedRecords := (s.port p).seq.reservedRecords - 1 } := by
  have hport := opening_port s p
  have hreaders : readerSet ((s.opening p).port p).subscribers ((s.opening p).port p).seq.starter = rd := by
    rw [hport, hrd, hm, readerSet_eq]
  have hexec := exec_frameOpen_bound (no := no) (w := w) (n := n) hup hatt hidle hphase hst hk
  rw [openSequenced_opens hw hd (by rw [hreaders]; exact hne)] at hexec
  obtain ⟨hsame, hstore, hshare⟩ := shareTaken_spec (s.opening p) p st w lines width
  have hopening : stepOpening (s.opening p) p no w n lines width = { frameNo := no, declaredWidth := w, declaredLines := n
                                                                     width := width, lines := lines, origin := .sequence m i
                                                                     readers := rd, fitted := decide (w ≠ width) } := by
    unfold stepOpening
    rw [hreaders, hport, hm, hi]
    rfl
  obtain ⟨osame, ostore, oport⟩ := openRecord_spec ((s.opening p).shareTaken p st w lines width) p
    (stepOpening (s.opening p) p no w n lines width) (pagesFor lines width)
  have hid : ((s.opening p).shareTaken p st w lines width).store.newId = s.store.newId := newId_congr rfl rfl
  rw [hshare, hport, hi] at oport
  rw [hopening] at hexec osame ostore oport
  refine ⟨_, _, hexec, ?_, ostore, hid, rfl, rfl, rfl, rfl, rfl, rfl, rfl, rfl, rfl, pagesFor_eq lines width, rfl, by rw [oport],
    by rw [oport]; rfl, by rw [oport]; rfl, by rw [oport]; rfl, ?_⟩
  · exact (opening_sameBut s p).own_store.then_store (hsame.then_store osame)
  · have hfid : ∀ o k, (((s.opening p).shareTaken p st w lines width).newFrame p o k).id = s.store.newId := fun _ _ => hid
    rw [oport, pagesFor_eq, hfid]
    rfl

/-! ## A FRAME_OPEN over a frame (R75) -/

theorem hear_self (hatt : (s.port p).link.attempt = none) (hlast : (s.port p).link.lastPacket = some s.now) : s.hear p = s := by
  rw [hear_eq]
  refine updPort_self ?_
  rw [heardPacket_of_none hatt, ← hlast]

/-- R75: the FRAME_OPEN acts as on the state in which the previous frame has ended. -/
theorem opensOver_of (hup : (s.port p).link.state = .up) (hatt : (s.port p).link.attempt = none)
    (hu : (s.hear p).endPrevious p = u) (hsame : SameOutside s u p)
    (hlink : (u.port p).link = { (s.port p).link with lastPacket := some s.now })
    (hintake : (u.port p).intake = (s.port p).intake.toIdle) : OpensOver s u p no w n := by
  refine ⟨?_, hsame, hlink, hintake⟩
  have hnow : u.now = s.now := hsame.2.1
  have huup : (u.port p).link.state = .up := by rw [hlink]; exact hup
  have hlisten : (u.port p).link.listen = (s.port p).link.listen := by rw [hlink]
  have hheard : u.hear p = u := hear_self (by rw [hlink]; exact hatt) (by rw [hlink, hnow])
  have hidle : u.endPrevious p = u := endPrevious_idle (by rw [hintake]; rfl)
  have hexec := exec_frameOpen_up (no := no) (w := w) (n := n) huup
  rw [hlisten, hheard, openFrame_eq, hidle, hnow] at hexec
  rw [hexec, exec_frameOpen_up hup, openFrame_eq, hu]
  rfl

theorem endNotice_congr {j : Nat} {status : EndStatus} {frame : Option Nat} {lengths : Option (Nat × Nat)}
    (hlens : (t.port p).lens = (s.port p).lens) (hseq : (t.port p).seq = (s.port p).seq) :
    t.endNotice p m j status frame lengths = s.endNotice p m j status frame lengths := by
  unfold State.endNotice
  rw [hlens, hseq]

/-- R75, R94: over a frame discarded without a step, or one whose step is not in progress any more. -/
theorem opensOver_unbound (hup : (s.port p).link.state = .up) (hatt : (s.port p).link.attempt = none)
    (hstate : (s.port p).intake.state = .discarding) (hbound : (s.port p).intake.bound = none) :
    ∃ u, OpensOver s u p no w n ∧ SameBut s u p ∧ (u.port p).seq = (s.port p).seq := by
  obtain ⟨hsame, hport⟩ := hear_spec hatt
  have hends : (s.hear p).endPrevious p = (s.hear p).updIntake p IntakeRec.toIdle := by
    unfold State.endPrevious
    rw [hport]
    dsimp only
    rw [hstate]
    exact endDiscard_unbound (by rw [hport]; exact hbound)
  have hu : ((s.hear p).updIntake p IntakeRec.toIdle).port p = { s.port p with
      link := { (s.port p).link with lastPacket := some s.now }, intake := (s.port p).intake.toIdle } := by
    rw [State.updIntake, State.updPort_port_self, hport]
  have hall : SameBut s ((s.hear p).updIntake p IntakeRec.toIdle) p := hsame.trans (updPort_sameBut ..)
  exact ⟨_, opensOver_of hup hatt hends hall.outside (by rw [hu]) (by rw [hu]), hall, by rw [hu]⟩

/-- R75, R94: over a frame discarded for the last step of a run. -/
theorem opensOver_discarded {lenient : Bool} {told : State} {status : EndStatus} {lengths : Option (Nat × Nat)}
    (hup : (s.port p).link.state = .up) (hatt : (s.port p).link.attempt = none)
    (hstate : (s.port p).intake.state = .discarding) (hbound : (s.port p).intake.bound = some ⟨i, lenient⟩)
    (hlines : (s.port p).intake.lines = some lines) (hphase : (s.port p).seq.inPhase .frameWait = true)
    (hdisc : (s.port p).seq.bound = some .discarded) (hindex : (s.port p).seq.index = some i)
    (hst : (s.port p).seq.currentStep = some st) (hchain : st.chain = false) (hm : (s.port p).seq.starter = some m)
    (hcase : (∃ x, ((s.port p).intake.cause = some .discardStep ∨ (s.port p).intake.cause = some .noReaders) ∧
        (s.port p).intake.counts = some x ∧ status = .normal ∧ lengths = none ∧ told = s.notify m false (.frameSummary p x)) ∨
      ((s.port p).intake.cause = some .widthMismatch ∧ status = .lengthMismatch ∧ lengths = some (0, lines) ∧ told = s)) :
    ∃ u, OpensOver s u p no w n ∧ (u.port p).seq.state = .ready ∧ (u.port p).seq.ended = some (status, i) ∧
      u.masters = (told.notify m (decide (status ≠ .normal)) (s.endNotice p m i status none lengths)).masters := by
  obtain ⟨hsame, hport⟩ := hear_spec hatt
  have hseq : ((s.hear p).port p).seq = (s.port p).seq := by rw [hport]
  have hintake : ((s.hear p).port p).intake = (s.port p).intake := by rw [hport]
  obtain ⟨y, hy, hmasters⟩ : ∃ y : State, (((((s.hear p).port p).intake.cause = some .discardStep ∨
          ((s.hear p).port p).intake.cause = some .noReaders) ∧ status = .normal ∧ lengths = none ∧
        y = (s.hear p).notify m false (.frameSummary p ((((s.hear p).port p).intake.closeTail .newFrame).getD ⟨0, 0, 0⟩))) ∨
      (((s.hear p).port p).intake.cause = some .widthMismatch ∧ status = .lengthMismatch ∧ lengths = some (0, lines) ∧
        y = s.hear p)) ∧ y.masters = told.masters := by
    rcases hcase with ⟨x, hcause, hcounts, rfl, rfl, rfl⟩ | ⟨hcause, rfl, rfl, rfl⟩
    · refine ⟨_, .inl ⟨by rw [hintake]; exact hcause, rfl, rfl, rfl⟩, ?_⟩
      have htail : (s.port p).intake.closeTail .newFrame = some x := hcounts
      rw [hintake, htail]
      exact notify_masters_congr hsame.masters_eq hsame.2.1
    · exact ⟨_, .inr ⟨by rw [hintake]; exact hcause, rfl, rfl, rfl⟩, hsame.2.2.2.2.2.2.2.2.1⟩
  have hlive := boundLive_discarded (s := s.hear p) (p := p) (by rw [hintake, hbound]; rfl) (by rw [hseq]; exact hphase)
    (by rw [hseq]; exact hdisc) (by rw [hintake]; exact hstate)
  obtain ⟨ysame, yends, ymasters⟩ := reportDiscard_ends (x := .newFrame) hlive nofun (by rw [hintake]; exact hlines) (by rw [hseq]; exact hst)
    hchain (by rw [hseq]; exact hm) (by rw [hseq]; exact hindex) hy
  have hyport : y.port p = (s.hear p).port p := ysame.1 p
  have hends : (s.hear p).endPrevious p = ((s.hear p).reportDiscard p .newFrame).updIntake p IntakeRec.toIdle := by
    unfold State.endPrevious
    rw [hintake, hstate]
    rfl
  generalize (s.hear p).reportDiscard p .newFrame = z at *
  have zoutside := yends.outside
  obtain ⟨-, -, zport⟩ := yends
  have hu : (z.updIntake p IntakeRec.toIdle).port p = { z.port p with intake := (z.port p).intake.toIdle } := State.updPort_port_self ..
  rw [zport, hyport, hport] at hu
  have hnow : y.now = told.now := by
    have h1 : y.now = s.now := ysame.2.1.trans hsame.2.1
    rcases hcase with ⟨x, -, -, -, -, rfl⟩ | ⟨-, -, -, rfl⟩ <;> exact h1
  refine ⟨_, opensOver_of hup hatt hends ?_ (by rw [hu]) (by rw [hu]), by rw [hu], by rw [hu, hindex]; rfl, ?_⟩
  · exact ((hsame.outside.trans (ysame.only p).1).trans zoutside).trans (updPort_sameBut ..).outside
  · have hnotice : y.endNotice p m i status none lengths = s.endNotice p m i status none lengths :=
      endNotice_congr (by rw [hyport, hport]) (by rw [hyport, hseq])
    refine ymasters.trans ?_
    rw [hnotice]
    exact notify_masters_congr hmasters hnow

theorem filter_nil_of {l : List BufferedLine} (h : l = []) (k : BufferedLine → Bool) : l.filter k = [] := by
  rw [h]
  rfl

/-- R75, R91: over a frame FILLING, its lines written and its one reader with room: the state in which it has been handed over. -/
theorem finalizedOver (hatt : (s.port p).link.attempt = none) (hstate : (s.port p).intake.state = .filling)
    (hopen : (s.port p).intake.openFrame = some id) (hbuf : (s.port p).intake.buffers = []) (hf : s.frame? id = some f)
    (hstored : 0 < f.stored) (hr : f.readers = (⟨false, false⟩ : PerAnalysis Bool).set a true)
    (hroom : (s.store.readers.get a).ready.length < (s.store.readers.get a).holdLimit) :
    ∃ v : State, (s.hear p).endPrevious p = (if (s.port p).boundLive then
        v.seqReport p ((f.endTagged ⟨true, true⟩).report f.stored) else v) ∧
      SameOutside s v p ∧
      v.port p = { s.port p with link := { (s.port p).link with lastPacket := some s.now }, intake := (s.port p).intake.toIdle } ∧
      v.frame? id = some (((f.endTagged ⟨true, true⟩).closedAt s.now).readied s.store.nextHandover) ∧
      v.store = { s.store with
        frames := v.store.frames, handovers := s.store.nextHandover, reservedPages := s.store.reservedPages - f.stepReserved
        readers := s.store.readers.set a { s.store.readers.get a with ready := (s.store.readers.get a).ready ++ [id] } } ∧
      v.masters = (s.notify a.master false (.frameReady ((((f.endTagged ⟨true, true⟩).closedAt s.now).readied
        s.store.nextHandover).entry a) ((s.store.readers.get a).ready.length + 1))).masters := by
  obtain ⟨hsame, hport⟩ := hear_spec hatt
  have hframe : (s.hear p).frame? id = some f := hf
  have hintake : ((s.hear p).port p).intake = (s.port p).intake := by rw [hport]
  have hlive : ((s.hear p).port p).boundLive = (s.port p).boundLive := by rw [hport]; rfl
  have hpartial : (f.endTagged ⟨true, true⟩).tags.isPartial = true := Bool.or_true _
  obtain ⟨v, hv⟩ : ∃ v, ((s.hear p).frameClosed p id ⟨true, true⟩).handover id = v := ⟨_, rfl⟩
  obtain ⟨vsame, vport, vframe, -, vstore, vmasters⟩ := frameClosed_listed (a := a) hv hframe (.inr (.inl hpartial)) hstored hr hroom
  have hends : (s.hear p).endPrevious p = (s.hear p).finalize p ⟨true, true⟩ true := by
    unfold State.endPrevious
    rw [hintake, hstate]
  rw [finalize_unpadded (by rw [hintake]; exact hopen) hframe (.inr (.inl hpartial)), hv, hlive, Bool.and_true] at hends
  refine ⟨v, hends, hsame.outside.trans vsame, ?_, vframe, ?_, vmasters.trans (notify_masters_congr rfl rfl)⟩
  · rw [vport, hintake, filter_nil_of hbuf, hport]
    rw [← hbuf]
    rfl
  · rw [vstore, hintake, filter_nil_of hbuf]
    rfl

/-- Settles O41. -/
theorem framesOpen : Obligations.FramesOpen := by
  refine ⟨fun s p no w n hup hatt hidle hphase => ⟨fun cause hcause => ?_, fun h1 h2 h3 h4 h5 hsubs hroom => ?_,
      fun v h1 h2 h3 h4 h5 hsubs hfull hv => ?_⟩,
    fun s p no w n lines width i st ex cl m rd hup hatt hidle hphase hst hi hk hm hrd =>
      ⟨fun cause counts hcause => ?_, fun hw hd hne hlen => ?_⟩,
    fun s p no w n hup hatt => ⟨opensOver_unbound hup hatt, fun i lines st lenient m hstate hbound hlines hphase hdisc hindex hst hchain hm
      told status lengths hcase => opensOver_discarded hup hatt hstate hbound hlines hphase hdisc hindex hst hchain hm hcase,
      fun id f g a entry told hstate hopen hbuf hf hstored hr hroom hg hentry htold =>
        ⟨fun hbound hres => ?_, fun i st lenient m status hbound hphase hlive hindex hst hlenient hchain hm hstatus => ?_⟩,
      fun id f hstate hopen hbound hbuf hf hstored _ => ?_⟩⟩
  · have hexec := exec_frameOpen_unbound (no := no) (w := w) (n := n) hup hatt hidle hphase
    have hport := opening_port s p
    obtain ⟨dsame, dport⟩ := openUnsequenced_discards (s := s.opening p) (p := p) (no := no) (w := w) (n := n)
        (pending := (s.port p).intake.pendingOrigin) (cause := cause) (by
      rw [hport]
      rcases hcause with ⟨rfl, h⟩ | ⟨rfl, h1, h2, h3, h4, h5, hsubs⟩ | ⟨rfl, h1, h2, h3, h4, h5, hsubs, hfull, hno⟩
      · refine .inl ⟨rfl, ?_⟩
        rw [← Bool.not_eq_true, shapeFits_iff]
        omega
      · exact .inr (.inl ⟨rfl, shapeFits_iff.2 ⟨h1, h2, h3, h4, h5⟩, hsubs⟩)
      · exact .inr (.inr ⟨rfl, shapeFits_iff.2 ⟨h1, h2, h3, h4, h5⟩, hsubs, hfull, hno⟩))
    refine ⟨_, hexec, (opening_sameBut s p).trans dsame, ?_⟩
    rw [dport, hport]
    refine ⟨rfl, rfl, rfl, rfl, rfl, rfl, rfl, ?_⟩
    by_cases h : cause = .refused
    · rw [if_pos h, if_pos h]
      rfl
    · rw [if_neg h, if_neg h]
  · obtain ⟨hopens, -⟩ := unsequencedFramesOpen (no := no) hup hatt hidle hphase (shapeFits_iff.2 ⟨h1, h2, h3, h4, h5⟩) hsubs
    obtain ⟨t, f, hexec, hsame, hstore, rfl, hport⟩ := hopens hroom
    have hlens : ((s.opening p).port p).lens = (s.port p).lens := by rw [opening_port]
    refine ⟨t, _, hexec, hsame, hstore, newId_fresh (by omega), newId_next, rfl, rfl, rfl, rfl, rfl, rfl, rfl, rfl, rfl, rfl, rfl, rfl,
      rfl, rfl, rfl, ?_, fun x => ?_, hport⟩
    · show originOf (s.port p).intake.pendingOrigin = _
      cases (s.port p).intake.pendingOrigin with
      | none => rfl
      | some o => cases o <;> rfl
    · show ((s.opening p).port p).lens.snapshot.get x = _
      rw [hlens, snapshot_get]
  · exact (unsequencedFramesOpen hup hatt hidle hphase (shapeFits_iff.2 ⟨h1, h2, h3, h4, h5⟩) hsubs).2 v hfull hv
  · have hexec := exec_frameOpen_bound (no := no) (w := w) (n := n) hup hatt hidle hphase hst hk
    have hport := opening_port s p
    have hreaders : readerSet ((s.opening p).port p).subscribers ((s.opening p).port p).seq.starter = rd := by
      rw [hport, hrd, hm, readerSet_eq]
    rw [openSequenced_discards (by rw [hreaders]; exact hcause)] at hexec
    obtain ⟨fsame, fport⟩ := frameAwaited_spec (s.opening p) p st w lines width
    obtain ⟨dsame, dport⟩ := discarded_spec (s := (s.opening p).frameAwaited p st w lines width) (p := p) (cause := cause) (counts := counts)
      (k := id) (c := id)
    have heq : ((((s.opening p).frameAwaited p st w lines width).updIntake p id).updCounters p id) =
        (s.opening p).frameAwaited p st w lines width := (updPort_self rfl).trans (updPort_self rfl)
    rw [heq] at dsame dport
    refine ⟨_, hexec, ((opening_sameBut s p).trans fsame).trans dsame, ?_⟩
    rw [dport, fport, hport, hi]
    exact ⟨rfl, rfl, rfl, rfl, rfl, rfl⟩
  · obtain ⟨t, f, hexec, hsame, hstore, hid, hrest⟩ := sequencedFramesOpen (no := no) (n := n) hup hatt hidle hphase hst hi hk hm hrd hw hd hne
    exact ⟨t, f, hexec, hsame, hstore, fun g hg => by rw [hid]; exact newId_fresh hlen g hg, hrest⟩
  · obtain ⟨v, hends, hsame, hport, hframe, hstore, hmasters⟩ := finalizedOver hatt hstate hopen hbuf hf hstored hr hroom
    rw [boundLive_unbound hbound] at hends
    have hready : ((f.endTagged ⟨true, true⟩).closedAt s.now).readied s.store.nextHandover = g := by
      rw [hg]
      simp only [FrameRec.readied, FrameRec.closedAt, FrameRec.endTagged, Bool.or_true]
      rfl
    have hentry' : g.entry a = entry := by
      rw [hentry, hg]
      rfl
    rw [hready, hentry'] at hmasters
    refine ⟨v, opensOver_of hup hatt hends hsame (by rw [hport]) (by rw [hport]), by rw [hframe, hready], ?_, by rw [hport],
      by rw [hstore], by rw [hstore], by rw [hmasters, htold]⟩
    rw [hstore, PerAnalysis.get_set_self]
  · obtain ⟨v, hends, hsame, hport, hframe, hstore, hmasters⟩ := finalizedOver hatt hstate hopen hbuf hf hstored hr hroom
    rw [boundLive_of (by rw [hbound]; rfl) hphase hlive hstate hopen, if_pos rfl] at hends
    have hready : ((f.endTagged ⟨true, true⟩).closedAt s.now).readied s.store.nextHandover = g := by
      rw [hg]
      simp only [FrameRec.readied, FrameRec.closedAt, FrameRec.endTagged, Bool.or_true]
      rfl
    have hentry' : g.entry a = entry := by
      rw [hentry, hg]
      rfl
    rw [hready, hentry'] at hmasters
    have hseq : (v.port p).seq = (s.port p).seq := by rw [hport]
    have hreport := seqReport_stored (s := v) (p := p) (m := m) (i := i) (st := st) (delivered := f.stored) (lines := f.lines)
      (missing := f.missing) (damaged := f.damaged) (tags := (f.endTagged ⟨true, true⟩).tags)
      (frame := if f.stored = 0 then none else some f.id) (status := status) (by rw [hseq]; exact hst) (fun _ => hchain) (by rw [hseq]; exact hm)
      (by rw [hseq]; exact hindex) (by rw [hstatus, hlenient]; rfl)
    have hends' : (s.hear p).endPrevious p = v.seqReport p (.stored f.stored f.lines f.missing f.damaged (f.endTagged ⟨true, true⟩).tags
      (if f.stored = 0 then none else some f.id)) := hends
    obtain ⟨u, hu⟩ : ∃ u, v.seqReport p (.stored f.stored f.lines f.missing f.damaged (f.endTagged ⟨true, true⟩).tags
      (if f.stored = 0 then none else some f.id)) = u := ⟨_, rfl⟩
    rw [hu] at hends' hreport
    obtain ⟨hrun, humasters⟩ := hreport
    have houtside := hrun.outside
    obtain ⟨-, hustore, huport⟩ := hrun
    have hnotice : ∀ x y, v.endNotice p m i status x y = s.endNotice p m i status x y := fun x y =>
      endNotice_congr (by rw [hport]) hseq
    refine ⟨u, opensOver_of hup hatt hends' (hsame.trans houtside) (by rw [huport, hport]) (by rw [huport, hport]), ?_, ?_,
      by rw [huport], by rw [huport, hport, hindex]; rfl, ?_, ?_⟩
    · have : u.frame? id = v.frame? id := by
        unfold State.frame? Store.frame?
        rw [hustore]
      rw [this, hframe, hready]
    · rw [hustore, hstore]
      exact congrArg ReaderRec.ready (PerAnalysis.get_set_self ..)
    · rw [hustore, hstore, hport]
    · rw [humasters, hnotice, if_neg (Nat.ne_of_gt hstored)]
      exact notify_masters_congr (by rw [hmasters, htold]) (by rw [hsame.2.1, htold]; rfl)
  · obtain ⟨hsame, hport⟩ := hear_spec hatt
    have hframe : (s.hear p).frame? id = some f := hf
    have hintake : ((s.hear p).port p).intake = (s.port p).intake := by rw [hport]
    obtain ⟨-, csame, cmasters, cport, cframe, -, cstore, -⟩ := frameClosed_unpadded (p := p) (e := ⟨true, true⟩) hframe
      (.inl (by rw [hintake, hbound]; rfl))
    have hends : (s.hear p).endPrevious p = ((s.hear p).frameClosed p id ⟨true, true⟩).handover id := by
      unfold State.endPrevious
      rw [hintake, hstate]
      exact finalize_unbound (by rw [hintake]; exact hopen) hframe (by rw [hintake]; exact hbound)
    have hfreed := handover_unstored cframe hstored
    generalize (s.hear p).frameClosed p id ⟨true, true⟩ = c at *
    rw [hfreed] at hends
    have hcfound : c.store.frame? id = some _ := cframe
    refine ⟨_, opensOver_of hup hatt hends (hsame.outside.trans (csame.trans (updStore_only c p _).1))
      (by rw [State.updStore_port, cport, hport]) ?_,
      Store.frame?_freeFrame, cmasters, fun q hq => ?_⟩
    · rw [State.updStore_port, cport, hintake, filter_nil_of hbuf, ← hbuf]
      rfl
    · exact mem_freeList_freeFrame (st := { c.store with handovers := c.store.nextHandover }) hcfound hq

end Sys2Proof.Machine

end


section
/-! PROOFS. The end of a frame bound to a step (4.4 to 4.7, 8.4). -/

namespace Sys2Proof.Machine

variable {s t u v : State} {p q : Port} {m : Master} {a : Analysis} {st : Step} {id i n k cc lines short delivered : Nat} {f g want : FrameRec}
  {status : EndStatus} {mem : Memory}

/-! ## Bytes zero-filled (R82, R86) -/

theorem Memory.read_of_unlisted : ∀ {m : Memory} {x : Nat}, (∀ c ∈ m, c.1 ≠ x) → m.read x = 0
  | [], _, _ => rfl
  | (k, b) :: r, x, h => by
    rw [Memory.read, if_neg (Ne.symm (h (k, b) List.mem_cons_self)), Memory.read_of_unlisted (fun c hc => h c (List.mem_cons_of_mem _ hc))]
    exact ite_self _

theorem mem_of_mem_zeroFrameBytes {lo hi : Nat} {c : Nat × Byte} : ∀ (pages : List Nat) (i : Nat) {m : Memory},
    c ∈ zeroFrameBytes lo hi i pages m → c ∈ m
  | [], _, _, h => h
  | page :: rest, i, m, h => by
    rw [zeroFrameBytes] at h
    have := mem_of_mem_zeroFrameBytes rest (i + 1) h
    split at this
    · exact (List.mem_filter.1 this).1
    · exact this

/-- Zero-filling from page `i` on: no byte of the range stays listed. -/
theorem zeroFrameBytes_unlisted {lo hi page b : Nat} {c : Nat × Byte} (hb : b < Config.pageBytes) : ∀ (pages : List Nat) (i j : Nat)
    {m : Memory}, pages[j]? = some page → lo ≤ (i + j) * Config.pageBytes + b → (i + j) * Config.pageBytes + b < hi →
    c ∈ zeroFrameBytes lo hi i pages m → c.1 ≠ page * Config.pageBytes + b := by
  intro pages
  induction pages with
  | nil => exact fun i j m h => nomatch h
  | cons p0 rest ih =>
    intro i j m h h1 h2 hc
    rw [zeroFrameBytes] at hc
    cases j with
    | succ j =>
      have e : i + (j + 1) = i + 1 + j := by omega
      rw [e] at h1 h2
      exact ih (i + 1) j h h1 h2 hc
    | zero =>
      obtain rfl : p0 = page := Option.some.inj h
      have hmem := mem_of_mem_zeroFrameBytes rest (i + 1) hc
      rw [Nat.add_zero] at h1 h2
      generalize Config.pageBytes = P at *
      rw [if_pos (by omega)] at hmem
      have := (List.mem_filter.1 hmem).2
      simp only [Bool.or_eq_true, decide_eq_true_eq] at this
      omega

/-- R86: the places of a range of a frame's bytes read as zeros once filled. -/
theorem zeroFrameBytes_zero {lo hi b x : Nat} {pages : List Nat} (h1 : lo ≤ b) (h2 : b < hi) (h : frameAddr pages b = some x) :
    (zeroFrameBytes lo hi 0 pages mem).read x = 0 := by
  obtain ⟨page, hpage, rfl⟩ := (frameAddr_eq _ _ _).1 h
  have hdiv := Nat.div_add_mod' b Config.pageBytes
  refine Memory.read_of_unlisted fun c hc => zeroFrameBytes_unlisted (Nat.mod_lt b (by decide)) pages 0
    (b / Config.pageBytes) hpage ?_ ?_ hc <;> rw [Nat.zero_add] <;> omega

theorem frameAddr_append {pages l : List Nat} {b x : Nat} (h : frameAddr pages b = some x) : frameAddr (pages ++ l) b = some x := by
  obtain ⟨page, hpage, rfl⟩ := (frameAddr_eq _ _ _).1 h
  exact (frameAddr_eq _ _ _).2 ⟨page, (List.getElem?_append_left (List.getElem?_eq_some_iff.1 hpage).1).trans hpage, rfl⟩

/-! ## Buffered lines written to their places (R82, R87) -/

theorem flushBytes_wf : ∀ (l : List BufferedLine) {m : Memory}, m.wf = true → (flushBytes f l m).wf = true
  | [], _, h => h
  | b :: l, _, h => flushBytes_wf l (writeFrameBytes_wf f.pages b.bytes _ h)

/-- Two lines of a frame, none longer than its width, share no byte. -/
theorem line_bytes_apart {w x y j k : Nat} (hj : j < w) (hk : k < w) (h : x * w + j = y * w + k) : x = y := by
  have hx : (x * w + j) / w = x := by rw [Nat.mul_comm, Nat.mul_add_div (by omega), Nat.div_eq_of_lt hj, Nat.add_zero]
  have hy : (y * w + k) / w = y := by rw [Nat.mul_comm, Nat.mul_add_div (by omega), Nat.div_eq_of_lt hk, Nat.add_zero]
  rw [← hx, h, hy]

/-- R82: different lines of a frame, none longer than its width, stand at their places once written, and every other byte is as
before. -/
theorem flushBytes_read (hn : f.pages.Nodup) : ∀ (l : List BufferedLine) {m : Memory}, m.wf = true →
    l.Pairwise (fun x y => x.index ≠ y.index) → (∀ b ∈ l, b.bytes.length ≤ f.width) →
    (∀ b ∈ l, ∀ j x, j < b.bytes.length → frameAddr f.pages (b.index * f.width + j) = some x →
      (flushBytes f l m).read x = b.bytes.getD j 0) ∧
    (∀ x, (∀ b ∈ l, ∀ j, j < b.bytes.length → frameAddr f.pages (b.index * f.width + j) ≠ some x) →
      (flushBytes f l m).read x = m.read x)
  | [], m, _, _, _ => ⟨fun b hb => (nomatch hb), fun _ _ => rfl⟩
  | b :: l, m, hm, hp, hl => by
    obtain ⟨hhead, hp⟩ := List.pairwise_cons.1 hp
    have hbl := hl b List.mem_cons_self
    obtain ⟨hwritten, hothers⟩ := writeFrameBytes_read hn b.bytes (b.index * f.width) hm
    obtain ⟨ih1, ih2⟩ := flushBytes_read hn l (writeFrameBytes_wf f.pages b.bytes (b.index * f.width) hm) hp
      (fun c hc => hl c (List.mem_cons_of_mem _ hc))
    refine ⟨fun c hc j x hj hx => ?_, fun x hx => ?_⟩
    · rcases List.mem_cons.1 hc with rfl | hc
      · refine (ih2 x fun d hd k hk hxk => hhead d hd ?_).trans (hwritten j x hj hx)
        have := hl d (List.mem_cons_of_mem _ hd)
        exact line_bytes_apart (by omega) (by omega) (frameAddr_inj hn hx hxk)
      · exact ih1 c hc j x hj hx
    · exact (ih2 x fun d hd => hx d (List.mem_cons_of_mem _ hd)).trans (hothers x (hx b List.mem_cons_self))

end Sys2Proof.Machine

end


section
/-! PROOFS. The end of a stored frame bound to a step (4.4 to 4.7, 8.4). -/

namespace Sys2Proof.Machine

variable {s t u v : State} {p q : Port} {m : Master} {a : Analysis} {st : Step} {id i n k cc lines short delivered : Nat} {f g want : FrameRec}
  {status : EndStatus} {mem d : Memory}

/-! ## Pages from the step reservation (R85, R108) -/

/-- State `t` is `s` with `n` free pages drawn by frame `id` under its step reservation, its record now `f`, and `d` in the DRAM; the
port's intake alone may have changed. -/
def Drawn (s t : State) (p : Port) (id n : Nat) (f : FrameRec) (d : Memory) : Prop :=
  SameOutside s t p ∧ t.masters = s.masters ∧ t.port p = { s.port p with intake := (t.port p).intake } ∧ t.frame? id = some f ∧
  ∃ fr, t.store = { s.store with
    frames := fr, dram := d, freeList := s.store.freeList.drop n, reservedPages := s.store.reservedPages - n }

/-- A frame's record with `n` pages more, drawn under its step reservation. -/
def FrameRec.drawing (f : FrameRec) (st : Store) (n : Nat) : FrameRec :=
  { f with pages := f.pages ++ st.freeList.take n, stepReserved := f.stepReserved - n }

theorem drawing_zero (st : Store) : f.drawing st 0 = f := by
  simp [FrameRec.drawing]

theorem Drawn.self (hf : s.frame? id = some f) : Drawn s s p id 0 f s.store.dram :=
  ⟨(SameBut.refl s p).outside, rfl, rfl, hf, _, rfl⟩

/-- A change of the frame's record. -/
theorem Drawn.updFrame {k : FrameRec → FrameRec} (hk : ∀ r, (k r).id = r.id) (h : Drawn s t p id n f d) :
    Drawn s (t.updFrame id k) p id n (k f) d := by
  obtain ⟨hsame, hmasters, hport, hframe, fr, hstore⟩ := h
  refine ⟨hsame.trans (updFrame_only t p id k).1, hmasters, hport, frame?_updFrame_state hk hframe, (t.store.updFrame id k).frames, ?_⟩
  have heq : (t.updFrame id k).store = { t.store with frames := (t.store.updFrame id k).frames } := rfl
  rw [heq]
  generalize (t.store.updFrame id k).frames = fr'
  rw [hstore]

theorem Drawn.updIntake {k : IntakeRec → IntakeRec} (h : Drawn s t p id n f d) : Drawn s (t.updIntake p k) p id n f d := by
  obtain ⟨hsame, hmasters, hport, hframe, hstore⟩ := h
  refine ⟨hsame.trans (updIntake_only t p k).1, hmasters, ?_, hframe, hstore⟩
  rw [show (t.updIntake p k).port p = { t.port p with intake := k (t.port p).intake } from State.updPort_port_self .., hport]

theorem Drawn.updDram {e : Memory} (h : Drawn s t p id n f d) : Drawn s (t.updStore (fun x => { x with dram := e })) p id n f e := by
  obtain ⟨hsame, hmasters, hport, hframe, fr, hstore⟩ := h
  refine ⟨hsame.trans (updStore_only t p _).1, hmasters, hport, hframe, fr, ?_⟩
  show { t.store with dram := e } = _
  rw [hstore]

theorem Drawn.dram (h : Drawn s t p id n f d) : t.store.dram = d := by
  obtain ⟨-, -, -, -, fr, hstore⟩ := h
  rw [hstore]

theorem Drawn.frame (h : Drawn s t p id n f d) : t.frame? id = some f := h.2.2.2.1

theorem Drawn.other (h : Drawn s t p id n f d) : (t.port p).seq = (s.port p).seq ∧ (t.port p).lens = (s.port p).lens := by
  obtain ⟨-, -, hport, -⟩ := h
  rw [hport]
  exact ⟨rfl, rfl⟩

/-- R85: the pages a bound frame is short of, drawn under its step reservation, which holds as many. -/
theorem needPages_bound (h : Drawn s t p id 0 f d) (hb : (t.port p).intake.bound.isSome = true)
    (hshort : pagesFor n f.width - f.pages.length ≤ f.stepReserved) :
    ∃ u, t.needPages p id n = (u, true) ∧ u.port p = t.port p ∧
      Drawn s u p id (pagesFor n f.width - f.pages.length) (f.drawing s.store (pagesFor n f.width - f.pages.length)) d := by
  have hframe := h.frame
  generalize hsh : pagesFor n f.width - f.pages.length = sh at *
  by_cases hz : sh = 0
  · refine ⟨t, ?_, rfl, ?_⟩
    · simp [State.needPages, hframe, hsh, hz]
    · rw [hz, drawing_zero]
      exact h
  · obtain ⟨dframe, -, dstore⟩ := Store.drawReserved_spec (st := t.store) sh hframe
    obtain ⟨hsame, hmasters, hport, -, fr, hstore⟩ := h
    have hfree : t.store.freeList = s.store.freeList := by rw [hstore]; rfl
    refine ⟨t.updStore (fun x => x.drawReserved id sh), ?_, rfl, hsame.trans (updStore_only t p _).1, hmasters, hport, ?_,
      (t.store.drawReserved id sh).frames, ?_⟩
    · simp [State.needPages, hframe, hsh, hz, hb]
    · refine Eq.trans dframe ?_
      rw [Nat.min_eq_left hshort, hfree]
      rfl
    · refine Eq.trans dstore ?_
      rw [Nat.min_eq_left hshort]
      generalize (t.store.drawReserved id sh).frames = fr'
      rw [hstore]
      rfl

/-! ## The lines a close counts (R90) -/

theorem fillHoles_eq {lo hi : Nat} (hf : s.frame? id = some f) (h : lo < hi) : s.fillHoles id lo hi =
    (s.updStore (fun st => { st with dram := zeroFrameBytes (lo * f.width) (hi * f.width) 0 f.pages s.store.dram })).updFrame id
      (fun f => { f with missing := f.missing + (hi - lo), tags := { f.tags with gaps := true } }) := by
  simp only [State.fillHoles, Nat.not_le.mpr h, if_false, State.zeroLines, hf]
  rfl

/-- R90, R86: a close that counts lines past those stored, within the capacity: holes. -/
theorem closeFilling_holes (hf : s.frame? id = some f) (hopen : (s.port p).intake.openFrame = some id)
    (hcut : (s.port p).intake.cutOff = false) (hb : (s.port p).intake.bound.isSome = true)
    (hnext : (s.port p).intake.nextIndex = f.stored) (hcap : (s.port p).intake.capacity = some f.lines) (h1 : f.stored < cc)
    (h2 : cc ≤ f.lines) (hsh : pagesFor cc f.width - f.pages.length = short) (hshort : short ≤ f.stepReserved) :
    ((s.closeFilling p cc).port p).intake = { (s.port p).intake with highest := some (cc - 1) } ∧
    Drawn s (s.closeFilling p cc) p id short
      { f.drawing s.store short with stored := cc, missing := f.missing + (cc - f.stored), tags := { f.tags with gaps := true } }
      (zeroFrameBytes (f.stored * f.width) (cc * f.width) 0 (f.drawing s.store short).pages s.store.dram) := by
  obtain ⟨u, hneed, huport, hdrawn⟩ := needPages_bound (n := cc) (p := p) (Drawn.self hf) hb (by rw [hsh]; exact hshort)
  rw [hsh] at hdrawn
  have heq : s.closeFilling p cc = (((u.fillHoles id f.stored cc).updFrame id (fun f => { f with stored := cc })).updIntake p
      (fun i => { i with highest := some (cc - 1) })) := by
    unfold State.closeFilling
    simp [hopen, hcap, Nat.not_lt.mpr h2, hcut, hnext, h1, Nat.min_eq_left h2, hneed]
  rw [heq, fillHoles_eq hdrawn.frame h1, hdrawn.dram]
  refine ⟨?_, (((hdrawn.updDram).updFrame (by intro _; rfl)).updFrame (by intro _; rfl)).updIntake⟩
  rw [State.updIntake_port_intake]
  exact congrArg (fun r : PortRec => { r.intake with highest := some (cc - 1) }) huport

/-- R90: a close that counts more lines than the capacity, all of them stored. -/
theorem closeFilling_truncated (hf : s.frame? id = some f) (hopen : (s.port p).intake.openFrame = some id)
    (hnext : (s.port p).intake.nextIndex = f.lines) (hcap : (s.port p).intake.capacity = some f.lines) (h : f.lines < cc) :
    ((s.closeFilling p cc).port p).intake = (s.port p).intake ∧
    Drawn s (s.closeFilling p cc) p id 0 { f with tags := { f.tags with truncated := true } } s.store.dram := by
  have heq : s.closeFilling p cc = s.updFrame id (fun f => { f with tags := { f.tags with truncated := true } }) := by
    unfold State.closeFilling
    simp [hopen, hcap, h, hnext, Nat.min_eq_right (Nat.le_of_lt h)]
    rfl
  rw [heq]
  exact ⟨rfl, (Drawn.self hf).updFrame (by intro _; rfl)⟩

/-! ## The frame before its handover (R91, R93) -/

theorem endTagged_none : f.endTagged ⟨false, false⟩ = f := by
  simp [FrameRec.endTagged]

/-- R91, step 1: every buffered line of the port is of the frame. -/
theorem Drawn.flush (h : Drawn s t p id n f d) (hb : ∀ b ∈ (t.port p).intake.buffers, b.frame = id) :
    (((t.updFrame id (FrameRec.endTagged ⟨false, false⟩)).flushFrame p id).port p).intake = { (t.port p).intake with buffers := [] } ∧
    Drawn s ((t.updFrame id (FrameRec.endTagged ⟨false, false⟩)).flushFrame p id) p id n f
      (flushBytes f (t.port p).intake.buffers d) := by
  have hframe : (t.updFrame id (FrameRec.endTagged ⟨false, false⟩)).frame? id = some (f.endTagged ⟨false, false⟩) :=
    frame?_updFrame_state (by intro _; rfl) h.frame
  have hall : (t.port p).intake.buffers.filter (fun b => b.frame == id) = (t.port p).intake.buffers :=
    List.filter_eq_self.2 fun b hm => by simp [hb b hm]
  have hnone : (t.port p).intake.buffers.filter (fun b => !(b.frame == id)) = [] :=
    List.filter_eq_nil_iff.2 fun b hm => by simp [hb b hm]
  have hport : (t.updFrame id (FrameRec.endTagged ⟨false, false⟩)).port p = t.port p := rfl
  have htagged := h.updFrame (k := FrameRec.endTagged ⟨false, false⟩) (by intro _; rfl)
  rw [endTagged_none] at htagged hframe
  rw [flushFrame_eq hframe, hport, hall]
  refine ⟨?_, ?_⟩
  · rw [State.updIntake_port_intake]
    exact congrArg (fun l => { (t.port p).intake with buffers := l }) hnone
  · have := (htagged.updDram (e := flushBytes f (t.port p).intake.buffers d)).updIntake
      (k := fun i => { i with buffers := i.buffers.filter (fun b => !(b.frame == id)) })
    rw [← htagged.dram] at this ⊢
    exact this

/-- R82, R86: `v` is the state before the handover of frame `f` of state `s`: its record comes to `want` with `short` pages drawn, the
lines past those it had stored are zeros and its buffered ones are written. -/
def BoundEnding (s v : State) (p : Port) (id short : Nat) (f want : FrameRec) : Prop :=
  ∃ d, Drawn s v p id short (want.drawing s.store short) d ∧ (v.port p).intake.buffers = [] ∧
    ((s.port p).intake.buffers = [] ∨ BuffersApart s p f → ∀ b x, f.stored * f.width ≤ b → b < want.stored * f.width →
      frameAddr (f.pages ++ s.store.freeList.take short) b = some x → d.read x = 0) ∧
    (BuffersApart s p f → ∀ b ∈ (s.port p).intake.buffers, ∀ j x, j < b.bytes.length →
      frameAddr f.pages (b.index * f.width + j) = some x → d.read x = b.bytes.getD j 0)

/-- R82: a byte of a buffered line is below the lines stored after it. -/
theorem buffered_below {b : BufferedLine} {w j k : Nat} (hb : b.index < k) (hl : b.bytes.length ≤ w) (hj : j < b.bytes.length) :
    b.index * w + j < k * w := by
  have := Nat.mul_le_mul_right w (show b.index + 1 ≤ k from hb)
  rw [Nat.add_mul] at this
  omega

theorem nodup_drawn (h : (f.pages ++ s.store.freeList).Nodup) : (f.pages ++ s.store.freeList.take n).Nodup :=
  h.sublist ((List.take_sublist n _).append_left f.pages)

/-- R91: a frame that is not padded; `d` is what the close has made of the DRAM. -/
theorem boundEnding_unpadded (hs : Drawn s t p id short (want.drawing s.store short) d)
    (hbuf : (t.port p).intake.buffers = (s.port p).intake.buffers) (hframes : ∀ b ∈ (s.port p).intake.buffers, b.frame = id)
    (hpad : ((t.port p).intake.bound.map BoundStep.lenient).getD false = false ∨ want.lines ≤ want.stored)
    (hw : want.width = f.width) (hp : want.pages = f.pages) (hwf : s.store.dram.wf = true → d.wf = true)
    (hzero : ∀ b x, f.stored * f.width ≤ b → b < want.stored * f.width →
      frameAddr (f.pages ++ s.store.freeList.take short) b = some x → d.read x = 0) :
    ((t.updFrame id (FrameRec.endTagged ⟨false, false⟩)).flushFrame p id).frame? id = some (want.drawing s.store short) ∧
    BoundEnding s (t.frameEnding p id ⟨false, false⟩) p id short f want := by
  obtain ⟨hintake, hdrawn⟩ := hs.flush (by rw [hbuf]; exact hframes)
  have heq : t.frameEnding p id ⟨false, false⟩ = (t.updFrame id (FrameRec.endTagged ⟨false, false⟩)).flushFrame p id :=
    padFrame_none hdrawn.frame (by rw [hintake]; exact hpad.imp_right .inr)
  rw [heq]
  have hpages : (want.drawing s.store short).pages = f.pages ++ s.store.freeList.take short := by rw [← hp]; rfl
  have hwidth : (want.drawing s.store short).width = f.width := hw
  have hwritten : BuffersApart s p f → _ := fun ⟨hwf', hnodup, hpair, hlines⟩ =>
    flushBytes_read (f := want.drawing s.store short) (by rw [hpages]; exact nodup_drawn hnodup) (s.port p).intake.buffers (hwf hwf') hpair
      (fun b hb => by rw [hwidth]; exact (hlines b hb).2)
  rw [hpages, hwidth] at hwritten
  refine ⟨hdrawn.frame, _, hdrawn, by rw [hintake], fun hcase b x h1 h2 hx => ?_, fun hapart b hb j x hj hx => ?_⟩
  · rw [hbuf]
    rcases hcase with hnil | hapart
    · rw [hnil]
      exact hzero b x h1 h2 hx
    · refine ((hwritten hapart).2 x fun c hc j hj hxc => ?_).trans (hzero b x h1 h2 hx)
      obtain ⟨-, hnodup, -, hlines⟩ := hapart
      have := frameAddr_inj (nodup_drawn hnodup) hx hxc
      have := buffered_below (hlines c hc).1 (hlines c hc).2 hj
      omega
  · rw [hbuf]
    exact (hwritten hapart).1 b hb j x hj (frameAddr_append hx)

/-- R91, step 2: a short frame of a LENIENT step padded with zeros to its lines. -/
theorem boundEnding_padded (hf : s.frame? id = some f) (hframes : ∀ b ∈ (s.port p).intake.buffers, b.frame = id)
    (hb : (s.port p).intake.bound = some ⟨i, true⟩) (hpartial : f.tags.isPartial = false) (hlt : f.stored < f.lines)
    (hsh : pagesFor f.lines f.width - f.pages.length = short) (hshort : short ≤ f.stepReserved) :
    ((s.updFrame id (FrameRec.endTagged ⟨false, false⟩)).flushFrame p id).frame? id = some f ∧
    BoundEnding s (s.frameEnding p id ⟨false, false⟩) p id short f { f with
      stored := f.lines, missing := f.missing + (f.lines - f.stored), tags := { f.tags with padded := true } } := by
  obtain ⟨hintake, hdrawn⟩ := (Drawn.self hf).flush hframes
  have hframe := hdrawn.frame
  have hbound : (((s.updFrame id (FrameRec.endTagged ⟨false, false⟩)).flushFrame p id).port p).intake.bound = some ⟨i, true⟩ := by
    rw [hintake]
    exact hb
  refine ⟨hframe, ?_⟩
  unfold State.frameEnding
  generalize (s.updFrame id (FrameRec.endTagged ⟨false, false⟩)).flushFrame p id = t at *
  obtain ⟨u, hneed, huport, hu⟩ := needPages_bound (n := f.lines) (p := p) hdrawn (by rw [hbound]; rfl) (by rw [hsh]; exact hshort)
  rw [hsh] at hu
  have heq : t.padFrame p id = ((u.updStore (fun st => { st with
      dram := zeroFrameBytes (f.stored * f.width) (f.lines * f.width) 0 (f.drawing s.store short).pages
        (flushBytes f (s.port p).intake.buffers s.store.dram) })).updFrame id
      (fun g => { g with missing := g.missing + (f.lines - f.stored), stored := f.lines, tags := { g.tags with padded := true } })) := by
    rw [← hu.dram]
    simp only [State.padFrame, hframe, hbound, hpartial, hlt, Option.map_some, Option.getD_some, Bool.not_false, decide_true,
      Bool.and_self, if_true, hneed, State.zeroLines, hu.frame]
    rfl
  rw [heq]
  refine ⟨_, (hu.updDram).updFrame (by intro _; rfl), ?_, fun _ b x h1 h2 hx => zeroFrameBytes_zero h1 h2 hx,
    fun ⟨hwf, hnodup, hpair, hlines⟩ b hb j x hj hx => ?_⟩
  · show (u.port p).intake.buffers = []
    rw [huport, hintake]
  · have hn : f.pages.Nodup := hnodup.sublist (List.sublist_append_left _ _)
    refine ((zeroFrameBytes_spec (flushBytes_wf _ hwf) _ _ _).2 x fun c h1 h2 hxc => ?_).trans
      ((flushBytes_read hn _ hwf hpair fun b hb => (hlines b hb).2).1 b hb j x hj hx)
    have := frameAddr_inj (nodup_drawn hnodup) (frameAddr_append hx) hxc
    have := buffered_below (hlines b hb).1 (hlines b hb).2 hj
    omega

end Sys2Proof.Machine

end


section
/-! PROOFS. FRAME_CLOSE of a frame bound to a step, and of a discarded one (4.5 to 4.7, 8.4). -/

namespace Sys2Proof.Machine

variable {s t u v : State} {p q : Port} {m : Master} {a : Analysis} {st : Step} {id i n k cc lines short delivered next : Nat}
  {f g want : FrameRec} {status : EndStatus} {lenient : Bool} {b : BufferedLine}

/-! ## A stored frame's close (R90 to R93) -/

/-- R90, R91, R168: what a close with count `cc` makes of the record of a frame bound to a step, the lines delivered, and how the
run's last step ends. -/
def CloseCase (cc : Nat) (lenient : Bool) (f : FrameRec) (delivered : Nat) (want : FrameRec) (status : EndStatus) : Prop :=
  (cc ≤ f.stored ∧ f.stored = f.lines ∧ f.tags.truncated = false ∧ delivered = f.stored ∧ want = f ∧ status = .normal) ∨
  (cc ≤ f.stored ∧ f.stored < f.lines ∧ lenient = false ∧ delivered = f.stored ∧ want = f ∧ status = .lengthMismatch) ∨
  (f.stored < cc ∧ cc ≤ f.lines ∧ lenient = false ∧ delivered = cc ∧
    want = { f with stored := cc, missing := f.missing + (cc - f.stored), tags := { f.tags with gaps := true } } ∧
    status = (if cc = f.lines ∧ f.tags.truncated = false then .normal else .lengthMismatch)) ∨
  (cc ≤ f.stored ∧ f.stored < f.lines ∧ lenient = true ∧ f.tags.isPartial = false ∧ delivered = f.stored ∧
    want = { f with
      stored := f.lines, missing := f.missing + (f.lines - f.stored), tags := { f.tags with padded := true } } ∧ status = .normal) ∨
  (f.lines < cc ∧ f.stored = f.lines ∧ lenient = false ∧ delivered = f.stored ∧
    want = { f with tags := { f.tags with truncated := true } } ∧ status = .lengthMismatch)

theorem CloseCase.status_eq (h : CloseCase cc lenient f delivered want status) :
    status = if lenient = true ∨ (delivered = f.lines ∧ want.tags.truncated = false) then .normal else .lengthMismatch := by
  rcases h with ⟨-, hs, ht, rfl, rfl, rfl⟩ | ⟨-, hs, rfl, rfl, rfl, rfl⟩ | ⟨-, -, rfl, rfl, rfl, rfl⟩ | ⟨-, -, rfl, -, -, rfl, rfl⟩ |
    ⟨-, hs, rfl, rfl, rfl, rfl⟩
  · rw [if_pos (.inr ⟨hs, ht⟩)]
  · rw [if_neg (by simp; omega)]
  · simp
  · rw [if_pos (.inl rfl)]
  · rw [if_neg (by simp)]

/-- What a close leaves of a frame's record. -/
theorem CloseCase.record (h : CloseCase cc lenient f delivered want status) : want.width = f.width ∧ want.pages = f.pages ∧
    want.readers = f.readers ∧ want.lines = f.lines ∧ want.id = f.id ∧ want.port = f.port ∧ want.stepReserved = f.stepReserved := by
  rcases h with ⟨-, -, -, -, rfl, -⟩ | ⟨-, -, -, -, rfl, -⟩ | ⟨-, -, -, -, rfl, -⟩ | ⟨-, -, -, -, -, rfl, -⟩ |
    ⟨-, -, -, -, rfl, -⟩ <;>
    exact ⟨rfl, rfl, rfl, rfl, rfl, rfl, rfl⟩

/-- R90, R91: the frame as the close and the flush of its buffers leave it, and before its handover. -/
theorem closeCase_ending (h : CloseCase cc lenient f delivered want status) (hf : s.frame? id = some f)
    (hopen : (s.port p).intake.openFrame = some id) (hbound : (s.port p).intake.bound = some ⟨i, lenient⟩)
    (hcut : (s.port p).intake.cutOff = false) (hframes : ∀ b ∈ (s.port p).intake.buffers, b.frame = id)
    (hnext : (s.port p).intake.highest.elim 0 (fun h => h + 1) = f.stored) (hcap : (s.port p).intake.capacity = some f.lines)
    (hsh : short = if want.stored = f.stored then 0 else (want.stored * f.width + 65535) / 65536 - f.pages.length)
    (hshort : short ≤ f.stepReserved) :
    ∃ f1 x, ((s.closeFilling p cc).port p) = { s.port p with intake := { (s.port p).intake with highest := x } } ∧
      (((s.closeFilling p cc).updFrame id (FrameRec.endTagged ⟨false, false⟩)).flushFrame p id).frame? id = some f1 ∧
      f1.stored = delivered ∧ BoundEnding s ((s.closeFilling p cc).frameEnding p id ⟨false, false⟩) p id short f want := by
  rw [← nextIndex_eq] at hnext
  have hlenient : lenient = false → ((s.port p).intake.bound.map BoundStep.lenient).getD false = false := fun h => by
    rw [hbound, h]
    rfl
  have hnone : cc ≤ f.stored → f.stored ≤ f.lines → s.closeFilling p cc = s := fun h1 h2 =>
    closeFilling_none hopen hcap (Nat.le_trans h1 h2) (by rw [← nextIndex_eq, hnext]; exact h1)
  have hempty : want.stored ≤ f.stored → ∀ b x, f.stored * f.width ≤ b → b < want.stored * f.width →
      frameAddr (f.pages ++ s.store.freeList.take short) b = some x → s.store.dram.read x = 0 := fun hle b x h1 h2 =>
    absurd (Nat.lt_of_lt_of_le h2 (Nat.mul_le_mul_right f.width hle)) (Nat.not_lt.mpr h1)
  have hself : Drawn s s p id 0 (f.drawing s.store 0) s.store.dram := (drawing_zero s.store).symm ▸ Drawn.self hf
  rcases h with ⟨h1, h2, -, rfl, rfl, -⟩ | ⟨h1, h2, h3, rfl, rfl, -⟩ | ⟨h1, h2, h3, rfl, rfl, -⟩ | ⟨h1, h2, h3, h4, rfl, rfl, -⟩ |
    ⟨h1, h2, h3, rfl, rfl, -⟩
  · rw [if_pos rfl] at hsh
    subst hsh
    obtain ⟨hframe, hending⟩ := boundEnding_unpadded hself rfl hframes (.inr (Nat.le_of_eq h2.symm)) rfl rfl (fun h => h)
      (hempty (Nat.le_refl _))
    rw [hnone h1 (Nat.le_of_eq h2)]
    exact ⟨_, (s.port p).intake.highest, rfl, hframe, rfl, hending⟩
  · rw [if_pos rfl] at hsh
    subst hsh
    obtain ⟨hframe, hending⟩ := boundEnding_unpadded hself rfl hframes (.inl (hlenient h3)) rfl rfl (fun h => h)
      (hempty (Nat.le_refl _))
    rw [hnone h1 (Nat.le_of_lt h2)]
    exact ⟨_, (s.port p).intake.highest, rfl, hframe, rfl, hending⟩
  · rw [if_neg (Nat.ne_of_gt h1), ← pagesFor_eq] at hsh
    obtain ⟨hintake, hdrawn⟩ := closeFilling_holes hf hopen hcut (by rw [hbound]; rfl) hnext hcap h1 h2 hsh.symm hshort
    obtain ⟨hframe, hending⟩ := boundEnding_unpadded (f := f) (want := { f with
        stored := delivered, missing := f.missing + (delivered - f.stored), tags := { f.tags with gaps := true } }) hdrawn (by rw [hintake]) hframes
      (.inl (by rw [hintake]; exact hlenient h3)) rfl rfl (fun h => zeroFrameBytes_wf _ _ _ _ h)
      (fun b x h1 h2 hx => zeroFrameBytes_zero h1 h2 hx)
    exact ⟨_, some (delivered - 1), by rw [hdrawn.2.2.1, hintake], hframe, rfl, hending⟩
  · rw [if_neg (Nat.ne_of_gt h2), ← pagesFor_eq] at hsh
    subst h3
    obtain ⟨hframe, hending⟩ := boundEnding_padded hf hframes hbound h4 h2 hsh.symm hshort
    rw [hnone h1 (Nat.le_of_lt h2)]
    exact ⟨_, (s.port p).intake.highest, rfl, hframe, rfl, hending⟩
  · rw [if_pos rfl] at hsh
    subst hsh
    obtain ⟨hintake, hdrawn⟩ := closeFilling_truncated hf hopen (hnext.trans h2) hcap h1
    obtain ⟨hframe, hending⟩ := boundEnding_unpadded (f := f) (want := { f with tags := { f.tags with truncated := true } })
      (by rw [drawing_zero]; exact hdrawn) (by rw [hintake]) hframes (.inl (by rw [hintake]; exact hlenient h3)) rfl rfl (fun h => h)
      (hempty (Nat.le_refl _))
    exact ⟨_, (s.port p).intake.highest, by rw [hdrawn.2.2.1, hintake], hframe, rfl, hending⟩

/-- R91 to R93: a stored frame bound to the step in progress, closed and handed to its one reader, which has room: the state `w` in
which the sequencer gets its report. -/
theorem boundFrame_closed (h : CloseCase cc lenient f delivered want status) (hstate : (s.port p).intake.state = .filling) (hf : s.frame? id = some f)
    (hopen : (s.port p).intake.openFrame = some id) (hbound : (s.port p).intake.bound = some ⟨i, lenient⟩)
    (hcut : (s.port p).intake.cutOff = false) (hframes : ∀ b ∈ (s.port p).intake.buffers, b.frame = id)
    (hnext : (s.port p).intake.highest.elim 0 (fun h => h + 1) = f.stored) (hcap : (s.port p).intake.capacity = some f.lines)
    (hphase : (s.port p).seq.inPhase .frameWait = true) (hlive : (s.port p).seq.bound = some (.frame id))
    (hr : f.readers = (⟨false, false⟩ : PerAnalysis Bool).set a true)
    (hroom : (s.store.readers.get a).ready.length < (s.store.readers.get a).holdLimit) (hstored : 0 < want.stored)
    (hsh : short = if want.stored = f.stored then 0 else (want.stored * f.width + 65535) / 65536 - f.pages.length)
    (hshort : short ≤ f.stepReserved) :
    ∃ w d fr, s.closeFrame p cc = w.seqReport p ((want.drawing s.store short).report delivered) ∧ SameOutside s w p ∧
      w.port p = { s.port p with intake := (w.port p).intake } ∧ (w.port p).intake.state = .idle ∧ (w.port p).intake.openFrame = none ∧
      (w.port p).intake.bound = none ∧ (w.port p).intake.buffers = [] ∧
      w.frame? id = some (((want.drawing s.store short).closedAt s.now).readied s.store.nextHandover) ∧
      w.store = { s.store with
        frames := fr, dram := d, freeList := s.store.freeList.drop short, handovers := s.store.nextHandover
        reservedPages := s.store.reservedPages - f.stepReserved
        readers := s.store.readers.set a { s.store.readers.get a with ready := (s.store.readers.get a).ready ++ [id] } } ∧
      w.masters = (s.notify a.master false (.frameReady ((((want.drawing s.store short).closedAt s.now).readied
        s.store.nextHandover).entry a) ((s.store.readers.get a).ready.length + 1))).masters ∧
      ((s.port p).intake.buffers = [] ∨ BuffersApart s p f → ∀ b x, f.stored * f.width ≤ b → b < want.stored * f.width →
        frameAddr (f.pages ++ s.store.freeList.take short) b = some x → d.read x = 0) ∧
      (BuffersApart s p f → ∀ b ∈ (s.port p).intake.buffers, ∀ j x, j < b.bytes.length →
        frameAddr f.pages (b.index * f.width + j) = some x → d.read x = b.bytes.getD j 0) := by
  obtain ⟨-, -, hreaders, -, -, -, hreserved⟩ := h.record
  obtain ⟨f1, x, hclosing, hflushed, hdelivered, d, hdrawn, hbuffers, hzero, hwritten⟩ :=
    closeCase_ending h hf hopen hbound hcut hframes hnext hcap hsh hshort
  have hnow : (s.closeFilling p cc).now = s.now := (closeFilling_only s p cc).1.2.1
  generalize hx : s.closeFilling p cc = y at *
  obtain ⟨csame, cmasters, cport, cframe, -, cstore, -⟩ := frameClosed_of_ending rfl hdrawn.frame
  have hframe := hdrawn.frame
  obtain ⟨vsame, vmasters, vport, -, fr, vstore⟩ := hdrawn
  have hfinal : y.finalize p ⟨false, false⟩ true = ((y.frameClosed p id ⟨false, false⟩).handover id).seqReport p
      ((want.drawing s.store short).report delivered) := by
    rw [finalize_eq (by rw [hclosing]; exact hopen) hflushed hframe, boundLive_of (by rw [hclosing, hbound]; rfl)
      (by rw [hclosing]; exact hphase) (by rw [hclosing]; exact hlive) (by rw [hclosing]; exact hstate) (by rw [hclosing]; exact hopen),
      hdelivered]
    rfl
  generalize y.frameEnding p id ⟨false, false⟩ = v at *
  obtain ⟨c, hc⟩ : ∃ c, y.frameClosed p id ⟨false, false⟩ = c := ⟨_, rfl⟩
  rw [hc] at csame cmasters cport cframe cstore hfinal
  have hcreaders : c.store.readers = s.store.readers := by rw [cstore, vstore]
  have hcnext : c.store.nextHandover = s.store.nextHandover := by rw [cstore, vstore]; rfl
  obtain ⟨wframe, -, wstore, wmasters⟩ := handover_listed (a := a) cframe hstored (hreaders.trans hr) (by rw [hcreaders]; exact hroom)
  have wport := handover_port c id p
  have wsame := (vsame.trans csame).trans (handover_only c p id).1
  rw [hcnext, hnow] at wframe
  rw [hcnext, hcreaders, hnow] at wmasters
  have hresv : s.store.reservedPages - short - (f.stepReserved - short) = s.store.reservedPages - f.stepReserved := by omega
  refine ⟨c.handover id, d, (c.handover id).store.frames, ?_, wsame, ?_, ?_, ?_, ?_, ?_, wframe, ?_,
    wmasters.trans (notify_masters_congr (cmasters.trans vmasters) (vsame.trans csame).2.1), hzero, hwritten⟩
  · rw [← hfinal, ← hx]
    simp only [State.closeFrame, hstate]
  · rw [wport, cport, vport]
  · rw [wport, cport]; rfl
  · rw [wport, cport]; rfl
  · rw [wport, cport]; rfl
  · rw [wport, cport]; exact hbuffers
  · rw [wstore, hcnext, cstore, vstore, ← hresv, ← hreserved]
    rfl

/-- R90: a close that counts nothing. -/
theorem closeFilling_zero (hopen : (s.port p).intake.openFrame = some id) : s.closeFilling p 0 = s := by
  simp [State.closeFilling, hopen]

/-- R90: a close that counts no line past those stored: no more than a tag. -/
theorem closeFilling_unbound (hopen : (s.port p).intake.openFrame = some id) (hf : s.frame? id = some f)
    (hcc : cc ≤ (s.port p).intake.nextIndex) :
    ∃ g, (s.closeFilling p cc).frame? id = some g ∧ g.pages = f.pages ∧ g.width = f.width ∧
      ((s.closeFilling p cc).port p).intake = (s.port p).intake ∧ (s.closeFilling p cc).store.dram = s.store.dram := by
  have heq : s.closeFilling p cc = if (s.port p).intake.capacity.getD 0 < cc then
      s.updFrame id (fun f => { f with tags := { f.tags with truncated := true } }) else s := by
    simp [State.closeFilling, hopen, Nat.not_lt.mpr hcc]
    rfl
  rw [heq]
  split
  · exact ⟨_, frame?_updFrame_state (by intro _; rfl) hf, rfl, rfl, rfl, rfl⟩
  · exact ⟨f, hf, rfl, rfl, rfl, rfl⟩

/-! ## FRAME_CLOSE of a discarded frame (R94) -/

theorem exec_frameClose_discarding (hup : (s.port p).link.state = .up) (hatt : (s.port p).link.attempt = none)
    (hstate : (s.port p).intake.state = .discarding) : exec (.frameClose p (s.port p).link.listen cc) s =
      .next (((s.hear p).reportDiscard p (.close cc)).updIntake p IntakeRec.toIdle) := by
  have hintake : ((s.hear p).port p).intake = (s.port p).intake := by rw [(hear_spec hatt).2]
  rw [exec_frameClose_up hup]
  simp only [State.closeFrame, hintake, hstate]
  rfl

theorem reportDiscard_of_not_live {x : DiscardEnd} (h : (s.port p).boundLive = false) : s.reportDiscard p x = s := by
  simp [State.reportDiscard, h]

theorem closeTail_close {i : IntakeRec} {c : DiscardCounts} (hcounts : i.counts = some c) (hlines : i.lines = some lines) :
    i.closeTail (.close cc) = some ⟨c.received, c.missing + (min cc lines - i.highest.elim 0 (fun h => h + 1)), c.damaged⟩ := by
  rw [← nextIndex_eq]
  simp only [IntakeRec.closeTail, hcounts, hlines]
  rfl

/-! ## A handover leaves the DRAM alone (R92, R104) -/

section
variable {d : Memory}

theorem notify_dram {b : NoticeBody} {urgent : Bool} : (s.notify m urgent b).store.dram = s.store.dram := by
  obtain ⟨-, -, -, -, -, hstore, -⟩ := notify_same s m urgent b
  rw [hstore]

theorem dropReader_dram (st : Store) : (st.dropReader id a).dram = st.dram := by
  unfold Store.dropReader
  dsimp only
  split
  · split <;> rfl
  · rfl

theorem listFrame_dram : (s.listFrame a id).store.dram = s.store.dram := by
  unfold State.listFrame
  extract_lets s1
  split
  · rfl
  · exact notify_dram

theorem giveUp_dram : (s.giveUp a id).store.dram = s.store.dram := by
  unfold State.giveUp
  split
  · rfl
  · exact notify_dram

theorem holdRelease_dram : (s.holdRelease a id).store.dram = s.store.dram := by
  unfold State.holdRelease
  split
  · rfl
  · exact (dropReader_dram _).trans notify_dram

theorem judgeReader_dram : (s.judgeReader a id).store.dram = s.store.dram := by
  have hfold : ∀ l : List Nat, (l.foldl (State.holdRelease a) s).store.dram = s.store.dram := fun l =>
    foldl_closed (P := fun u : State => u.store.dram = s.store.dram) (fun _ _ h => holdRelease_dram.trans h) rfl
  unfold State.judgeReader
  split
  · rfl
  · split
    · rfl
    · refine ite_closed (P := fun u : State => u.store.dram = s.store.dram) listFrame_dram ?_
      split
      · exact giveUp_dram
      · exact ite_closed (P := fun u : State => u.store.dram = s.store.dram) giveUp_dram (listFrame_dram.trans (hfold _))

theorem handover_dram : (s.handover id).store.dram = s.store.dram := by
  unfold State.handover
  extract_lets s0 s1 s2
  have h2 : s2.store.dram = s.store.dram := judgeReader_dram.trans judgeReader_dram
  split
  · rfl
  · refine ite_closed (P := fun u : State => u.store.dram = s.store.dram) rfl
      (ite_closed (P := fun u : State => u.store.dram = s.store.dram) rfl ?_)
    split
    · exact ite_closed (P := fun u : State => u.store.dram = s.store.dram) h2 h2
    · exact h2

end

/-- Settles O60. -/
theorem boundFramesEnd : Obligations.BoundFramesEnd := by
  refine ⟨fun s p cc id i w delivered short st lenient f want a m status hup hatt hstate hopen hbound hcut hframes hnext hcap hphase hlive
      hindex hst hlenient hchain hm hf hw hr hroom hcase hstored hsh hshort => ?_,
    fun s p id i st f m hup hatt hstate hopen hbound hbuf hphase hlive hindex hst hlenient hm hf hstored hlines => ?_,
    fun s p cc id f b hup hatt hstate hopen hbound hbuf hb hcc hf hn hwf => ?_,
    fun s p cc i next lines st lenient m hup hatt hstate hbound hnext hlines => ⟨fun hother => ?_,
      fun hphase hdisc hindex hst hchain hm told status lengths hcase => ?_⟩⟩
  · subst hw
    have hcase : CloseCase cc lenient f delivered want status := hcase
    obtain ⟨hsame, hport⟩ := hear_spec hatt
    have hintake : ((s.hear p).port p).intake = (s.port p).intake := by rw [hport]
    have hseq : ((s.hear p).port p).seq = (s.port p).seq := by rw [hport]
    obtain ⟨w, d, fr, hclose, wsame, wport, widle, wopen, wbound, wbuf, wframe, wstore, wmasters, hzero, hwritten⟩ :=
      boundFrame_closed (s := s.hear p) (p := p) (a := a) (short := short) hcase (by rw [hintake]; exact hstate) hf (by rw [hintake]; exact hopen)
        (by rw [hintake]; exact hbound) (by rw [hintake]; exact hcut) (by rw [hintake]; exact hframes) (by rw [hintake]; exact hnext)
        (by rw [hintake]; exact hcap) (by rw [hseq]; exact hphase) (by rw [hseq]; exact hlive) hr hroom hstored hsh hshort
    have hapart : BuffersApart (s.hear p) p f = BuffersApart s p f := by
      unfold BuffersApart
      rw [hintake]
      rfl
    rw [hintake, hapart] at hzero hwritten
    obtain ⟨-, -, -, hwlines, hwid, -, -⟩ := hcase.record
    have hwseq : (w.port p).seq = (s.port p).seq := by rw [wport, hport]
    have hreport := seqReport_stored (s := w) (p := p) (m := m) (i := i) (st := st) (delivered := delivered) (lines := want.lines)
      (missing := want.missing) (damaged := want.damaged) (tags := want.tags)
      (frame := if want.stored = 0 then none else some want.id) (status := status) (by rw [hwseq]; exact hst) (fun _ => hchain)
      (by rw [hwseq]; exact hm) (by rw [hwseq]; exact hindex) (by rw [hlenient, hwlines]; exact hcase.status_eq)
    have hclose : (s.hear p).closeFrame p cc = w.seqReport p (.stored delivered want.lines want.missing want.damaged want.tags
      (if want.stored = 0 then none else some want.id)) := hclose
    obtain ⟨u, hu⟩ : ∃ u, w.seqReport p (.stored delivered want.lines want.missing want.damaged want.tags
      (if want.stored = 0 then none else some want.id)) = u := ⟨_, rfl⟩
    rw [hu] at hclose hreport
    obtain ⟨hrun, umasters⟩ := hreport
    have uoutside := hrun.outside
    obtain ⟨-, ustore, uport⟩ := hrun
    have hnotice : ∀ x y, w.endNotice p m i status x y = s.endNotice p m i status x y := fun x y =>
      endNotice_congr (by rw [wport, hport]) hwseq
    have hpages : (((want.drawing s.store short).closedAt s.now).readied s.store.nextHandover).pages =
        f.pages ++ s.store.freeList.take short := by
      rw [← hcase.record.2.1]
      rfl
    refine ⟨u, ((want.drawing s.store short).closedAt s.now).readied s.store.nextHandover, (exec_frameClose_up hup).trans (by rw [hclose]),
      fun q hq => ((uoutside.1 q hq).trans (wsame.1 q hq)).trans (hsame.1 q hq), by rw [uport]; exact widle, by rw [uport]; exact wopen,
      by rw [uport]; exact wbound, by rw [uport]; exact wbuf, ?_, ?_, ?_, ?_, ?_, ?_, ?_, by rw [uport], ?_, _, rfl, ?_⟩
    · unfold State.frame? Store.frame?
      rw [ustore]
      exact wframe
    · rw [← hcase.record.2.1]
      rfl
    · rw [ustore, wstore]
      rfl
    · rw [ustore, wstore, hwseq]
      rfl
    · rw [hpages, ustore, wstore]
      exact hzero
    · rw [ustore, wstore]
      exact hwritten
    · rw [ustore, wstore]
      exact congrArg ReaderRec.ready (PerAnalysis.get_set_self ..)
    · rw [uport, hwseq, hindex]
      rfl
    · rw [umasters, hnotice, if_neg (Nat.ne_of_gt hstored), hwlines]
      exact notify_masters_congr (wmasters.trans (notify_masters_congr rfl rfl)) wsame.2.1
  · obtain ⟨hsame, hport⟩ := hear_spec hatt
    have hintake : ((s.hear p).port p).intake = (s.port p).intake := by rw [hport]
    have hframe : (s.hear p).frame? id = some f := hf
    have hpad : (((s.hear p).port p).intake.bound.map BoundStep.lenient).getD false = false := by
      rw [hintake, hbound]
      rfl
    obtain ⟨-, csame, cmasters, cport, cframe, -⟩ := frameClosed_unpadded (p := p) (e := ⟨false, false⟩) hframe (.inl hpad)
    have hfreed := handover_unstored cframe hstored
    have hlivePort : ((s.hear p).port p).boundLive = true := by
      rw [hport]
      exact boundLive_of (by rw [hbound]; rfl) hphase hlive hstate hopen
    have hexec : exec (.frameClose p (s.port p).link.listen 0) s = .next ((((s.hear p).frameClosed p id ⟨false, false⟩).handover id).seqReport p
        (.stored f.stored f.lines f.missing f.damaged f.tags none)) := by
      rw [exec_frameClose_up hup]
      simp only [State.closeFrame, hintake, hstate]
      rw [closeFilling_zero (by rw [hintake]; exact hopen), finalize_unpadded (by rw [hintake]; exact hopen) hframe (.inl hpad), hlivePort,
        endTagged_none]
      simp only [FrameRec.report, hstored]
      rfl
    generalize (s.hear p).frameClosed p id ⟨false, false⟩ = c at *
    have wport := handover_port c id p
    have wsame := (hsame.outside.trans csame).trans (handover_only c p id).1
    have wframe : (c.handover id).frame? id = none := by
      rw [hfreed]
      exact Store.frame?_freeFrame
    have wmasters : (c.handover id).masters = s.masters := by
      rw [hfreed]
      exact cmasters
    generalize c.handover id = w at *
    have hwport : w.port p = { (s.hear p).port p with intake := (w.port p).intake } := by rw [wport, cport]
    have hwidle : (w.port p).intake.state = .idle := by rw [wport, cport]; rfl
    have hwseq : (w.port p).seq = (s.port p).seq := by rw [hwport, hport]
    have hreport := seqReport_stored (s := w) (p := p) (m := m) (i := i) (st := st) (delivered := f.stored) (lines := f.lines)
      (missing := f.missing) (damaged := f.damaged) (tags := f.tags) (frame := none) (status := .lengthMismatch) (by rw [hwseq]; exact hst)
      nofun (by rw [hwseq]; exact hm) (by rw [hwseq]; exact hindex) (by rw [hlenient, if_neg (by simp; omega)])
    obtain ⟨u, hu⟩ : ∃ u, w.seqReport p (.stored f.stored f.lines f.missing f.damaged f.tags none) = u := ⟨_, rfl⟩
    rw [hu] at hexec hreport
    obtain ⟨hrun, umasters⟩ := hreport
    have uoutside := hrun.outside
    obtain ⟨-, ustore, uport⟩ := hrun
    refine ⟨u, hexec, fun q hq => (uoutside.1 q hq).trans (wsame.1 q hq), by rw [uport]; exact hwidle, ?_, by rw [uport],
      by rw [uport, hwseq, hindex]; rfl, ?_⟩
    · unfold State.frame? Store.frame?
      rw [ustore]
      exact wframe
    · have hnotice : ∀ x y, w.endNotice p m i .lengthMismatch x y = s.endNotice p m i .lengthMismatch x y := fun x y =>
        endNotice_congr (by rw [hwport, hport]) hwseq
      rw [umasters, hnotice, hstored]
      exact notify_masters_congr wmasters wsame.2.1
  · obtain ⟨hsame, hport⟩ := hear_spec hatt
    have hintake : ((s.hear p).port p).intake = (s.port p).intake := by rw [hport]
    obtain ⟨g, hgframe, hgpages, hgwidth, hgintake, hgdram⟩ := closeFilling_unbound (s := s.hear p) (p := p) (cc := cc)
      (by rw [hintake]; exact hopen) hf (by rw [hintake, nextIndex_eq]; exact hcc)
    rw [hintake] at hgintake
    obtain ⟨-, -, -, cport, -, -, cstore, -⟩ := frameClosed_unpadded (p := p) (e := ⟨false, false⟩) hgframe
      (.inl (by rw [hgintake, hbound]; rfl))
    refine ⟨((s.hear p).closeFilling p cc |>.frameClosed p id ⟨false, false⟩).handover id, ?_, ?_, fun j x hj hx => ?_⟩
    · rw [exec_frameClose_up hup]
      simp only [State.closeFrame, hintake, hstate]
      rw [finalize_unbound (by rw [hgintake]; exact hopen) hgframe (by rw [hgintake]; exact hbound)]
    · rw [handover_port, cport, hgintake, hbuf]
      simp [hb]
    · have hwritten := (writeFrameBytes_read hn b.bytes (b.index * f.width) hwf).1 j x hj hx
      have hheard : (s.hear p).store.dram = s.store.dram := rfl
      rw [handover_dram, cstore, hgintake, hbuf, hgdram, hheard]
      simpa [hb, flushBytes, hgpages, hgwidth] using hwritten
  · refine ⟨_, exec_frameClose_discarding hup hatt hstate, ?_⟩
    obtain ⟨hsame, hport⟩ := hear_spec hatt
    have hlive : ((s.hear p).port p).boundLive = false := by
      rw [hport]
      exact boundLive_other hstate hother
    rw [reportDiscard_of_not_live hlive]
    refine ⟨hsame.trans (updPort_sameBut ..), ?_, ?_⟩
    · rw [State.updIntake_port_seq, hport]
    · rw [State.updIntake_port_intake]
      rfl
  · obtain ⟨hsame, hport⟩ := hear_spec hatt
    have hintake : ((s.hear p).port p).intake = (s.port p).intake := by rw [hport]
    have hseq : ((s.hear p).port p).seq = (s.port p).seq := by rw [hport]
    have hnow := hsame.2.1
    have hmasters : (s.hear p).masters = s.masters := hsame.masters_eq
    have hlive := boundLive_discarded (s := s.hear p) (p := p) (by rw [hintake, hbound]; rfl) (by rw [hseq]; exact hphase)
      (by rw [hseq]; exact hdisc) (by rw [hintake]; exact hstate)
    obtain ⟨y, hy, hmasters, hynow⟩ : ∃ y : State, (((((s.hear p).port p).intake.cause = some .discardStep ∨
            ((s.hear p).port p).intake.cause = some .noReaders) ∧ status = .normal ∧ lengths = none ∧
          y = (s.hear p).notify m false (.frameSummary p ((((s.hear p).port p).intake.closeTail (.close cc)).getD ⟨0, 0, 0⟩))) ∨
        (((s.hear p).port p).intake.cause = some .widthMismatch ∧ status = .lengthMismatch ∧ lengths = some (0, lines) ∧
          y = s.hear p)) ∧ y.masters = told.masters ∧ y.now = told.now := by
      rcases hcase with ⟨x, hcause, hcounts, rfl, rfl, rfl⟩ | ⟨hcause, rfl, rfl, rfl⟩
      · refine ⟨_, .inl ⟨by rw [hintake]; exact hcause, rfl, rfl, rfl⟩, ?_, ?_⟩
        · rw [hintake, closeTail_close hcounts hlines, hnext]
          exact notify_masters_congr hmasters hnow
        · exact hnow
      · exact ⟨_, .inr ⟨by rw [hintake]; exact hcause, rfl, rfl, rfl⟩, hmasters, hnow⟩
    obtain ⟨ysame, yends, ymasters⟩ := reportDiscard_ends (x := .close cc) hlive nofun (by rw [hintake]; exact hlines) (by rw [hseq]; exact hst)
      hchain (by rw [hseq]; exact hm) (by rw [hseq]; exact hindex) hy
    have hyport : y.port p = (s.hear p).port p := ysame.1 p
    have zoutside := yends.outside
    obtain ⟨-, -, zport⟩ := yends
    refine ⟨_, exec_frameClose_discarding hup hatt hstate, ?_⟩
    generalize (s.hear p).reportDiscard p (.close cc) = z at *
    have hu : (z.updIntake p IntakeRec.toIdle).port p = { z.port p with intake := (z.port p).intake.toIdle } := State.updPort_port_self ..
    rw [zport, hyport, hport] at hu
    have hnotice : y.endNotice p m i status none lengths = s.endNotice p m i status none lengths :=
      endNotice_congr (by rw [hyport, hport]) (by rw [hyport, hseq])
    refine ⟨fun q hq => ?_, by rw [hu]; rfl, by rw [hu]; rfl, by rw [hu]; rfl, by rw [hu]; rfl, by rw [hu], by rw [hu, hindex]; rfl, ?_⟩
    · exact (((updPort_sameBut z p _).1 q hq).trans (zoutside.1 q hq)).trans ((ysame.1 q).trans (hsame.1 q hq))
    · refine ymasters.trans ?_
      rw [hnotice]
      exact notify_masters_congr hmasters hynow

end Sys2Proof.Machine

end


section
/-! PROOFS. Where the four packets of the frame intake and the lens go, and lines that are not stored (1.1, 4.2, 4.3). -/

namespace Sys2Proof.Machine

variable {s t u v : State} {p : Port} {rate : Rate} {c : Instr} {k n id next lines : Nat} {payload : List Byte} {bad : Bool} {r : PortRec}
  {f g : FrameRec}

/-! ## The packets that reach a block in UP alone (R2) -/

/-- The four kinds of packet that reach their block in UP. -/
def Routed (c : Instr) (p : Port) (rate : Rate) : Prop :=
  (∃ l, c = .lensReport p rate l) ∨ (∃ f w n, c = .frameOpen p rate f w n) ∨ (∃ k l, c = .line p rate k l) ∨
    ∃ n, c = .frameClose p rate n

theorem exec_routed_unreceived (hc : Routed c p rate) (h : s.receives p rate = false) : exec c s = .next s := by
  obtain ⟨l, rfl⟩ | ⟨f, w, n, rfl⟩ | ⟨k, l, rfl⟩ | ⟨n, rfl⟩ := hc
  · simp [exec, execLensReport, h]
  · simp [exec, execFrameOpen, h]
  · simp [exec, execLine, h]
  · simp [exec, execFrameClose, h]

theorem routed_stray {act : State → State} (h : (s.port p).link.state ≠ .up) :
    s.routed p act = ((s.hear p).countClean p).countStray p := if_neg h

/-- R2, R206: outside UP the four do what a malformed packet does. -/
theorem exec_routed_stray (hc : Routed c p rate) (hrec : s.receives p rate = true) (hup : (s.port p).link.state ≠ .up) :
    exec c s = .next (((s.hear p).countClean p).countStray p) := by
  obtain ⟨l, rfl⟩ | ⟨f, w, n, rfl⟩ | ⟨k, l, rfl⟩ | ⟨n, rfl⟩ := hc
  · simp [exec, execLensReport, hrec, routed_stray hup]
  · simp [exec, execFrameOpen, hrec, routed_stray hup]
  · simp [exec, execLine, hrec, routed_stray hup]
  · simp [exec, execFrameClose, hrec, routed_stray hup]

theorem countStray_port (s : State) (p : Port) : (s.countStray p).port p = { s.port p with
    counters := { (s.port p).counters with stray := satInc (s.port p).counters.stray } } := State.updPort_port_self ..

/-- R83: at an IDLE intake a LINE and a FRAME_CLOSE are stray. -/
theorem exec_idle_intake (hc : (∃ k l, c = .line p (s.port p).link.listen k l) ∨ ∃ n, c = .frameClose p (s.port p).link.listen n)
    (hup : (s.port p).link.state = .up) (hidle : (s.port p).intake.state = .idle) (hatt : (s.port p).link.attempt = none) :
    exec c s = .next ((s.hear p).countStray p) := by
  have hintake : ((s.hear p).port p).intake = (s.port p).intake := by rw [(hear_spec hatt).2]
  obtain ⟨k, l, rfl⟩ | ⟨n, rfl⟩ := hc
  · simp [exec, execLine, receives_up hup, routed_up hup, State.takeLine, hintake, hidle]
  · simp [exec, execFrameClose, receives_up hup, routed_up hup, State.closeFrame, hintake, hidle]

theorem routedPackets (hc : Routed c p rate) :
    (((s.port p).link.state = .down ∨ (s.port p).link.state = .testing ∨ rate ≠ (s.port p).link.listen) → exec c s = .next s) ∧
    (rate = (s.port p).link.listen → (s.port p).link.attempt = none → (s.port p).counters.stray < 4294967295 →
      ((s.port p).link.state = .awaitHello ∨ (s.port p).link.state = .lost ∨
        ((s.port p).link.state = .up ∧ (s.port p).intake.state = .idle ∧
          ((∃ k l, c = .line p rate k l) ∨ (∃ n, c = .frameClose p rate n)))) →
      ∃ t, exec c s = .next t ∧ SameBut s t p ∧
        t.port p = { s.port p with
          link := { (s.port p).link with lastPacket := some s.now }
          counters := { (s.port p).counters with stray := (s.port p).counters.stray + 1 } }) ∧
    (rate = (s.port p).link.listen → ((s.port p).link.state = .training ∨ (s.port p).link.state = .retraining) →
      ∃ t : State, exec (.idle p rate) s = .next t ∧
        exec c s =
          .next (t.updCounters p (fun n => { n with stray := if n.stray < 4294967295 then n.stray + 1 else n.stray }))) := by
  refine ⟨fun h => exec_routed_unreceived hc (receives_eq_false h), fun hrate hatt htop hcase => ?_, fun hrate htrain => ?_⟩
  · obtain ⟨hsame, hport⟩ := hear_spec hatt
    have hexec : exec c s = .next ((s.hear p).countStray p) := by
      have hquiet : (s.port p).link.state.connected = true → (s.port p).link.state ≠ .up → (s.port p).link.state.inTraining = false →
          exec c s = .next ((s.hear p).countStray p) := fun hcon hup hno => by
        rw [exec_routed_stray hc (hrate ▸ receives_listen hcon) hup, countClean_of_not_training (by rw [hport]; exact hno)]
      rcases hcase with h | h | ⟨hup, hidle, hkind⟩
      · exact hquiet (by rw [h]; rfl) (by rw [h]; decide) (by rw [h]; rfl)
      · exact hquiet (by rw [h]; rfl) (by rw [h]; decide) (by rw [h]; rfl)
      · exact exec_idle_intake (hrate ▸ hkind) hup hidle hatt
    refine ⟨_, hexec, hsame.trans (updPort_sameBut ..), ?_⟩
    rw [countStray_port, hport, satInc_eq, if_pos htop]
  · have hrec : s.receives p rate = true := hrate ▸ receives_listen (connected_of_training htrain)
    refine ⟨_, exec_idle_received hrec, exec_routed_stray hc hrec ?_⟩
    rcases htrain with h | h <;> rw [h] <;> decide

/-! ## Lines at a DISCARDING intake (R83) -/

/-- The arrival of a line noted by its intake. -/
def State.active (s : State) (p : Port) : State := s.updIntake p (fun i => { i with lastActivity := some s.now })

theorem active_spec : SameBut s (s.active p) p ∧
    (s.active p).port p = { s.port p with intake := { (s.port p).intake with lastActivity := some s.now } } :=
  ⟨updPort_sameBut .., State.updPort_port_self ..⟩

theorem takeLine_discarding {d : Bool} (h : (s.port p).intake.state = .discarding) :
    s.takeLine p k payload d = (s.active p).countDiscarded p k payload.length d := by
  simp only [State.takeLine, h]
  rfl

theorem takeLine_filling {d : Bool} (h : (s.port p).intake.state = .filling) :
    s.takeLine p k payload d = (s.active p).lineFilling p k payload d := by
  simp only [State.takeLine, h]
  rfl

/-- R83: what a line does to the discard counts, once its arrival is recorded in the record `r` of the port. -/
theorem countDiscarded_spec {len : Nat} {d : Bool} (hr : s.port p = r)
    (hbad : bad = (d || decide (r.intake.declaredWidth ≠ some len))) :
    (r.intake.counts = none → s.countDiscarded p k len d = s) ∧
    ∀ n lines, r.intake.counts = some n → r.intake.lines = some lines →
      (k < r.intake.nextIndex → s.countDiscarded p k len d = s.countStray p) ∧
      (r.intake.nextIndex ≤ k → lines ≤ k → s.countDiscarded p k len d = s) ∧
      (r.intake.nextIndex ≤ k → k < lines → s.countDiscarded p k len d = s.updIntake p (fun i => { i with
        counts := some ⟨n.received + 1, n.missing + (k - i.nextIndex), if bad = true then n.damaged + 1 else n.damaged⟩
        highest := some k })) := by
  subst hr hbad
  refine ⟨fun h => by simp [State.countDiscarded, h], fun n lines h hl => ⟨fun hk => ?_, fun hk hle => ?_, fun hk hlt => ?_⟩⟩
  · simp [State.countDiscarded, h, hk]
  · simp [State.countDiscarded, h, hl, Nat.not_lt.mpr hk, hle]
  · simp only [State.countDiscarded, h, hl, Nat.not_lt.mpr hk, if_false, Option.getD_some, Nat.not_le.mpr hlt]

/-- R83: a command that a DISCARDING intake takes as a line, `r` being the port's record with the arrival recorded. -/
theorem discardedLine {len : Nat} {d : Bool} {y : State} (hexec : exec c s = .next (y.countDiscarded p k len d)) (hy : SameBut s y p)
    (hport : y.port p = r) (hbad : bad = (d || decide (r.intake.declaredWidth ≠ some len)))
    (hcounts : r.intake.counts = (s.port p).intake.counts) (hhighest : r.intake.highest = (s.port p).intake.highest)
    (hlines : r.intake.lines = (s.port p).intake.lines) :
    ((s.port p).intake.counts = none → ∃ t, exec c s = .next t ∧ SameBut s t p ∧ t.port p = r) ∧
    (∀ n next lines, (s.port p).intake.counts = some n → next = (s.port p).intake.highest.elim 0 (fun h => h + 1) →
      (s.port p).intake.lines = some lines →
      ∃ t, exec c s = .next t ∧ SameBut s t p ∧
        (k < next → t.port p = { r with
          counters := { r.counters with
            stray := if r.counters.stray < 4294967295 then r.counters.stray + 1 else r.counters.stray } }) ∧
        (next ≤ k → lines ≤ k → t.port p = r) ∧
        (next ≤ k → k < lines → t.port p = { r with
          intake := { r.intake with
            highest := some k
            counts := some ⟨n.received + 1, n.missing + (k - next), if bad = true then n.damaged + 1 else n.damaged⟩ } })) := by
  obtain ⟨hnone, hsome⟩ := countDiscarded_spec (k := k) hport hbad
  rw [← hcounts, ← hhighest, ← hlines]
  refine ⟨fun h => ⟨y, by rw [hexec, hnone h], hy, hport⟩, fun n next lines h hnext hl => ?_⟩
  rw [← nextIndex_eq] at hnext
  subst hnext
  obtain ⟨hstray, hignored, hcounted⟩ := hsome n lines h hl
  refine ⟨_, hexec, ?_, fun hk => ?_, fun hk hle => ?_, fun hk hlt => ?_⟩
  · rcases Nat.lt_or_ge k r.intake.nextIndex with hk | hk
    · rw [hstray hk]
      exact hy.trans (updPort_sameBut ..)
    · rcases Nat.lt_or_ge k lines with hlt | hle
      · rw [hcounted hk hlt]
        exact hy.trans (updPort_sameBut ..)
      · rw [hignored hk hle]
        exact hy
  · rw [hstray hk, countStray_port, hport]
    rfl
  · rw [hignored hk hle, hport]
  · rw [hcounted hk hlt]
    refine (State.updPort_port_self ..).trans ?_
    rw [hport]

theorem exec_line_up (hup : (s.port p).link.state = .up) :
    exec (.line p (s.port p).link.listen k payload) s = .next ((s.hear p).takeLine p k payload false) := by
  simp [exec, execLine, receives_up hup, routed_up hup]

/-- R1: a check-failed packet counted at an UP link. -/
theorem failedAtUp_spec (hatt : (s.port p).link.attempt = none) :
    SameBut s (((s.hear p).countFailed p).updLink p LinkRec.failInWindow) p ∧
    (((s.hear p).countFailed p).updLink p LinkRec.failInWindow).port p = { s.port p with
      link := { (s.port p).link with
        lastPacket := some s.now
        window := (s.port p).link.window.map (fun w => { w with count := if w.count < 4294967295 then w.count + 1 else w.count }) }
      counters := { (s.port p).counters with
        checkFailed := if (s.port p).counters.checkFailed < 4294967295 then (s.port p).counters.checkFailed + 1
          else (s.port p).counters.checkFailed } } := by
  rw [hear_countFailed_eq]
  refine ⟨(updPort_sameBut ..).trans (updPort_sameBut ..), (State.updPort_port_self ..).trans ?_⟩
  rw [State.updPort_port_self, heardPacket_of_none hatt]
  rfl

theorem discardedLines {c : Instr} (hup : (s.port p).link.state = .up) (hatt : (s.port p).link.attempt = none)
    (hstate : (s.port p).intake.state = .discarding)
    (hc : (c = .line p (s.port p).link.listen k payload ∧ bad = decide ((s.port p).intake.declaredWidth ≠ some payload.length) ∧
        r = { s.port p with
          link := { (s.port p).link with lastPacket := some s.now }
          intake := { (s.port p).intake with lastActivity := some s.now } }) ∨
      (c = .checkFailedPacket p (s.port p).link.listen (some (k, payload)) ∧ bad = true ∧
        r = { s.port p with
          link := { (s.port p).link with
            lastPacket := some s.now
            window := (s.port p).link.window.map
              (fun w => { w with count := if w.count < 4294967295 then w.count + 1 else w.count }) }
          counters := { (s.port p).counters with
            checkFailed := if (s.port p).counters.checkFailed < 4294967295 then (s.port p).counters.checkFailed + 1
              else (s.port p).counters.checkFailed }
          intake := { (s.port p).intake with lastActivity := some s.now } })) :
    ∃ y d, exec c s = .next (State.countDiscarded y p k payload.length d) ∧ SameBut s y p ∧ y.port p = r ∧
      bad = (d || decide (r.intake.declaredWidth ≠ some payload.length)) ∧ r.intake.counts = (s.port p).intake.counts ∧
      r.intake.highest = (s.port p).intake.highest ∧ r.intake.lines = (s.port p).intake.lines := by
  rcases hc with ⟨rfl, rfl, rfl⟩ | ⟨rfl, rfl, rfl⟩
  · obtain ⟨hsame, hport⟩ := hear_spec hatt
    obtain ⟨asame, aport⟩ := active_spec (s := s.hear p) (p := p)
    refine ⟨(s.hear p).active p, false, ?_, hsame.trans asame, ?_, rfl, rfl, rfl, rfl⟩
    · rw [exec_line_up hup, takeLine_discarding (by rw [hport]; exact hstate)]
    · rw [aport, hport]
      rfl
  · obtain ⟨hsame, hport⟩ := failedAtUp_spec hatt
    have hexec := (exec_checkFailed_up (receives_up hup) hup).2 k payload
    generalize ((s.hear p).countFailed p).updLink p LinkRec.failInWindow = x at *
    obtain ⟨asame, aport⟩ := active_spec (s := x) (p := p)
    refine ⟨x.active p, true, ?_, hsame.trans asame, ?_, rfl, rfl, rfl, rfl⟩
    · rw [hexec, takeLine_discarding (by rw [hport]; exact hstate)]
    · rw [aport, hport, hsame.2.1]

end Sys2Proof.Machine

end


section
/-! PROOFS. Lines at a FILLING intake (4.3, 4.4, 5.5, 5.6). -/

namespace Sys2Proof.Machine

variable {s t u v : State} {p : Port} {k n id next lines cap short : Nat} {payload : List Byte} {d : Bool} {f g y : FrameRec} {pg : List Nat}
  {res : Nat}

/-! ## A line heard at a FILLING intake (R84) -/

/-- The packet heard, and its arrival noted by the intake. -/
def State.lined (s : State) (p : Port) : State := (s.hear p).active p

theorem lined_spec (hatt : (s.port p).link.attempt = none) : SameBut s (s.lined p) p ∧ (s.lined p).port p = { s.port p with
    link := { (s.port p).link with lastPacket := some s.now }
    intake := { (s.port p).intake with lastActivity := some s.now } } := by
  obtain ⟨hsame, hport⟩ := hear_spec hatt
  obtain ⟨asame, aport⟩ := active_spec (s := s.hear p) (p := p)
  refine ⟨hsame.trans asame, ?_⟩
  show ((s.hear p).active p).port p = _
  rw [aport, hport]
  rfl

theorem exec_line_filling (hup : (s.port p).link.state = .up) (hatt : (s.port p).link.attempt = none)
    (hstate : (s.port p).intake.state = .filling) :
    exec (.line p (s.port p).link.listen k payload) s = .next ((s.lined p).lineFilling p k payload false) := by
  rw [exec_line_up hup, takeLine_filling (by rw [(hear_spec hatt).2]; exact hstate)]
  rfl

section
variable (hopen : (s.port p).intake.openFrame = some id)
include hopen

theorem lineFilling_cut (h : (s.port p).intake.cutOff = true) : s.lineFilling p k payload d = s := by
  simp [State.lineFilling, hopen, h]

theorem lineFilling_stray (hcut : (s.port p).intake.cutOff = false) (h : k < (s.port p).intake.nextIndex) :
    s.lineFilling p k payload d = s.countStray p := by
  simp [State.lineFilling, hopen, hcut, h]

theorem lineFilling_truncated (hcut : (s.port p).intake.cutOff = false) (h : (s.port p).intake.nextIndex ≤ k)
    (hcap : (s.port p).intake.capacity = some cap) (hk : cap ≤ k) :
    s.lineFilling p k payload d = s.updFrame id (fun f => { f with tags := { f.tags with truncated := true } }) := by
  simp [State.lineFilling, hopen, hcut, Nat.not_lt.mpr h, hcap, hk]
  rfl

theorem lineFilling_overrun (hcut : (s.port p).intake.cutOff = false) (h : (s.port p).intake.nextIndex ≤ k)
    (hcap : (s.port p).intake.capacity = some cap) (hk : k < cap) (hfull : 2 ≤ (s.port p).intake.buffers.length) :
    s.lineFilling p k payload d = s.updFrame id (fun f => { f with tags := { f.tags with overrun := true } }) := by
  have hfull : Config.lineBuffers ≤ (s.port p).intake.buffers.length := hfull
  simp [State.lineFilling, hopen, hcut, Nat.not_lt.mpr h, hcap, Nat.not_le.mpr hk, hfull]
  rfl

/-- R84: a line that has a buffer is stored where the frame has the pages for it. -/
theorem lineFilling_pages (hcut : (s.port p).intake.cutOff = false) (h : (s.port p).intake.nextIndex ≤ k)
    (hcap : (s.port p).intake.capacity = some cap) (hk : k < cap) (hroom : (s.port p).intake.buffers.length < 2) :
    s.lineFilling p k payload d = if (s.needPages p id (k + 1)).2 = true then (s.needPages p id (k + 1)).1.storeLine p id k payload d
      else (s.needPages p id (k + 1)).1 := by
  have hroom : ¬ Config.lineBuffers ≤ (s.port p).intake.buffers.length := Nat.not_le.mpr hroom
  simp only [State.lineFilling, hopen, hcut, Bool.false_eq_true, if_false, Nat.not_lt.mpr h, hcap, Option.getD_some, Nat.not_le.mpr hk, hroom]

end

/-! ## The line stored (R86) -/

/-- R86: line `k` of frame `id` in a buffer. -/
def IntakeRec.buffering (id k : Nat) (bytes : List Byte) (i : IntakeRec) : IntakeRec :=
  { i with highest := some k, buffers := i.buffers ++ [⟨id, k, bytes⟩] }

/-- R86: `u` is the state in which the frame has its pages, `pg`, and `res` left of its step reservation. -/
theorem storeLine_stores (hport : u.port p = { s.port p with
      link := { (s.port p).link with lastPacket := some s.now }
      intake := { (s.port p).intake with lastActivity := some s.now } })
    (hf : u.frame? id = some { f with pages := pg, stepReserved := res }) (hid : f.id = id)
    (hdram : u.store.dram = s.store.dram) (hw : (s.port p).intake.width = some f.width)
    (hnext : next = (s.port p).intake.highest.elim 0 (fun h => h + 1)) :
    ∃ g, StoresLine s (u.storeLine p id k payload false) p f g next k payload
        (decide ((s.port p).intake.declaredWidth ≠ some payload.length)) ∧ g.pages = pg ∧ g.stepReserved = res ∧
      (∀ x, x ≠ id → (u.storeLine p id k payload false).frame? x = u.frame? x) ∧
      SameBut { u with store := (u.storeLine p id k payload false).store } (u.storeLine p id k payload false) p ∧
      (u.storeLine p id k payload false).store = { u.store with
        frames := (u.storeLine p id k payload false).store.frames, dram := (u.storeLine p id k payload false).store.dram } := by
  subst hid
  have hintake : (u.port p).intake = { (s.port p).intake with lastActivity := some s.now } := by rw [hport]
  obtain ⟨hframe, hothers, ⟨fr, dr, heq⟩, hbytes⟩ := State.storeLine_spec p k payload false hf (by rw [hintake]; exact hw) next
    (decide ((s.port p).intake.declaredWidth ≠ some payload.length)) (by rw [hintake]; exact hnext) (by rw [hintake]; rfl)
  generalize u.storeLine p f.id k payload false = t at *
  obtain ⟨l, hl⟩ : ∃ l, (payload ++ List.replicate (f.width - payload.length) 0).take f.width = l := ⟨_, rfl⟩
  have heq : t = (u.updIntake p (IntakeRec.buffering f.id k l)).updStore (fun st => { st with frames := fr, dram := dr }) := by
    rw [← hl]
    exact heq
  have htport : t.port p = { u.port p with intake := (u.port p).intake.buffering f.id k l } := by
    rw [heq]
    exact State.updPort_port_self u p (fun r => { r with intake := r.intake.buffering f.id k l })
  have hstore : t.store = { u.store with frames := fr, dram := dr } := by rw [heq]; rfl
  refine ⟨_, ⟨?_, hframe, rfl, fun hwf => ?_⟩, rfl, rfl, hothers, ?_, by rw [hstore]⟩
  · rw [htport, hport, hl]
    rfl
  · rw [← hdram]
    exact hbytes (by rw [hdram]; exact hwf)
  · rw [heq]
    exact (updPort_sameBut u p (fun r => { r with intake := r.intake.buffering f.id k l })).with_store _

/-! ## The pages of a line (R85) -/

theorem reclaimPages_enough {fuel : Nat} (h : n ≤ s.store.unreservedPages) : State.reclaimPages fuel s n = s := by
  cases fuel with
  | zero => rfl
  | succ fuel => exact if_pos h

theorem reclaimPages_none {fuel : Nat} (h : NoVictim s.store) : State.reclaimPages fuel s n = s := by
  cases fuel with
  | zero => rfl
  | succ fuel =>
    unfold State.reclaimPages
    rw [reclaimOne_none h]
    exact ite_self _

/-- R85, R112: one victim is enough. -/
theorem reclaimPages_one {fuel : Nat} {v : FrameRec} (hv : OldestUnpinned s.store v) (hfew : ¬ n ≤ s.store.unreservedPages)
    (henough : n ≤ (((s.toldReclaimed v).updStore (fun st => st.freeFrame v.id))).store.unreservedPages) :
    State.reclaimPages (fuel + 1) s n = (s.toldReclaimed v).updStore (fun st => st.freeFrame v.id) := by
  unfold State.reclaimPages
  rw [if_neg hfew, reclaimOne_eq hv]
  exact reclaimPages_enough henough

section
variable (hf : s.frame? id = some f) (hshort : pagesFor n f.width - f.pages.length = short)
include hf hshort

theorem needPages_enough (h : short = 0) : s.needPages p id n = (s, true) := by
  simp [State.needPages, hf, hshort, h]

theorem needPages_reserved (h : 0 < short) (hb : (s.port p).intake.bound.isSome = true) :
    s.needPages p id n = (s.updStore (fun st => st.drawReserved id short), true) := by
  simp [State.needPages, hf, hshort, Nat.ne_of_gt h, hb]

/-- R85: an unsequenced frame, once as many frames have been reclaimed as it takes. -/
theorem needPages_unbound (h : 0 < short) (hb : (s.port p).intake.bound = none)
    (hu : State.reclaimPages (s.store.frames.length + 1) s short = u) :
    s.needPages p id n = if short ≤ u.store.unreservedPages then (u.updStore (fun st => st.drawPages id short), true)
      else (u.cutFrame p id, false) := by
  simp only [State.needPages, hf, hshort, Nat.ne_of_gt h, if_false, hb, Option.isSome_none, Bool.false_eq_true, hu]

end

/-! ## What a line does at a FILLING intake -/

/-- R84 to R86: the line has its pages in the state `u`, and is stored. -/
theorem exec_line_stores (hup : (s.port p).link.state = .up) (hatt : (s.port p).link.attempt = none)
    (hstate : (s.port p).intake.state = .filling) (hopen : (s.port p).intake.openFrame = some id) (hf : s.frame? id = some f)
    (hw : (s.port p).intake.width = some f.width) (hcut : (s.port p).intake.cutOff = false)
    (hnext : next = (s.port p).intake.highest.elim 0 (fun h => h + 1)) (hk : next ≤ k) (hcap : (s.port p).intake.capacity = some cap)
    (hlt : k < cap) (hroom : (s.port p).intake.buffers.length < 2) (hneed : (s.lined p).needPages p id (k + 1) = (u, true))
    (hport : u.port p = (s.lined p).port p) (hframe : u.frame? id = some { f with pages := pg, stepReserved := res })
    (hdram : u.store.dram = s.store.dram) :
    ∃ t g, exec (.line p (s.port p).link.listen k payload) s = .next t ∧
      StoresLine s t p f g next k payload (decide ((s.port p).intake.declaredWidth ≠ some payload.length)) ∧ g.pages = pg ∧
      g.stepReserved = res ∧ (∀ x, x ≠ id → t.frame? x = u.frame? x) ∧ SameBut { u with store := t.store } t p ∧
      t.store = { u.store with frames := t.store.frames, dram := t.store.dram } := by
  obtain ⟨-, lport⟩ := lined_spec hatt
  have hexec := exec_line_filling (k := k) (payload := payload) hup hatt hstate
  have hintake : ((s.lined p).port p).intake = { (s.port p).intake with lastActivity := some s.now } := by rw [lport]
  rw [lineFilling_pages (by rw [hintake]; exact hopen) (by rw [hintake]; exact hcut)
    (by rw [hintake, nextIndex_eq]; exact hnext ▸ hk) (by rw [hintake]; exact hcap) hlt (by rw [hintake]; exact hroom), hneed] at hexec
  obtain ⟨g, hstores, hpages, hres, hothers, hsame, hstore⟩ := storeLine_stores (payload := payload) (k := k) (hport.trans lport) hframe
    (Store.id_of_frame? hf) hdram hw hnext
  exact ⟨_, g, hexec, hstores, hpages, hres, hothers, hsame, hstore⟩

/-- Settles O40. -/
theorem linesAreStoredOrStray : Obligations.LinesAreStoredOrStray := by
  refine ⟨fun s p c rate hc => routedPackets hc, fun s p k payload c bad r hup hatt hstate hc => ?_,
    fun s p k id next cap w payload f hup hatt hstate hopen hcut hnext hcap hwidth hf hw hpos =>
      ⟨fun hk => ?_, fun g hcase => ?_, fun hk hlt hroom hpages => ?_⟩,
    fun s p k id next cap w short payload f hup hatt hstate hopen hf hw hwidth => ⟨fun hcut => ?_,
      fun hcut hnext hk hcap hlt hroom hshort hpos => ⟨fun hcase => ?_, fun hb hfew => ⟨fun hno => ?_, fun v hv hne henough => ?_⟩⟩⟩⟩
  · obtain ⟨y, d, hexec, hy, hport, hbad, hcounts, hhighest, hlines⟩ := discardedLines hup hatt hstate hc
    exact discardedLine hexec hy hport hbad hcounts hhighest hlines
  · obtain ⟨hsame, hport⟩ := lined_spec hatt
    have hintake : ((s.lined p).port p).intake = { (s.port p).intake with lastActivity := some s.now } := by rw [hport]
    refine ⟨(s.lined p).countStray p, (exec_line_filling hup hatt hstate).trans (by
      rw [lineFilling_stray (by rw [hintake]; exact hopen) (by rw [hintake]; exact hcut)
      (by rw [hintake, nextIndex_eq]; exact hnext ▸ hk)]), hsame.trans (updPort_sameBut ..), ?_⟩
    rw [countStray_port, hport]
    rfl
  · obtain ⟨hsame, hport⟩ := lined_spec hatt
    have hintake : ((s.lined p).port p).intake = { (s.port p).intake with lastActivity := some s.now } := by rw [hport]
    have hframe : (s.lined p).frame? id = some f := hf
    have hnext' : next = ((s.lined p).port p).intake.nextIndex := by rw [hintake, nextIndex_eq]; exact hnext
    have hexec := exec_line_filling (k := k) (payload := payload) hup hatt hstate
    have htagged : ∃ h : FrameRec → FrameRec, (∀ r, (h r).id = r.id) ∧ h f = g ∧
        (s.lined p).lineFilling p k payload false = (s.lined p).updFrame id h := by
      rcases hcase with ⟨hk, hle, rfl⟩ | ⟨hk, hlt, hfull, rfl⟩
      · exact ⟨_, by intro _; rfl, rfl, lineFilling_truncated (by rw [hintake]; exact hopen) (by rw [hintake]; exact hcut) (hnext' ▸ hk)
          (by rw [hintake]; exact hcap) hle⟩
      · exact ⟨_, by intro _; rfl, rfl, lineFilling_overrun (by rw [hintake]; exact hopen) (by rw [hintake]; exact hcut) (hnext' ▸ hk)
          (by rw [hintake]; exact hcap) hlt (by rw [hintake]; exact hfull)⟩
    obtain ⟨h, hid, rfl, heq⟩ := htagged
    rw [heq] at hexec
    refine ⟨_, hexec, hsame.with_store _, rfl, frame?_updFrame_state hid hframe, fun x hx => Store.frame?_updFrame_of_ne hid hx, hport⟩
  · obtain ⟨hsame, hport⟩ := lined_spec hatt
    subst hw
    have hneed : (s.lined p).needPages p id (k + 1) = (s.lined p, true) :=
      needPages_enough (f := f) (short := 0) hf (by rw [pagesFor_eq]; omega) rfl
    obtain ⟨t, g, hexec, hstores, hpages, hres, hothers, tsame, tstore⟩ := exec_line_stores (payload := payload) (pg := f.pages)
      (res := f.stepReserved) hup hatt hstate hopen hf hwidth hcut hnext hk hcap hlt hroom hneed rfl hf rfl
    exact ⟨t, g, hexec, hsame.own_store.then_store tsame, hstores, hpages, hres, hothers, tstore⟩
  · obtain ⟨hsame, hport⟩ := lined_spec hatt
    refine ⟨_, (exec_line_filling hup hatt hstate).trans (by rw [lineFilling_cut (by rw [hport]; exact hopen) (by rw [hport]; exact hcut)]),
      hsame, hport⟩
  · obtain ⟨hsame, hport⟩ := lined_spec hatt
    subst hw
    rw [← pagesFor_eq] at hshort
    have hbound : ((s.lined p).port p).intake.bound = (s.port p).intake.bound := by rw [hport]
    have hdrawn : ∃ (h : Store → Store) (r : Nat), (s.lined p).needPages p id (k + 1) = ((s.lined p).updStore h, true) ∧
        r = (if (s.port p).intake.bound = none then 0 else min short f.stepReserved) ∧
        (h s.store).frame? id = some { f with pages := f.pages ++ s.store.freeList.take short, stepReserved := f.stepReserved - r } ∧
        (∀ x, x ≠ id → (h s.store).frame? x = s.store.frame? x) ∧
        h s.store = { s.store with
          frames := (h s.store).frames, freeList := s.store.freeList.drop short, reservedPages := s.store.reservedPages - r } := by
      rcases hcase with ⟨hb, henough⟩ | hb
      · obtain ⟨dframe, dothers, dstore⟩ := Store.drawPages_spec (st := s.store) short hf
        have henough : short ≤ s.store.unreservedPages := by
          show short ≤ s.store.freeList.length - s.store.reservedPages
          omega
        refine ⟨fun st => st.drawPages id short, 0, ?_, by rw [if_pos hb], dframe, dothers, dstore⟩
        rw [needPages_unbound (s := s.lined p) hf hshort.symm hpos (hbound.trans hb) (reclaimPages_enough henough)]
        exact if_pos henough
      · obtain ⟨dframe, dothers, dstore⟩ := Store.drawReserved_spec (st := s.store) short hf
        have hne : (s.port p).intake.bound ≠ none := by
          intro h
          rw [h] at hb
          cases hb
        exact ⟨fun st => st.drawReserved id short, _, needPages_reserved hf hshort.symm hpos (by rw [hbound]; exact hb),
          by rw [if_neg hne], dframe, dothers, dstore⟩
    obtain ⟨h, r, hneed, hr, dframe, dothers, dstore⟩ := hdrawn
    obtain ⟨t, g, hexec, hstores, hpages, hres, hothers, tsame, tstore⟩ := exec_line_stores (payload := payload) hup hatt hstate hopen hf hwidth
      hcut hnext hk hcap hlt hroom hneed rfl dframe (by
        show (h s.store).dram = _
        rw [dstore])
    refine ⟨t, g, r, hexec, (hsame.with_store h).then_store tsame, hstores, hr, hpages, hres,
      fun x hx => (hothers x hx).trans (dothers x hx), tstore.trans ?_⟩
    show { h s.store with frames := t.store.frames, dram := t.store.dram } = _
    rw [dstore]
  · obtain ⟨hsame, hport⟩ := lined_spec hatt
    subst hw
    rw [← pagesFor_eq] at hshort
    have hintake : ((s.lined p).port p).intake = { (s.port p).intake with lastActivity := some s.now } := by rw [hport]
    have hshy : ¬ short ≤ (s.lined p).store.unreservedPages := by
      show ¬ short ≤ s.store.freeList.length - s.store.reservedPages
      omega
    have hneed : (s.lined p).needPages p id (k + 1) = ((s.lined p).cutFrame p id, false) := by
      rw [needPages_unbound (s := s.lined p) hf hshort.symm hpos (by rw [hintake]; exact hb) (reclaimPages_none hno)]
      exact if_neg hshy
    have hexec := exec_line_filling (k := k) (payload := payload) hup hatt hstate
    rw [lineFilling_pages (s := s.lined p) (by rw [hintake]; exact hopen) (by rw [hintake]; exact hcut)
      (by rw [hintake, nextIndex_eq]; exact hnext ▸ hk) (by rw [hintake]; exact hcap) hlt (by rw [hintake]; exact hroom), hneed] at hexec
    have hcutSame := (hsame.trans (updPort_sameBut (s.lined p) p (fun r => { r with intake := { r.intake with cutOff := true } })))
    refine ⟨_, hexec, hcutSame.with_store (fun st => st.updFrame id (fun f => { f with
      tags := { f.tags with cutOff := true, isPartial := true } })), ?_, ?_, ?_, rfl⟩
    · refine (State.updPort_port_self (s.lined p) p (fun r => { r with intake := { r.intake with cutOff := true } })).trans ?_
      rw [hport]
    · exact frame?_updFrame_state (s := (s.lined p).updIntake p (fun i => { i with cutOff := true })) (by intro _; rfl) hf
    · exact fun x hx => Store.frame?_updFrame_of_ne (by intro _; rfl) hx
  · obtain ⟨hsame, hport⟩ := lined_spec hatt
    subst hw
    rw [← pagesFor_eq] at hshort
    have hbound : ((s.lined p).port p).intake.bound = none := by rw [hport]; exact hb
    have vonly := toldReclaimed_same (s.lined p) v
    have vsame := vonly
    have vmasters : ((s.lined p).toldReclaimed v).masters = (s.toldReclaimed v).masters :=
      toldReclaimed_masters hsame.masters_eq hsame.2.1
    have hshy : ¬ short ≤ (s.lined p).store.unreservedPages := by
      show ¬ short ≤ s.store.freeList.length - s.store.reservedPages
      omega
    have hvpages : s.store.pagesOf v.id = v.pages := pagesOf_unique hv.2.2.1
    obtain ⟨-, -, -, -, -, ystore, -⟩ := vsame
    have hfree : (((s.lined p).toldReclaimed v).updStore (fun st => st.freeFrame v.id)).store = s.store.freeFrame v.id :=
      congrArg (fun st : Store => st.freeFrame v.id) ystore
    have henough' : short ≤ (((s.lined p).toldReclaimed v).updStore (fun st => st.freeFrame v.id)).store.unreservedPages := by
      rw [hfree]
      show short ≤ (s.store.freeList ++ s.store.pagesOf v.id).length - s.store.reservedPages
      rw [hvpages, List.length_append]
      omega
    obtain ⟨w, hw⟩ : ∃ w, ((s.lined p).toldReclaimed v).updStore (fun st => st.freeFrame v.id) = w := ⟨_, rfl⟩
    have wport : w.port p = (s.lined p).port p := by
      rw [← hw]
      exact vonly.1 p
    have wsame : SameOutside s w p := by
      rw [← hw]
      exact (hsame.outside.trans (vonly.only p).1).trans (updStore_only _ p _).1
    have wmasters : w.masters = (s.toldReclaimed v).masters := by
      rw [← hw]
      exact vmasters
    have hneed : (s.lined p).needPages p id (k + 1) = (w.updStore (fun st => st.drawPages id short), true) := by
      rw [needPages_unbound (s := s.lined p) hf hshort.symm hpos hbound ((reclaimPages_one (s := s.lined p) hv hshy henough').trans hw)]
      rw [hw] at henough'
      exact if_pos henough'
    rw [hw] at hfree
    have wframe : ∀ x, x ≠ v.id → w.store.frame? x = s.store.frame? x := fun x hx => by
      rw [hfree]
      exact Store.frame?_freeFrame_of_ne hx
    obtain ⟨dframe, dothers, dstore⟩ := Store.drawPages_spec (st := w.store) short ((wframe id (Ne.symm hne)).trans hf)
    have wlist : w.store.freeList = s.store.freeList ++ v.pages := by
      rw [hfree, freeList_freeFrame, hvpages]
    rw [wlist] at dframe dstore
    obtain ⟨t, g, hexec, hstores, hpages, hres, hothers, tsame, tstore⟩ := exec_line_stores (payload := payload) hup hatt hstate hopen hf hwidth
      hcut hnext hk hcap hlt hroom hneed wport dframe (by
        show (w.store.drawPages id short).dram = _
        rw [dstore, hfree]
        rfl)
    have hstore : t.store = { w.store with
        frames := t.store.frames, dram := t.store.dram, freeList := (s.store.freeList ++ v.pages).drop short } := by
      refine tstore.trans ?_
      show { w.store.drawPages id short with frames := t.store.frames, dram := t.store.dram } = _
      rw [dstore]
    have hreaders : t.store.readers = (s.store.freeFrame v.id).readers := by
      rw [hstore, hfree]
    refine ⟨t, g, hexec, ((wsame.trans (updStore_only w p (fun st => st.drawPages id short)).1).trans tsame.outside).sameBut,
      tsame.masters_eq.trans wmasters, hstores, hpages, hres, ?_, fun x hx hxv => (hothers x hx).trans ((dothers x hx).trans (wframe x hxv)), ?_, fun a => ?_⟩
    · refine (hothers v.id hne).trans ((dothers v.id hne).trans ?_)
      rw [hfree]
      exact Store.frame?_freeFrame
    · rw [hstore, hfree]
      rfl
    · rw [hreaders]
      cases a <;> rfl

end Sys2Proof.Machine

end
